-- ==== Sys2Proof/Word.lean ====
section
/-! DEFINITION. The byte of the two serial lines and the 16-bit register of their frame check. -/

namespace Sys2Proof

/-- One byte of a frame on the Command Link or the Feeder Line (R158, R189). -/
abbrev Byte := BitVec 8

/-- The register of the frame check (R189). -/
abbrev CheckWord := BitVec 16

end Sys2Proof
end

