-- ==== Sys2Proof/Syntax.lean ====
section
/-! DEFINITION. The commands of the block: one constructor a row of spec/opcode_table.json, with the
operands the row's rule gives it. Numbers of a request are as carried on the link (R192): the checks of the
rules, not the types, say which values are accepted. -/

namespace Sys2Proof

/-- A hoist station; station H1 is 0 and station H4 is 3 (R24). -/
abbrev Hoist := Fin 4

/-- A converter channel: 0 to 3 are the load cells of H1 to H4, 4 is the bath temperature (R104). -/
abbrev Channel := Fin 5

/-- The levels of a station's six plant inputs, true = present or asserted (R140); the same shape holds the
station's six change latches (R198). -/
structure StationInputs where
  ready : Bool
  driveFault : Bool
  top : Bool
  aligned : Bool
  areaClear : Bool
  rehang : Bool
deriving DecidableEq, Repr

/-- The strap pins (R200): BAUD and HOISTS are read as numbers 0 to 3. -/
structure Straps where
  baud : Fin 4
  hoists : Fin 4
  benchPermit : Bool
deriving DecidableEq, Repr

/-- What the pins show at the end of a power-on (R198, R200), and whether VBAK then holds its supply (R81; log
entry 5). -/
structure PowerOnPins where
  straps : Straps
  stations : Vector StationInputs 4
  drivePower : Bool
  vbak : Bool
deriving DecidableEq, Repr

/-- A pass record (R2). -/
structure PassRec where
  first : Nat
  last : Nat
  target : Nat
  drop : Nat
  profile : Nat
deriving DecidableEq, Repr

/-- The payload of ORDER_POST (R4, R192); `pass2` is present when the payload has the two-pass length. -/
structure PostFields where
  orderTag : Nat
  hoist : Nat
  mass : Nat
  passCount : Nat
  pass1 : PassRec
  pass2 : Option PassRec
deriving DecidableEq, Repr

/-- The fields of PROFILE_WRITE after the index (R19, R20); `clean` is the yes/no byte. -/
structure ProfileFields where
  entrySpeed : Nat
  dwell : Nat
  withdrawal : Nat
  drain : Nat
  shakes : Nat
  amplitude : Nat
  clean : Nat
deriving DecidableEq, Repr

/-- CYCLE_SETUP (R52): align timeout in s, abort speed in mm/s, abort drain time and overrun allowance in tenths. -/
structure CycleSet where
  alignTimeout : Nat
  abortSpeed : Nat
  abortDrain : Nat
  overrun : Nat
deriving DecidableEq, Repr

/-- KETTLE_SETUP (R85): depths in mm, skim limit in withdrawals, claim wait alert in s. -/
structure KettleSet where
  floor : Nat
  clearance : Nat
  skimLimit : Nat
  waitAlert : Nat
deriving DecidableEq, Repr

/-- The calibration of one load cell (R105). -/
structure Calibration where
  zero : Int
  scale : Nat
deriving DecidableEq, Repr

/-- The settings of WEIGH_SETUP that hold plain numbers (R123): samples, tenths of a kilogram, tenths of a
second (timeout), ms (age limit), tenths of a degree (bath band). -/
structure WeighLimits where
  window : Nat
  band : Nat
  timeout : Nat
  ageLimit : Nat
  contact : Nat
  snag : Nat
  slack : Nat
  bathLow : Nat
  bathHigh : Nat
deriving DecidableEq, Repr

/-- The payload of WEIGH_SETUP (R123): mode code, slot counts, followed hoist number, limits, calibration. -/
structure WeighFields where
  mode : Nat
  slots : Vector Nat 4
  followed : Nat
  limits : WeighLimits
  calib : Vector Calibration 4
deriving DecidableEq, Repr

/-- LEVEL_SETUP (R136): mm, tenths of a kilogram, tenths of a kilogram per mm, mm, s. -/
structure LevelSet where
  refDepth : Nat
  refInventory : Nat
  coefficient : Nat
  band : Nat
  ageLimit : Nat
deriving DecidableEq, Repr

/-- DRIVE_SETUP (R151): mm/s, mm, tenths of a second, mm/s. -/
structure DriveSet where
  homeSpeed : Nat
  travelLimit : Nat
  readyTimeout : Nat
  shakeSpeed : Nat
deriving DecidableEq, Repr

/-- The numeric settings of FEED_SETUP (R171): mm, mm, tenths of a kilogram, ingots, tenths, s, tenths. -/
structure FeedNumbers where
  threshold : Nat
  target : Nat
  ingotMass : Nat
  maximum : Nat
  timeout : Nat
  settle : Nat
  hold : Nat
deriving DecidableEq, Repr

/-- The payload of FEED_SETUP (R171): the two on/off bytes (log entry 79) and the numbers. -/
structure FeedFields where
  auto : Nat
  relay : Nat
  numbers : FeedNumbers
deriving DecidableEq, Repr

/-- The payload of BENCH_DRIVE (R153): hoist number, level bytes (log entry 79), step count, pulses a second, BEACON level
byte. -/
structure BenchFields where
  hoist : Nat
  dir : Nat
  brake : Nat
  permit : Nat
  steps : Nat
  rate : Nat
  beacon : Nat
deriving DecidableEq, Repr

/-- What FAULT_SETUP carries after the kind number, by its payload length 1, 3 or 5 (R183, R192). -/
inductive FaultSetupBody where
  | read
  | beaconMin (onTime : Nat)
  | settings (reaction delay flag : Nat)
deriving DecidableEq, Repr

/-- The commands. A request's first operand `tag` is the request tag of its frame (R189). -/
inductive Instr where
  /-- POWER_ON (R202): the supply comes up or RESET_N is released, with what the pins then show. -/
  | powerOn (pins : PowerOnPins)
  /-- POWER_LOSS (R81): VDD fails (`supply` true) or RESET_N is asserted (`supply` false). -/
  | powerLoss (supply : Bool)
  /-- CL_FRAME_REJECTED (R190, R191): the bytes received on CL_RX. -/
  | clFrameRejected (bytes : List Byte)
  /-- CL_FRAME_GAP (R190): the bytes received before a gap of more than 10 ms. -/
  | clFrameGap (bytes : List Byte)
  /-- TX_FRAME_END (R195). -/
  | txFrameEnd
  /-- IDENTIFY (R200). -/
  | identify (tag : Nat)
  /-- STATUS (R201). -/
  | status (tag : Nat)
  /-- RESTART (R203). -/
  | restart (tag : Nat)
  /-- NOTICE_SETUP (R197): the six enable bytes in the order of the classes' numbers, or the empty payload. -/
  | noticeSetup (tag : Nat) (enables : Option (Vector Nat 6))
  /-- INPUT_READ (R199). -/
  | inputRead (tag : Nat)
  /-- ORDER_POST (R4). -/
  | orderPost (tag : Nat) (post : PostFields)
  /-- ORDER_CANCEL (R11). -/
  | orderCancel (tag orderTag : Nat)
  /-- ORDER_QUERY (R17). -/
  | orderQuery (tag orderTag : Nat)
  /-- QUEUE_LIST (R18). -/
  | queueList (tag : Nat)
  /-- PROFILE_WRITE (R20). -/
  | profileWrite (tag index : Nat) (fields : ProfileFields)
  /-- PROFILE_READ (R21). -/
  | profileRead (tag index : Nat)
  /-- HOIST_STATUS (R53). -/
  | hoistStatus (tag hoist : Nat)
  /-- HOIST_RUN (R51). -/
  | hoistRun (tag hoist : Nat)
  /-- HOIST_STOP (R51). -/
  | hoistStop (tag hoist : Nat)
  /-- HOIST_HOLD (R41). -/
  | hoistHold (tag hoist : Nat)
  /-- HOIST_RESUME (R44). -/
  | hoistResume (tag hoist : Nat)
  /-- HOIST_ABORT (R45). -/
  | hoistAbort (tag hoist : Nat)
  /-- REHANG_DONE, the host's request (R37). -/
  | rehangDone (tag hoist : Nat)
  /-- CYCLE_SETUP (R52). -/
  | cycleSetup (tag : Nat) (set : Option CycleSet)
  /-- BOOK_OPEN (R73): the opening inventory in tenths of a kilogram. -/
  | bookOpen (tag inventory : Nat)
  /-- BOOK_POST (R74): kind code, mass in tenths of a kilogram, note code. -/
  | bookPost (tag kind : Nat) (mass : Int) (note : Nat)
  /-- BOOK_READ (R75). -/
  | bookRead (tag seq : Nat)
  /-- BOOK_TRIM (R76). -/
  | bookTrim (tag seq : Nat)
  /-- BOOK_SUMMARY (R78). -/
  | bookSummary (tag : Nat)
  /-- KETTLE_SETUP (R86). -/
  | kettleSetup (tag : Nat) (set : Option KettleSet)
  /-- SKIM_DONE (R99). -/
  | skimDone (tag first last : Nat)
  /-- ZONE_STATUS (R100). -/
  | zoneStatus (tag : Nat)
  /-- WEIGH_NOW (R117). -/
  | weighNow (tag hoist : Nat)
  /-- WEIGH_READ (R118). -/
  | weighRead (tag : Nat)
  /-- WEIGH_SETUP (R123). -/
  | weighSetup (tag : Nat) (set : Option WeighFields)
  /-- LEVEL_SETUP (R136). -/
  | levelSetup (tag : Nat) (set : Option LevelSet)
  /-- LEVEL_READ (R137): no field, or a hoist number. -/
  | levelRead (tag : Nat) (hoist : Option Nat)
  /-- DRIVE_SETUP (R151). -/
  | driveSetup (tag : Nat) (set : Option DriveSet)
  /-- BENCH_ENTER (R152). -/
  | benchEnter (tag : Nat)
  /-- BENCH_DRIVE (R153). -/
  | benchDrive (tag : Nat) (fields : BenchFields)
  /-- BENCH_NOTICES (R154). -/
  | benchNotices (tag : Nat)
  /-- BENCH_EXIT (R155). -/
  | benchExit (tag : Nat)
  /-- FEED (R161): the count of ingots. -/
  | feed (tag count : Nat)
  /-- FEEDER_RELAY (R169): the feeder frame's kind and payload. -/
  | feederRelay (tag kind : Nat) (payload : List Byte)
  /-- FEED_SETUP (R171). -/
  | feedSetup (tag : Nat) (set : Option FeedFields)
  /-- FEED_READ (R172). -/
  | feedRead (tag : Nat)
  /-- FAULT_ACK (R182): the kind number. -/
  | faultAck (tag kind : Nat)
  /-- FAULT_SETUP (R183). -/
  | faultSetup (tag kind : Nat) (body : FaultSetupBody)
  /-- FAULT_LIST (R186): no field, or the kind number from which the entries are listed. -/
  | faultList (tag : Nat) (kind : Option Nat)
  /-- READY_CHANGE (R145): the station's READY input is now at `level`. -/
  | readyChange (h : Hoist) (level : Bool)
  /-- DRIVE_FAULT_CHANGE (R146). -/
  | driveFaultChange (h : Hoist) (level : Bool)
  /-- TOP_CHANGE (R147). -/
  | topChange (h : Hoist) (level : Bool)
  /-- ALIGNED_CHANGE (R28, R38). -/
  | alignedChange (h : Hoist) (level : Bool)
  /-- AREA_CLEAR_CHANGE (R38). -/
  | areaClearChange (h : Hoist) (level : Bool)
  /-- REHANG_INPUT_CHANGE (R37). -/
  | rehangInputChange (h : Hoist) (level : Bool)
  /-- DRIVE_POWER_CHANGE (R140, R176). -/
  | drivePowerChange (level : Bool)
  /-- STEP_PULSE (R143): the station's pulse timer issues a pulse. -/
  | stepPulse (h : Hoist)
  /-- READY_TIMEOUT (R145): the station's ready-wait timer reaches zero. -/
  | readyTimeout (h : Hoist)
  /-- MOTION_REACHED (R144): the dip context takes its oldest motion report, a reached one. -/
  | motionReached (h : Hoist)
  /-- MOTION_FAILED (R40): the dip context takes its oldest motion report, a failed one. -/
  | motionFailed (h : Hoist)
  /-- CLAIM_GRANT (R93): the dip context takes the oldest grant handed to it. -/
  | claimGrant (h : Hoist)
  /-- ALIGN_TIMEOUT (R29). -/
  | alignTimeout (h : Hoist)
  /-- DWELL_TIMER_EXPIRY (R33). -/
  | dwellTimerExpiry (h : Hoist)
  /-- DRAIN_TIMER_EXPIRY (R35). -/
  | drainTimerExpiry (h : Hoist)
  /-- DWELL_OVERRUN (R43): the immersion clock of the held pass passes dwell plus allowance. -/
  | dwellOverrun (h : Hoist)
  /-- SAMPLE_PERIOD_END (R104, R106): the count read, or none when no conversion was ready. -/
  | samplePeriodEnd (count : Option Int)
  /-- WEIGH_TIMER_EXPIRY (R114). -/
  | weighTimerExpiry
  /-- WEIGH_RESULT (R30, R35): the dip context takes the oldest weigh result handed to it. -/
  | weighResult (h : Hoist)
  /-- CAPTURE_ARRIVAL (R127): the Level Unit takes the oldest message of the hoist's dip context, a capture. -/
  | captureArrival (h : Hoist)
  /-- HOIST_VIEW_REPORT (R129): the Level Unit takes the oldest message of the hoist's dip context, a state report. -/
  | hoistViewReport (h : Hoist)
  /-- CAPTURE_PROCESS_STEP (R130). -/
  | captureProcessStep
  /-- AUTO_FEED_REQUEST (R161): the oldest auto-feed request arrives at the Feeder Line. -/
  | autoFeedRequest
  /-- DISPENSE_SENT (R162). -/
  | dispenseSent
  /-- RELAY_FRAME_SENT (R170). -/
  | relayFrameSent
  /-- FEEDER_FRAME_DISCARDED (R159): the bytes received on FD_RX. -/
  | feederFrameDiscarded (bytes : List Byte)
  /-- FEEDER_FRAME_GAP (R159): the bytes received before a gap of more than 10 ms. -/
  | feederFrameGap (bytes : List Byte)
  /-- ACCEPT (R163), with its payload. -/
  | accept (payload : List Byte)
  /-- DECLINE (R163), with its payload. -/
  | decline (payload : List Byte)
  /-- DROP (R164), with its payload. -/
  | drop (payload : List Byte)
  /-- DONE (R165), with its payload. -/
  | done (payload : List Byte)
  /-- FEEDER_OTHER_FRAME (R168): the frame's kind and payload. -/
  | feederOtherFrame (kind : Nat) (payload : List Byte)
  /-- FEEDER_TIMER_EXPIRY (R167). -/
  | feederTimerExpiry
  /-- SETTLE_TIMER_EXPIRY (R166). -/
  | settleTimerExpiry
  /-- RELAY_HOLD_EXPIRY (R170). -/
  | relayHoldExpiry
  /-- ALARM_TIMER_EXPIRY (R180): the alarm timer of the entry of fault kind number `kind.val + 1`. -/
  | alarmTimerExpiry (kind : Fin 14)
  /-- BEACON_TIMER_EXPIRY (R185). -/
  | beaconTimerExpiry
  /-- CLAIM_WAIT_ALERT (R96): for the waiting claim of the hoist. -/
  | claimWaitAlert (h : Hoist)
  /-- RUNTIME_TICK (R80). -/
  | runtimeTick
  /-- RETENTION_SUPPLY_LOSS (R81). -/
  | retentionSupplyLoss
deriving DecidableEq, Repr

end Sys2Proof
end

