-- ==== Sys2Proof/Decode.lean ====
section
/-! DEFINITION. The commands a word spells: the table gives no row any bits, so no word spells one. -/

namespace Sys2Proof

/-- The command a word of the table spells: none, since every row of the table is an event or a request without bits of
its own. -/
def decodeTableWord (_nbits _w : Nat) : Option Instr := none

end Sys2Proof
end

