-- ==== Sys2Proof/Config.lean ====
section
/-! DEFINITION. What the part fixes: the capacities, codes and limits the spec names.
The spec leaves no result of a command open, so no free value stands here. -/

namespace Sys2Proof.Config

/-- Capacity of the order table (R1). -/
def orderSlots : Nat := 24

/-- Capacity of the journal, entries and reservations together (R58, R64). -/
def journalSize : Nat := 256

/-- The sum of used and reserved entries at which the nearly-full mark is set (R79). -/
def nearlyFull : Nat := 224

/-- The largest 32-bit number: last sequence number, run-time counter, counts (R58, R63, R80). -/
def max32 : Nat := 4294967295

/-- Where the 16-bit counts and the reading ages stop (R104, R106, R159, R190). -/
def max16 : Nat := 65535

/-- Places of the reply queue (R194). -/
def replyPlaces : Nat := 4

/-- Largest payload of a frame on either line (R158, R189). -/
def maxPayload : Nat := 240

/-- Bytes of a feeder frame's payload that fit into the deferred reply of a relay, after the result code, the kind and
the length (R170, R193; log entry 21). -/
def relayReplyMax : Nat := 237

/-- Start byte of a Command Link frame (R189). -/
def linkStart : Byte := 0xC3

/-- Start byte of a Feeder Line frame (R158). -/
def feederStart : Byte := 0xC5

/-- Kind of a notice frame (R192). -/
def noticeKind : Nat := 0xE0

/-- Vendor code, part code and revision of IDENTIFY (R200). -/
def vendorCode : Nat := 0x2A71
def partCode : Nat := 0x00D4
def revision : Nat := 0x01

/-- Largest hook position (R141). -/
def maxPosition : Nat := 8000

/-- Position at or above which TOP is believed (R147). -/
def topWindow : Nat := 20

/-- Captures a FIFO holds, and depths the estimate ring holds (R127, R132). -/
def fifoDepth : Nat := 4
def ringDepth : Nat := 4

/-- Samples of the requesting hoist between two interleaves (R112). -/
def interleaveEvery : Nat := 8

/-- Age in ms at which an interleave also visits the temperature (R112). -/
def interleaveTempAge : Nat := 1000

/-- Age in ms beyond which the temperature is stale (R122). -/
def staleAge : Nat := 5000

/-- Samples of the followed hoist between two temperature samples in FIXED (R108). -/
def fixedRun : Nat := 100

/-- Length of a sample period in ms (R104). -/
def periodMs : Nat := 10

/-- Limits at which a load is held (R105), in tenths of a kilogram. -/
def loadMin : Int := -2147483648
def loadMax : Int := 2147483647

/-- Where the occurrence count of a fault entry stops (R179). -/
def maxOccurrences : Nat := 255

/-- Where the withdrawal count of a zone stops (R87). -/
def maxWithdrawals : Nat := 255

/-- MODEL'S OWN (log entry 14): how many reports and take attempts one step acts on at most. -/
def agendaBound : Nat := 200

end Sys2Proof.Config
end

