-- ==== Sys2Proof/Machine/State.lean ====
section
/-! DEFINITION. What the machine holds: every piece of state the spec gives the part, as plain data, the queue of
waiting commands, and the machine right after reset. Each record cites the rule that names it. -/

namespace Sys2Proof.Machine

/-- MODEL'S OWN: no rule of the spec stops the part, so no fault is ever raised. -/
inductive Fault where
deriving DecidableEq, Repr

/-- Refusals of the model. Safe: a refusal stops a run and proves nothing about the part. -/
inductive Refusal where
  /-- Raised by an arm of `exec` whose command has no meaning yet; no arm is left so. Safe. -/
  | notModelled (mnemonic : String)
deriving DecidableEq, Repr

/-! ### Enumerations -/

/-- Power condition (R81, R202): running, RESET_N asserted with the supply up, no supply. -/
inductive Power where
  | running | inReset | unpowered
deriving DecidableEq, Repr

/-- The thirteen dip context states, in the order of the table of R25. -/
inductive DipState where
  | parked | staged | aligning | weighIn | lowering | dwell | lifting | drain | weighOut | rehang | held
  | abortLift | recal
deriving DecidableEq, Repr

/-- Pass 1 or pass 2 of an order (R1). -/
inductive Pass where
  | one | two
deriving DecidableEq, Repr

/-- Order states (R3). -/
inductive OrderState where
  | queued | active | rehang
deriving DecidableEq, Repr

/-- Outcomes of a closed order (R3). -/
inductive Closing where
  | done | partialDone | aborted | cancelled | interrupted
deriving DecidableEq, Repr

/-- Close reasons (R24). -/
inductive CloseReason where
  | request | fault | alignTimeout | weighInFailed | recal | power
deriving DecidableEq, Repr

/-- The immersion clock is not started, running or stopped (R24). -/
inductive ClockRun where
  | notStarted | running | stopped
deriving DecidableEq, Repr

/-- The dip context's own weigh request (R28, R110): none, waiting for the place, or placed. -/
inductive Asked where
  | none | unplaced | placed
deriving DecidableEq, Repr

/-- Journal entry kinds (R59). -/
inductive EntryKind where
  | opening | pickup | addition | dross | ash | correction
deriving DecidableEq, Repr

/-- Weigh modes (R123). -/
inductive WeighMode where
  | scan | fixed
deriving DecidableEq, Repr

/-- What the last evaluation of BATH_TEMP found (R122). -/
inductive BathCond where
  | outOfBand | stale | absent
deriving DecidableEq, Repr

/-- Outcomes of a processed capture (R130). -/
inductive CaptureOutcome where
  | accepted | displaced | aged
deriving DecidableEq, Repr

/-- Feed states (R160). -/
inductive FeedState where
  | idle | requested | feeding | settle
deriving DecidableEq, Repr

/-- Who asked for a feed (R160). -/
inductive FeedSource where
  | host | auto
deriving DecidableEq, Repr

/-- Last outcome of the Feeder Line (R160); DECLINED carries its reason byte. -/
inductive FeedOutcome where
  | done | declined (reason : Nat) | noAnswer | unconfirmed | interrupted
deriving DecidableEq, Repr

/-- The fourteen fault kinds, in the order of their numbers (R175). -/
inductive FaultKind where
  | driveFault | positionError | snag | loadLost | scanStarved | weighUnstable | dwellOverrun | areaBreach
  | alignLost | drivePowerLoss | bathTemp | feederSilent | levelMismatch | retainedLost
deriving DecidableEq, Repr

/-- The reaction ladder (R177). -/
inductive Reaction where
  | record | notify | inhibit | hold | abort | stopAll
deriving DecidableEq, Repr

/-- States of a fault entry (R179). -/
inductive EntryState where
  | clear | alarm | active
deriving DecidableEq, Repr

/-- Notice classes, highest priority first (R195, R196). -/
inductive NoticeClass where
  | fault | hoist | zone | book | feeder | input
deriving DecidableEq, Repr

/-- Result codes, in the order in which they are numbered (R192). -/
inductive Result where
  | ok | unknownKind | badLength | badValue | busy | notInstalled | duplicateTag | queueFull | noSuchOrder | tooLate
  | wrongState | bookClosed | bookFull | stillPresent | zoneHeld | relayRefused | notPermitted | timeout
deriving DecidableEq, Repr

/-- Why a motion failed (R144). -/
inductive FailCause where
  | driveFault | readyTimeout | positionError
deriving DecidableEq, Repr

/-- How a bench burst ended (R141). -/
inductive BurstEnd where
  | done | stoppedTop | readyTimeout | driveFault | replaced
deriving DecidableEq, Repr

/-! ### The retained area (R81) -/

/-- One profile (R19). -/
structure Profile where
  defined : Bool
  entrySpeed : Nat
  dwell : Nat
  withdrawal : Nat
  drain : Nat
  shakes : Nat
  amplitude : Nat
  clean : Bool
deriving DecidableEq, Repr

/-- The set of flags an entry may carry (R60). -/
structure EntryFlags where
  aborted : Bool
  unweighed : Bool
  noContact : Bool
  captureMissed : Bool
  overdwell : Bool
  massDisagree : Bool
  negative : Bool
  recalExit : Bool
  interrupted : Bool
  countDisagree : Bool
  unconfirmed : Bool
deriving DecidableEq, Repr

/-- One journal entry (R59); `final` is the status FINAL. -/
structure Entry where
  seq : Nat
  kind : EntryKind
  final : Bool
  written : Nat
  finalised : Option Nat
  amount : Int
  orderTag : Option Nat
  hoist : Option Hoist
  pass : Option Pass
  span : Option (Nat × Nat)
  weighIn : Option Int
  weighOut : Option Int
  dwell : Option Nat
  immersion : Option Nat
  surface : Option Nat
  ingots : Option Nat
  feederTotal : Option Nat
  flags : EntryFlags
  note : Option Nat
deriving DecidableEq, Repr

/-- Count and amount sum of one entry kind (R63). -/
structure KindTotal where
  count : Nat
  sum : Int
deriving DecidableEq, Repr

/-- Retained part of a zone record (R87). -/
structure Surface where
  ashed : Bool
  withdrawals : Nat
deriving DecidableEq, Repr

/-- WEIGH_SETUP in force (R123). -/
structure WeighSet where
  mode : WeighMode
  slots : Vector Nat 4
  followed : Hoist
  limits : WeighLimits
  calib : Vector Calibration 4
deriving DecidableEq, Repr

/-- FEED_SETUP in force (R171). -/
structure FeedSet where
  auto : Bool
  relay : Bool
  numbers : FeedNumbers
deriving DecidableEq, Repr

/-- FAULT_SETUP of one kind (R179). -/
structure FaultSet where
  reaction : Reaction
  delay : Nat
  beacon : Bool
deriving DecidableEq, Repr

/-- The retained area (R81). -/
structure Retained where
  bookOpen : Bool
  journal : List Entry
  base : Int
  inventory : Int
  totals : Vector KindTotal 6
  nextSeq : Nat
  seqSpent : Bool
  runtime : Nat
  profiles : Vector Profile 16
  surfaces : Vector Surface 12
  kettle : KettleSet
  cycle : CycleSet
  drive : DriveSet
  weigh : WeighSet
  level : LevelSet
  feed : FeedSet
  faults : Vector FaultSet 14
  beaconMin : Nat
  notices : Vector Bool 6
deriving DecidableEq, Repr

/-! ### Command Link -/

/-- One field of a reply or notice: its width in bytes and its value (R193). -/
abbrev Field := Nat × Int

/-- A reply: the kind of the reply frame, the request's tag, the result and the fields after it (R191, R193). -/
structure Reply where
  kind : Nat
  tag : Nat
  result : Result
  fields : List Field
deriving DecidableEq, Repr

/-- A frame on CL_TX (R195, R196). -/
inductive TxFrame where
  | reply (r : Reply)
  | notice (c : NoticeClass) (fields : List Field)
deriving DecidableEq, Repr

/-- State of the Command Link (R190, R191, R194 to R200). -/
structure Link where
  rx : List Byte
  replies : List Reply
  held : Bool
  tx : Option TxFrame
  marks : Vector Bool 6
  latches : Vector StationInputs 4
  powerLatch : Bool
  straps : Straps
  overLength : Nat
  gaps : Nat
  badChecks : Nat
  queueFull : Nat
  coldStart : Bool
deriving DecidableEq, Repr

/-! ### Orders and dip contexts -/

/-- One order of the order table (R1). -/
structure Order where
  slot : Nat
  tag : Nat
  hoist : Hoist
  mass : Nat
  pass1 : PassRec
  pass2 : Option PassRec
  state : OrderState
  pass : Option Pass
  closePending : Bool
  posted : Nat
deriving DecidableEq, Repr

/-- The order a dip context runs (R24). -/
structure OrderRef where
  slot : Nat
  tag : Nat
deriving DecidableEq, Repr

/-- Latched pass parameters (R24, R30). -/
structure Latched where
  profile : Profile
  drainPos : Nat
  overrun : Nat
deriving DecidableEq, Repr

/-- Immersion clock (R24), in tenths. -/
structure Clock where
  run : ClockRun
  tenths : Nat
deriving DecidableEq, Repr

/-- Last closed order (R24). -/
structure Closed where
  tag : Nat
  closing : Closing
  reason : Option CloseReason
deriving DecidableEq, Repr

/-- A dip context (R24). Timers are in tenths (log entry 8); a timer that is not present is none. -/
structure DipCtx where
  state : DipState
  heldFrom : Option DipState
  ret : Option DipState
  order : Option OrderRef
  pass : Option Pass
  latched : Option Latched
  weighIn : Option Int
  entered : Bool
  contact : Bool
  clock : Clock
  alignT : Option Nat
  dwellT : Option Nat
  drainT : Option Nat
  drainExpired : Bool
  shakeDone : Bool
  flags : EntryFlags
  overrunRaised : Bool
  closeReason : Option CloseReason
  rehangKept : Bool
  runEnable : Bool
  last : Option Closed
  /-- The sequence number of the pass's PICKUP entry, kept to finalise it (R68). -/
  entrySeq : Option Nat
  /-- Reservations the order holds at the book (R64). -/
  resv : Nat
  /-- Serial number of its own outstanding claim (R91, R93; log entry 12). -/
  claim : Option Nat
  /-- Its own weigh request (R28, R110). -/
  asked : Asked
  /-- Snag, load-lost and starved marks (R119, R120, R121). -/
  snag : Bool
  lost : Bool
  starved : Bool
  /-- A return motion to the drain position is under way in DRAIN (R44, R45). -/
  returning : Bool
  /-- An abort was taken during the present RECAL with return state DRAIN (R45). -/
  recalAbort : Bool
deriving DecidableEq, Repr

/-! ### Hoist drives -/

/-- What a motion does (R142). In a SHAKE, `down` tells the stroke under way and `target` where it ends. -/
inductive MotionKind where
  | move (target : Nat)
  | recal (limit : Nat)
  | shake (cyclesLeft amplitude : Nat) (down : Bool) (target : Nat)
deriving DecidableEq, Repr

/-- A motion in progress (R141). -/
structure Motion where
  kind : MotionKind
  rate : Nat
deriving DecidableEq, Repr

/-- A bench burst in progress (R141, R153). -/
structure Burst where
  left : Nat
  rate : Nat
  issued : Nat
deriving DecidableEq, Repr

/-- A Hoist Drive Interface (R141) with its station's output levels (R140). -/
structure DriveIf where
  count : Nat
  known : Bool
  motion : Option Motion
  readyT : Option Nat
  travel : Nat
  benchStepped : Bool
  burst : Option Burst
  lastBurst : Option (BurstEnd × Nat)
  /-- STEP: low at rest and between two pulses (log entry 22). -/
  step : Bool
  dir : Bool
  brakeRel : Bool
  permit : Bool
deriving DecidableEq, Repr

/-! ### Zone Arbiter -/

/-- A claim (R89), with its serial number (log entry 12). -/
structure Claim where
  hoist : Hoist
  tag : Nat
  pass : Pass
  first : Nat
  last : Nat
  clean : Bool
  arrival : Nat
  alerted : Bool
  serial : Nat
deriving DecidableEq, Repr

/-! ### Weighing Unit -/

/-- One converter channel (R104, R106); the age is in ms. -/
structure Chan where
  value : Option Int
  raw : Option Int
  age : Nat
  missed : Nat
deriving DecidableEq, Repr

/-- Source of a weigh request (R110): HOST (`none`) or DC with its order tag and pass. -/
structure WeighReq where
  hoist : Hoist
  dc : Option (Nat × Pass)
deriving DecidableEq, Repr

/-- The weighing in service (R111, R112). `judged` is the size and spread of the last window judged. -/
structure Service where
  req : WeighReq
  window : List Int
  since : Nat
  visits : List Channel
  timer : Nat
  judged : Option (Nat × Nat)
deriving DecidableEq, Repr

/-- Scan position (R109); `want` is the length of the slot in progress (log entry 36). -/
structure ScanPos where
  mode : WeighMode
  chan : Channel
  got : Nat
  want : Nat
deriving DecidableEq, Repr

/-- The weigh-result record (R118); `value` is present where the outcome is OK. -/
structure HostResult where
  hoist : Hoist
  value : Option Int
  samples : Nat
  spread : Option Nat
  ended : Nat
deriving DecidableEq, Repr

/-- The Weighing Unit. `chan` is the channel of the period under way, `settled` the channel whose switch period is
over (R104), `forService` whether the period under way was chosen for a weighing. -/
structure WeighUnit where
  chans : Vector Chan 5
  chan : Channel
  settled : Option Channel
  forService : Bool
  scan : ScanPos
  fresh : Bool
  service : Option Service
  queue : List WeighReq
  waiting : Vector Bool 4
  record : Option HostResult
  bath : Option BathCond
deriving DecidableEq, Repr

/-! ### Level Unit -/

/-- What the Level Unit knows of one dip context (R129). -/
structure HoistView where
  state : DipState
  heldFrom : Option DipState
  contact : Bool
  recalLoad : Bool
deriving DecidableEq, Repr

/-- A capture (R126). -/
structure Capture where
  hoist : Hoist
  tag : Nat
  pass : Pass
  position : Nat
  drop : Nat
  depth : Nat
  time : Nat
  displaced : Bool
deriving DecidableEq, Repr

/-- The last processed capture (R130). -/
structure Processed where
  hoist : Hoist
  tag : Nat
  pass : Pass
  time : Nat
  outcome : CaptureOutcome
deriving DecidableEq, Repr

/-- The Level Unit. `lastCheck` is the predicted depth and the difference (R133), `lastAuto` count and time (R134). -/
structure LevelUnit where
  views : Vector HoistView 4
  fifos : Vector (List Capture) 4
  ring : List Nat
  lastCheck : Option (Int × Int)
  frozen : Bool
  lastFreeze : Option Nat
  lastUnfreeze : Option Nat
  lastProcessed : Option Processed
  lastAuto : Option (Nat × Nat)
deriving DecidableEq, Repr

/-! ### Feeder Line -/

/-- A relay outstanding (R160, R170). -/
structure Relay where
  tag : Nat
  hold : Option Nat
deriving DecidableEq, Repr

/-- The last outcome of the Feeder Line with what it carries (R160). -/
structure FeedRecord where
  outcome : FeedOutcome
  asked : Nat
  booked : Nat
  total : Option Nat
deriving DecidableEq, Repr

/-- A frame the part sends on FD_TX (R159, R170). -/
inductive FeederTx where
  | dispense (count : Nat)
  | relayed (kind : Nat) (payload : List Byte)
deriving DecidableEq, Repr

/-- The Feeder Line (R160). The settle timer is in tenths (log entry 8). -/
structure FeederLine where
  state : FeedState
  source : Option FeedSource
  asked : Option Nat
  entry : Option Nat
  mass : Option Nat
  count : Option Nat
  timer : Option Nat
  settleT : Option Nat
  relay : Option Relay
  last : Option FeedRecord
  lineErrors : Nat
  malformed : Nat
  unexpected : Nat
  resv : Nat
  rx : List Byte
  tx : List FeederTx
deriving DecidableEq, Repr

/-! ### Fault Collector -/

/-- A fault entry (R179); its settings are in the retained area. The alarm timer is in tenths (log entry 8). -/
structure FaultEntry where
  state : EntryState
  involved : Vector Bool 4
  firstTime : Option Nat
  lastTime : Option Nat
  count : Option Nat
  alarmT : Option Nat
  present : Vector Bool 4
  presentLine : Bool
deriving DecidableEq, Repr

/-! ### Messages in transit between blocks (log entry 10) -/

/-- A grant handed to a dip context (R93). -/
structure Grant where
  tag : Nat
  pass : Pass
  serial : Nat
deriving DecidableEq, Repr

/-- Which of the three motions a report is about (R142, R144). -/
inductive Moved where
  | move | recal | shake
deriving DecidableEq, Repr

/-- A motion report (R144): reached (`cause` none) or failed. -/
structure MotionReport where
  moved : Moved
  cause : Option FailCause
deriving DecidableEq, Repr

/-- A weigh result handed to a dip context (R113 to R115): OK with its value, or UNSTABLE (none); the number of samples
judged, and their spread where a window was judged. -/
structure WeighAnswer where
  tag : Nat
  pass : Pass
  value : Option Int
  samples : Nat
  spread : Option Nat
deriving DecidableEq, Repr

/-- A message of a dip context to the Level Unit (R126, R129). -/
inductive LevelMsg where
  | view (v : HoistView)
  | capture (c : Capture)
deriving DecidableEq, Repr

/-- What is in transit to or from one dip context. -/
structure Mail where
  grants : List Grant
  motions : List MotionReport
  results : List WeighAnswer
  level : List LevelMsg
deriving DecidableEq, Repr

/-! ### Work left inside a step (log entry 13) -/

/-- A report to the Fault Collector (R176): an occurrence, or the value of a condition; line-wide without a hoist. -/
inductive FaultReport where
  | occur (k : FaultKind) (h : Option Hoist)
  | cond (k : FaultKind) (h : Option Hoist) (present : Bool)
deriving DecidableEq, Repr

/-- What follows an event of R9 or the end of the INHIBIT (R177). -/
inductive Follow where
  | take (h : Hoist)
  | rehang (h : Hoist)
deriving DecidableEq, Repr

/-- Reports and attempts made within a step and not yet acted on. -/
structure Agenda where
  reports : List FaultReport
  follow : List Follow
deriving DecidableEq, Repr

/-! ### The machine -/

structure State where
  power : Power
  /-- VBAK holds its supply (R81). -/
  vbak : Bool
  checkGood : Bool
  kept : Retained
  link : Link
  inputs : Vector StationInputs 4
  drivePower : Bool
  orders : List Order
  ctxs : Vector DipCtx 4
  drives : Vector DriveIf 4
  bench : Bool
  benchBeacon : Bool
  holders : Vector (Option Hoist) 12
  waits : List Claim
  nextSerial : Nat
  wu : WeighUnit
  lu : LevelUnit
  reserved : Nat
  nearlyFull : Bool
  tenths : Nat
  feeder : FeederLine
  entries : Vector FaultEntry 14
  beaconT : Option Nat
  mail : Vector Mail 4
  autoRequests : List Nat
  agenda : Agenda
  pending : List Instr
deriving DecidableEq, Repr

/-! ### Values after a reset -/

def EntryFlags.empty : EntryFlags :=
  { aborted := false, unweighed := false, noContact := false, captureMissed := false, overdwell := false,
    massDisagree := false, negative := false, recalExit := false, interrupted := false, countDisagree := false,
    unconfirmed := false }

/-- Every level absent, every latch clear (R198; log entry 6). -/
def absentInputs : StationInputs :=
  { ready := false, driveFault := false, top := false, aligned := false, areaClear := false, rehang := false }

/-- P0 after a cold start (R19). -/
def Profile.cold : Profile :=
  { defined := true, entrySpeed := 60, dwell := 1200, withdrawal := 20, drain := 300, shakes := 2, amplitude := 50,
    clean := false }

/-- FAULT_SETUP after a cold start (R175). -/
def FaultSet.coldTable : Vector FaultSet 14 := #v[
  ⟨.hold, 0, true⟩, ⟨.hold, 0, true⟩, ⟨.hold, 0, true⟩, ⟨.hold, 0, true⟩, ⟨.hold, 0, false⟩,
  ⟨.notify, 0, false⟩, ⟨.notify, 0, true⟩, ⟨.hold, 0, true⟩, ⟨.abort, 0, true⟩, ⟨.stopAll, 0, true⟩,
  ⟨.inhibit, 0, false⟩, ⟨.notify, 0, false⟩, ⟨.notify, 0, false⟩, ⟨.notify, 0, false⟩]

/-- The retained area after a cold start (R19, R52, R83, R85, R102, R123, R136, R151, R171, R175, R183, R197). -/
def Retained.cold : Retained :=
  { bookOpen := false, journal := [], base := 0, inventory := 0, totals := Vector.replicate 6 ⟨0, 0⟩,
    nextSeq := 1, seqSpent := false, runtime := 0,
    profiles := (Vector.replicate 16 { Profile.cold with defined := false }).set 0 Profile.cold,
    surfaces := Vector.replicate 12 ⟨false, 0⟩,
    kettle := { floor := 3200, clearance := 900, skimLimit := 6, waitAlert := 300 },
    cycle := { alignTimeout := 120, abortSpeed := 150, abortDrain := 100, overrun := 300 },
    drive := { homeSpeed := 100, travelLimit := 8000, readyTimeout := 20, shakeSpeed := 200 },
    weigh :=
      { mode := .scan, slots := Vector.replicate 4 4, followed := 0,
        limits := { window := 16, band := 50, timeout := 200, ageLimit := 400, contact := 200, snag := 1000,
                    slack := 500, bathLow := 4400, bathHigh := 4650 },
        calib := Vector.replicate 4 ⟨0, 65536⟩ },
    level := { refDepth := 1300, refInventory := 4800000, coefficient := 1660, band := 60, ageLimit := 120 },
    feed :=
      { auto := false, relay := true,
        numbers := { threshold := 1340, target := 1300, ingotMass := 250, maximum := 20, timeout := 100,
                     settle := 600, hold := 20 } },
    faults := FaultSet.coldTable, beaconMin := 50,
    notices := #v[true, true, true, true, true, false] }

/-- A dip context after power-on (R54). -/
def DipCtx.parked : DipCtx :=
  { state := .parked, heldFrom := none, ret := none, order := none, pass := none, latched := none, weighIn := none,
    entered := false, contact := false, clock := ⟨.notStarted, 0⟩, alignT := none, dwellT := none, drainT := none,
    drainExpired := false, shakeDone := false, flags := EntryFlags.empty, overrunRaised := false, closeReason := none,
    rehangKept := false, runEnable := false, last := none, entrySeq := none, resv := 0, claim := none, asked := .none,
    snag := false, lost := false, starved := false, returning := false, recalAbort := false }

/-- A Hoist Drive Interface after power-on (R156), TRAVEL_PERMIT as given (R150). -/
def DriveIf.powerOn (permit : Bool) : DriveIf :=
  { count := 0, known := false, motion := none, readyT := none, travel := 0, benchStepped := false, burst := none,
    lastBurst := none, step := false, dir := false, brakeRel := false, permit := permit }

/-- The hoist view of a parked dip context (R138). -/
def HoistView.parked : HoistView := { state := .parked, heldFrom := none, contact := false, recalLoad := false }

/-- The Level Unit after any reset (R138). -/
def LevelUnit.start : LevelUnit :=
  { views := Vector.replicate 4 HoistView.parked, fifos := Vector.replicate 4 [], ring := [], lastCheck := none,
    frozen := false, lastFreeze := none, lastUnfreeze := none, lastProcessed := none, lastAuto := none }

/-- The Weighing Unit after power-on (R124), its first period selecting the channel of `pos`. -/
def WeighUnit.start (pos : ScanPos) : WeighUnit :=
  { chans := Vector.replicate 5 { value := none, raw := none, age := 0, missed := 0 }, chan := pos.chan, settled := none,
    forService := false, scan := pos, fresh := false, service := none, queue := [], waiting := Vector.replicate 4 false,
    record := none, bath := none }

/-- The Feeder Line after power-on (R173). -/
def FeederLine.start : FeederLine :=
  { state := .idle, source := none, asked := none, entry := none, mass := none, count := none, timer := none,
    settleT := none, relay := none, last := none, lineErrors := 0, malformed := 0, unexpected := 0, resv := 0, rx := [],
    tx := [] }

/-- A CLEAR fault entry with no condition reported (R179, R187). -/
def FaultEntry.start : FaultEntry :=
  { state := .clear, involved := Vector.replicate 4 false, firstTime := none, lastTime := none, count := none,
    alarmT := none, present := Vector.replicate 4 false, presentLine := false }

def Mail.empty : Mail := { grants := [], motions := [], results := [], level := [] }

def Agenda.empty : Agenda := { reports := [], follow := [] }

/-- The Command Link after power-on (R202). -/
def Link.start (straps : Straps) (coldStart : Bool) : Link :=
  { rx := [], replies := [], held := false, tx := none, marks := Vector.replicate 6 false,
    latches := Vector.replicate 4 absentInputs, powerLatch := false, straps := straps, overLength := 0, gaps := 0,
    badChecks := 0, queueFull := 0, coldStart := coldStart }

/-- The straps of State.reset (DESIGN CHOICE, log entry 6): 19200 baud, four hoists, no bench mode. -/
def Straps.reset : Straps := { baud := 0, hoists := 3, benchPermit := false }

/-- The entry of RETAINED_LOST after a cold start: latched and ACTIVE at run time 0 (R83, R179, R187). -/
def FaultEntry.retainedLost : FaultEntry :=
  { FaultEntry.start with state := .active, firstTime := some 0, lastTime := some 0, count := some 1 }

/-- The machine right after reset: the end of a cold-start power-on (R83, R202) with the pins of log entry 6.
RETAINED_LOST is ACTIVE, and the FAULT notice that reports it is the first frame on CL_TX (R202). -/
def State.reset : State :=
  { power := .running, vbak := true, checkGood := true, kept := Retained.cold,
    link := { Link.start Straps.reset true with tx := some (.notice .fault [(1, 1), (1, 14), (1, 2)]) },
    inputs := Vector.replicate 4 absentInputs, drivePower := true, orders := [],
    ctxs := Vector.replicate 4 DipCtx.parked, drives := Vector.replicate 4 (DriveIf.powerOn true), bench := false,
    benchBeacon := false, holders := Vector.replicate 12 none, waits := [], nextSerial := 0,
    wu := WeighUnit.start { mode := .scan, chan := 0, got := 0, want := 4 }, lu := LevelUnit.start, reserved := 0,
    nearlyFull := false, tenths := 0, feeder := FeederLine.start,
    entries := (Vector.replicate 14 FaultEntry.start).set 13 FaultEntry.retainedLost, beaconT := none,
    mail := Vector.replicate 4 Mail.empty, autoRequests := [], agenda := Agenda.empty, pending := [] }

end Sys2Proof.Machine
end

