-- ==== Sys2Proof/Machine/Operands.lean ====
section
/-! DEFINITION. Reading operands: hoist, zone and kind numbers, yes/no bytes, the ranges of every setup record,
and the codes under which enumerations are sent (R192, R193). -/

namespace Sys2Proof.Machine

/-! ### Numbers -/

/-- A field lies within its range, both ends included. -/
def within (n lo hi : Nat) : Bool := decide (lo ≤ n ∧ n ≤ hi)

/-- A signed field lies within its range. -/
def withinInt (n lo hi : Int) : Bool := decide (lo ≤ n ∧ n ≤ hi)

/-- A yes/no byte: 00h or 01h (R192). An on/off setting and a level are read so too, the model's choice (log entry 79). -/
def yesNo (n : Nat) : Bool := within n 0 1

/-- The value of a yes/no byte that passed `yesNo`: 01h is yes (R192), and likewise on and high (log entry 79). -/
def yes (n : Nat) : Bool := n == 1

/-- The four stations in ascending order. -/
def hoists : List Hoist := [0, 1, 2, 3]

/-- The five converter channels. -/
def channels : List Channel := [0, 1, 2, 3, 4]

/-- The twelve zones, Z1 first. -/
def zones : List (Fin 12) := [0, 1, 2, 3, 4, 5, 6, 7, 8, 9, 10, 11]

/-- Hoist number 1 to 4 of a station (00_scope, Numbering). -/
def hoistNo (h : Hoist) : Nat := h.val + 1

/-- Zone number 1 to 12 of a zone. -/
def zoneNo (z : Fin 12) : Nat := z.val + 1

/-- A station is installed when its number is at or below the installed count of the HOISTS straps (R200). -/
def State.installed (s : State) (h : Hoist) : Bool := decide (h.val ≤ s.link.straps.hoists.val)

/-- Installed stations in ascending order. -/
def State.installedHoists (s : State) : List Hoist := hoists.filter s.installed

/-- Hoist numbers 1 to 4 as a station, whatever is installed. -/
def hoistNumber? (n : Nat) : Option Hoist := if h : 1 ≤ n ∧ n ≤ 4 then some ⟨n - 1, by omega⟩ else none

/-- A request's hoist number: outside 1 to 4 or above the installed count there is no station (R4, R24, R117). -/
def State.hoist? (s : State) (n : Nat) : Option Hoist :=
  match hoistNumber? n with
  | some h => if s.installed h then some h else none
  | none => none

/-- A span of zones: 1 ≤ first ≤ last ≤ 12 (R2, R89, R99). -/
def spanOk (first last : Nat) : Bool := decide (1 ≤ first ∧ first ≤ last ∧ last ≤ 12)

/-- The zone lies in the span. -/
def inSpan (first last : Nat) (z : Fin 12) : Bool := decide (first ≤ zoneNo z ∧ zoneNo z ≤ last)

/-- Two spans share a zone (R89). -/
def spansMeet (a b c d : Nat) : Bool := decide (a ≤ d ∧ c ≤ b)

/-- Converter channel of a load cell (R104). -/
def loadChannel (h : Hoist) : Channel := h.castSucc

/-- Hoist of a load channel; channel 4 is the thermocouple. -/
def channelHoist? (c : Channel) : Option Hoist := if h : c.val < 4 then some ⟨c.val, h⟩ else none

/-- The temperature channel. -/
def tempChannel : Channel := 4

/-! ### Codes of enumerations (R193) -/

def DipState.code : DipState → Nat
  | .parked => 0 | .staged => 1 | .aligning => 2 | .weighIn => 3 | .lowering => 4 | .dwell => 5 | .lifting => 6
  | .drain => 7 | .weighOut => 8 | .rehang => 9 | .held => 10 | .abortLift => 11 | .recal => 12

def Pass.number : Pass → Nat
  | .one => 1 | .two => 2

def OrderState.code : OrderState → Nat
  | .queued => 0 | .active => 1 | .rehang => 2

def Closing.code : Closing → Nat
  | .done => 0 | .partialDone => 1 | .aborted => 2 | .cancelled => 3 | .interrupted => 4

def CloseReason.code : CloseReason → Nat
  | .request => 0 | .fault => 1 | .alignTimeout => 2 | .weighInFailed => 3 | .recal => 4 | .power => 5

def EntryKind.code : EntryKind → Nat
  | .opening => 0 | .pickup => 1 | .addition => 2 | .dross => 3 | .ash => 4 | .correction => 5

/-- Place of a kind's totals (R63). -/
def EntryKind.ix : EntryKind → Fin 6
  | .opening => 0 | .pickup => 1 | .addition => 2 | .dross => 3 | .ash => 4 | .correction => 5

/-- The kinds in order, for BOOK_SUMMARY (R78). -/
def entryKinds : List EntryKind := [.opening, .pickup, .addition, .dross, .ash, .correction]

/-- The kind a BOOK_POST may carry: DROSS, ASH or CORRECTION (R74). -/
def postKind? : Nat → Option EntryKind
  | 3 => some .dross
  | 4 => some .ash
  | 5 => some .correction
  | _ => none

def WeighMode.code : WeighMode → Nat
  | .scan => 0 | .fixed => 1

def weighMode? : Nat → Option WeighMode
  | 0 => some .scan
  | 1 => some .fixed
  | _ => none

def BathCond.code : BathCond → Nat
  | .outOfBand => 0 | .stale => 1 | .absent => 2

def CaptureOutcome.code : CaptureOutcome → Nat
  | .accepted => 0 | .displaced => 1 | .aged => 2

def FeedState.code : FeedState → Nat
  | .idle => 0 | .requested => 1 | .feeding => 2 | .settle => 3

def FeedSource.code : FeedSource → Nat
  | .host => 0 | .auto => 1

/-- The last outcome as listed in R160, with none as 0. -/
def FeedOutcome.code : FeedOutcome → Nat
  | .done => 1 | .declined _ => 2 | .noAnswer => 3 | .unconfirmed => 4 | .interrupted => 5

def Reaction.code : Reaction → Nat
  | .record => 0 | .notify => 1 | .inhibit => 2 | .hold => 3 | .abort => 4 | .stopAll => 5

def reaction? : Nat → Option Reaction
  | 0 => some .record
  | 1 => some .notify
  | 2 => some .inhibit
  | 3 => some .hold
  | 4 => some .abort
  | 5 => some .stopAll
  | _ => none

def EntryState.code : EntryState → Nat
  | .clear => 0 | .alarm => 1 | .active => 2

def BurstEnd.code : BurstEnd → Nat
  | .done => 1 | .stoppedTop => 2 | .readyTimeout => 3 | .driveFault => 4 | .replaced => 5

/-- Number of a notice class (R196). -/
def NoticeClass.number : NoticeClass → Nat
  | .fault => 1 | .hoist => 2 | .zone => 3 | .book => 4 | .feeder => 5 | .input => 6

def NoticeClass.ix : NoticeClass → Fin 6
  | .fault => 0 | .hoist => 1 | .zone => 2 | .book => 3 | .feeder => 4 | .input => 5

/-- The classes, highest priority first (R195). -/
def noticeClasses : List NoticeClass := [.fault, .hoist, .zone, .book, .feeder, .input]

/-- Result codes are numbered from 00h in the order of R192. -/
def Result.code : Result → Nat
  | .ok => 0 | .unknownKind => 1 | .badLength => 2 | .badValue => 3 | .busy => 4 | .notInstalled => 5
  | .duplicateTag => 6 | .queueFull => 7 | .noSuchOrder => 8 | .tooLate => 9 | .wrongState => 10 | .bookClosed => 11
  | .bookFull => 12 | .stillPresent => 13 | .zoneHeld => 14 | .relayRefused => 15 | .notPermitted => 16 | .timeout => 17

/-! ### Fault kinds (R175) -/

def FaultKind.ix : FaultKind → Fin 14
  | .driveFault => 0 | .positionError => 1 | .snag => 2 | .loadLost => 3 | .scanStarved => 4 | .weighUnstable => 5
  | .dwellOverrun => 6 | .areaBreach => 7 | .alignLost => 8 | .drivePowerLoss => 9 | .bathTemp => 10
  | .feederSilent => 11 | .levelMismatch => 12 | .retainedLost => 13

def faultKinds : List FaultKind :=
  [.driveFault, .positionError, .snag, .loadLost, .scanStarved, .weighUnstable, .dwellOverrun, .areaBreach,
   .alignLost, .drivePowerLoss, .bathTemp, .feederSilent, .levelMismatch, .retainedLost]

def FaultKind.ofIx (i : Fin 14) : FaultKind := faultKinds[i]'(by simp [faultKinds])

/-- The number by which requests and frames name the kind. -/
def FaultKind.number (k : FaultKind) : Nat := k.ix.val + 1

def faultKind? (n : Nat) : Option FaultKind := if h : 1 ≤ n ∧ n ≤ 14 then some (FaultKind.ofIx ⟨n - 1, by omega⟩) else none

/-- Type C of R175. -/
def FaultKind.isCondition : FaultKind → Bool
  | .driveFault => true | .areaBreach => true | .alignLost => true | .drivePowerLoss => true | .bathTemp => true
  | .positionError => false | .snag => false | .loadLost => false | .scanStarved => false | .weighUnstable => false
  | .dwellOverrun => false | .feederSilent => false | .levelMismatch => false | .retainedLost => false

/-- Conditions reported as one line-wide condition (R176). -/
def FaultKind.lineWide (k : FaultKind) : Bool := k == .drivePowerLoss || k == .bathTemp

/-- The two kinds whose reaction is fixed (R175, R183). -/
def FaultKind.fixedReaction? : FaultKind → Option Reaction
  | .drivePowerLoss => some .stopAll
  | .retainedLost => some .notify
  | _ => none

end Sys2Proof.Machine

namespace Sys2Proof

open Machine

/-! ### Ranges of the setup records -/

/-- R19, R20. -/
def ProfileFields.ok (f : ProfileFields) : Bool :=
  within f.entrySpeed 10 300 && within f.dwell 10 36000 && within f.withdrawal 5 100 && within f.drain 0 6000 &&
  within f.shakes 0 15 && within f.amplitude 20 200 && yesNo f.clean

/-- The profile a PROFILE_WRITE leaves (R20). -/
def ProfileFields.toProfile (f : ProfileFields) : Profile :=
  { defined := true, entrySpeed := f.entrySpeed, dwell := f.dwell, withdrawal := f.withdrawal, drain := f.drain,
    shakes := f.shakes, amplitude := f.amplitude, clean := yes f.clean }

/-- R52. -/
def CycleSet.ok (c : CycleSet) : Bool :=
  within c.alignTimeout 10 600 && within c.abortSpeed 50 300 && within c.abortDrain 0 1200 && within c.overrun 0 6000

/-- R85, R86. -/
def KettleSet.ok (k : KettleSet) : Bool :=
  within k.floor 500 8000 && within k.clearance 0 4000 && within k.skimLimit 1 255 && within k.waitAlert 10 3600 &&
  decide (k.clearance < k.floor)

/-- R105. -/
def Calibration.ok (c : Calibration) : Bool := withinInt c.zero (-8388608) 8388607 && within c.scale 1 16777215

/-- R123, the plain numbers. -/
def WeighLimits.ok (l : WeighLimits) : Bool :=
  within l.window 4 64 && within l.band 1 1000 && within l.timeout 20 1200 && within l.ageLimit 50 2000 &&
  within l.contact 10 5000 && within l.snag 100 20000 && within l.slack 0 10000 && within l.bathLow 3800 6200 &&
  within l.bathHigh 3800 6200

/-- R136. -/
def LevelSet.ok (l : LevelSet) : Bool :=
  within l.refDepth 0 8000 && within l.refInventory 0 20000000 && within l.coefficient 10 10000 &&
  within l.band 5 500 && within l.ageLimit 30 600

/-- R151. -/
def DriveSet.ok (d : DriveSet) : Bool :=
  within d.homeSpeed 20 300 && within d.travelLimit 100 8000 && within d.readyTimeout 5 100 &&
  within d.shakeSpeed 50 500

/-- R171; that auto-feed and relay are each 00h or 01h is the model's choice, log entry 79. -/
def FeedFields.ok (f : FeedFields) : Bool :=
  yesNo f.auto && within f.numbers.threshold 0 8000 && within f.numbers.target 0 8000 &&
  within f.numbers.ingotMass 10 20000 && within f.numbers.maximum 1 20 && within f.numbers.timeout 20 600 &&
  within f.numbers.settle 0 3600 && yesNo f.relay && within f.numbers.hold 1 100

/-- The settings a FEED_SETUP that passed leaves (R171). R171 lists auto-feed and relay as on, off and gives them no bytes;
that 01h is on is the model's choice, log entry 79. -/
def FeedFields.toSet (f : FeedFields) : FeedSet := { auto := yes f.auto, relay := yes f.relay, numbers := f.numbers }

/-- R153, step 3; that a level is 00h or 01h, and 01h high, is the model's choice, log entry 79. -/
def BenchFields.ok (f : BenchFields) : Bool :=
  yesNo f.dir && yesNo f.brake && yesNo f.permit && within f.steps 0 8000 && within f.rate 1 500 && yesNo f.beacon &&
  (f.steps == 0 || yes f.brake)

/-- The pass records a post carries. -/
def PostFields.passes (p : PostFields) : List PassRec := p.pass1 :: p.pass2.toList

/-- Floor and clearance check of one pass (R4, step 8). -/
def KettleSet.passOk (k : KettleSet) (p : PassRec) : Bool :=
  decide (p.target + p.drop ≤ k.floor ∧ k.clearance < p.target + p.drop)

end Sys2Proof

namespace Sys2Proof.Machine

/-- R123: WEIGH_SETUP as set, or none where a check of the rule fails; the followed hoist must be installed. -/
def State.weighSet? (s : State) (f : WeighFields) : Option WeighSet :=
  match weighMode? f.mode, s.hoist? f.followed with
  | some m, some h =>
    if f.limits.ok && hoists.all (fun i => within f.slots[i] 0 255 && f.calib[i].ok) &&
       decide (f.limits.bathLow < f.limits.bathHigh)
    then some { mode := m, slots := f.slots, followed := h, limits := f.limits, calib := f.calib } else none
  | _, _ => none

/-! ### Orders -/

/-- Pass count of an order (R1). -/
def Order.passCount (o : Order) : Nat := if o.pass2.isSome then 2 else 1

/-- The record of a pass (R2). -/
def Order.passRec (o : Order) : Pass → PassRec
  | .one => o.pass1
  | .two => o.pass2.getD o.pass1

/-- The profile of an index, if there is one (R20, R21). -/
def Retained.profile? (r : Retained) (i : Nat) : Option Profile := if h : i < 16 then some r.profiles[i] else none

/-- Step 7 of R4: a profile at or below 15 whose defined flag is yes. -/
def Retained.profileOk (r : Retained) (i : Nat) : Bool :=
  match r.profile? i with
  | some p => p.defined
  | none => false

/-- The profile of a pass as the table stands (R22). -/
def Retained.profileOf (r : Retained) (p : PassRec) : Profile := (r.profile? p.profile).getD Profile.cold

end Sys2Proof.Machine
end

