-- ==== Sys2Proof/Machine/Flags.lean ====
section
/-! DEFINITION. Values the spec works out from the state and does not store: book counts, the INHIBIT, the beacon,
skim-due zones, the conditions of a dip context, the kettle level. -/

namespace Sys2Proof.Machine

/-! ### Rounding and time -/

/-- A quotient rounded to the nearest whole number, a half away from zero (R113, R133). -/
def roundDiv (num : Int) (den : Nat) : Int :=
  if 0 ≤ num then (2 * num + den) / (2 * den) else -((2 * (-num) + den) / (2 * den))

/-- Tenths shown as seconds, a part of a second counting as a whole one (log entry 8). -/
def ceilSeconds (t : Nat) : Nat := (t + 9) / 10

/-- The tenths count of the run-time counter (R80). -/
def State.tenthsCount (s : State) : Nat := s.kept.runtime * 10 + s.tenths

/-- A 16-bit count raised by one, stopping at 65535 (R104, R159, R190). -/
def bump16 (n : Nat) : Nat := if n < Config.max16 then n + 1 else n

/-! ### The book (R58, R64) -/

/-- Used count (R58). -/
def State.used (s : State) : Nat := s.kept.journal.length

/-- Free count (R64). -/
def State.free (s : State) : Nat := Config.journalSize - (s.used + s.reserved)

/-- Sequence numbers left (R58). -/
def Retained.seqLeft (r : Retained) : Nat := if r.seqSpent then 0 else Config.max32 + 1 - r.nextSeq

/-- The condition under which `n` reservations are granted (R64). -/
def State.canReserve (s : State) (n : Nat) : Bool :=
  s.kept.bookOpen && decide (s.reserved + n ≤ s.kept.seqLeft) && decide (s.used + s.reserved + n ≤ Config.journalSize)

/-- PROVISIONAL entries in the journal (R78). -/
def State.provisional (s : State) : Nat := s.kept.journal.countP fun e => !e.final

/-- Sequence number of the oldest entry, or 0 (R75, R78). -/
def State.oldestSeq (s : State) : Nat := (s.kept.journal.head?.map Entry.seq).getD 0

/-! ### The Fault Collector (R177, R185) -/

/-- An entry is latched while it is ALARM or ACTIVE (R179). -/
def FaultEntry.latched (e : FaultEntry) : Bool := e.state != .clear

/-- The reaction a kind carries (R179). -/
def State.reactionOf (s : State) (k : FaultKind) : Reaction := s.kept.faults[k.ix].reaction

/-- Reactions from NOTIFY up mark the FAULT notice (R177). -/
def Reaction.notifies (r : Reaction) : Bool := r != .record

/-- INHIBIT and STOP_ALL impose the INHIBIT (R177). -/
def Reaction.inhibits (r : Reaction) : Bool := r == .inhibit || r == .stopAll

/-- The INHIBIT is in force (R177). -/
def State.inhibit (s : State) : Bool :=
  faultKinds.any fun k => s.entries[k.ix].state == .active && (s.reactionOf k).inhibits

/-- A STOP_ALL reaction is in force (R178). -/
def State.stopAll (s : State) : Bool :=
  faultKinds.any fun k => s.entries[k.ix].state == .active && s.reactionOf k == .stopAll

/-- A resume of the hoist is refused STILL_PRESENT (R44, step 2). -/
def State.resumeBarred (s : State) (h : Hoist) : Bool :=
  faultKinds.any fun k =>
    s.entries[k.ix].latched &&
    match s.reactionOf k with
    | .stopAll => true
    | .hold | .abort => s.entries[k.ix].involved[h]
    | _ => false

/-- The condition is present for the entry (R176). -/
def State.condPresent (s : State) (k : FaultKind) : Bool :=
  if k.lineWide then s.entries[k.ix].presentLine
  else hoists.any fun h => s.entries[k.ix].involved[h] && s.entries[k.ix].present[h]

/-- The latched kinds in ascending number. -/
def State.latchedKinds (s : State) : List FaultKind := faultKinds.filter fun k => s.entries[k.ix].latched

/-- The beacon state (R185). -/
def State.beaconState (s : State) : Bool :=
  s.beaconT.isSome || faultKinds.any fun k => s.entries[k.ix].latched && s.kept.faults[k.ix].beacon

/-- The BEACON line (R140, R185): the beacon state, or in bench mode the level of BENCH_DRIVE. -/
def State.beaconLine (s : State) : Bool := if s.bench then s.benchBeacon else s.beaconState

/-! ### Zones (R87, R98) -/

/-- Skim-due (R98). -/
def State.skimDue (s : State) (z : Fin 12) : Bool := decide (s.kept.kettle.skimLimit ≤ s.kept.surfaces[z].withdrawals)

/-- The hoist holds a zone. -/
def State.holds (s : State) (h : Hoist) : Bool := zones.any fun z => s.holders[z] == some h

/-! ### Dip contexts -/

/-- States in which the reading age is checked and an interleave visits the hoist (R112, R121). -/
def DipState.moving : DipState → Bool
  | .lowering | .lifting | .abortLift | .recal => true
  | _ => false

/-- States with TRAVEL_PERMIT on (R25, R150). -/
def DipState.permits : DipState → Bool
  | .parked | .aligning | .rehang => true
  | _ => false

/-- States of the snag and load-lost checks (R39, R119). -/
def DipState.monitored : DipState → Bool
  | .lowering | .dwell | .lifting | .abortLift | .drain | .recal => true
  | _ => false

/-- States in which ALIGN_LOST is watched (R38). -/
def DipState.needsAligned : DipState → Bool
  | .weighIn | .lowering | .dwell | .lifting | .abortLift | .drain => true
  | _ => false

/-- States a moving or immersed load keeps the kettle from being quiet in (R129). -/
def DipState.disturbs : DipState → Bool
  | .lowering | .dwell | .lifting | .abortLift => true
  | _ => false

/-- Held-from states that leave the load in the zinc (R48). -/
def DipState.loadBelow : DipState → Bool
  | .lowering | .dwell | .lifting | .abortLift => true
  | _ => false

/-- The state, or in HELD the held-from state. -/
def DipCtx.effective (c : DipCtx) : DipState := if c.state = .held then c.heldFrom.getD .held else c.state

/-- A recalibration carries the load out through the zinc (R50): RECAL, or HELD from it, with no return state. -/
def DipCtx.recalLoad (c : DipCtx) : Bool := c.effective == .recal && c.ret.isNone

/-- What a dip context reports to the Level Unit (R129). -/
def DipCtx.view (c : DipCtx) : HoistView :=
  { state := c.state, heldFrom := c.heldFrom, contact := c.contact, recalLoad := c.recalLoad }

/-- The state, the held-from state of HELD, and the return state of a recalibration (R24, R38). -/
def DipCtx.standsIn (c : DipCtx) : List DipState :=
  [c.state] ++ (if c.state = .held then c.heldFrom.toList else []) ++ (if c.effective = .recal then c.ret.toList else [])

/-- The ALIGN_LOST condition of a station (R38). -/
def State.alignLost (s : State) (h : Hoist) : Bool :=
  s.holds h && !s.inputs[h].aligned && s.ctxs[h].standsIn.any DipState.needsAligned

/-- The AREA_BREACH condition of a station (R38). -/
def State.areaBreach (s : State) (h : Hoist) : Bool :=
  s.installed h && !s.inputs[h].areaClear &&
  (s.ctxs[h].state.moving || (s.ctxs[h].state == .drain && s.drives[h].motion.isSome))

/-- The immersion limit of DWELL_OVERRUN (R43). -/
def Latched.limit (l : Latched) : Nat := l.profile.dwell + l.overrun

/-- The held-from states R43 watches. -/
def DipCtx.overrunWatched (c : DipCtx) : Bool :=
  c.state == .held &&
  match c.heldFrom with
  | some .lowering => c.contact
  | some .dwell | some .lifting => true
  | _ => false

/-- The fault is to be raised now (R43). -/
def DipCtx.overrunDue (c : DipCtx) : Bool :=
  c.overrunWatched && !c.overrunRaised &&
  match c.latched with
  | some l => decide (l.limit < c.clock.tenths)
  | none => false

/-! ### Weighing (R122) -/

/-- BATH_TEMP worked out from the latest temperature and its age (R122; log entry 33). -/
def State.bathNow (s : State) : BathCond :=
  let t := s.wu.chans[tempChannel]
  let out := match t.value with
    | some v => decide (v < s.kept.weigh.limits.bathLow) || decide ((s.kept.weigh.limits.bathHigh : Int) < v)
    | none => false
  if out then .outOfBand else if Config.staleAge < t.age then .stale else .absent

/-! ### The kettle level (R128, R129, R132, R133) -/

/-- A load in the zinc (R128). -/
def HoistView.loadInZinc (v : HoistView) : Bool :=
  let inZinc : DipState → Bool
    | .lowering => v.contact
    | .dwell | .lifting | .abortLift => true
    | _ => false
  inZinc v.state || (v.state == .held && (v.heldFrom.map inZinc).getD false) || (v.state == .recal && v.recalLoad)

/-- The kettle is quiet (R129). -/
def State.quiet (s : State) : Bool :=
  !s.lu.frozen && hoists.all fun h => !s.lu.views[h].state.disturbs

/-- The level estimate (R132): the mean of the ring, a half rounded up; absent with an empty ring. -/
def ringMean (ring : List Nat) : Option Nat :=
  if ring.isEmpty then none else some ((2 * ring.sum + ring.length) / (2 * ring.length))

/-- The predicted depth (R133; log entry 50). -/
def State.predicted (s : State) : Int :=
  roundDiv (s.kept.level.refDepth * s.kept.level.coefficient + s.kept.level.refInventory - s.kept.inventory)
    s.kept.level.coefficient

/-! ### The Feeder Line -/

/-- A feed is in flight (R160). -/
def FeedState.inFlight (f : FeedState) : Bool := f == .requested || f == .feeding

end Sys2Proof.Machine
end

