-- ==== Sys2Proof/Machine/Ops.lean ====
section
/-! DEFINITION. The shared operations on single parts of the state: updates of one record, notice marks, the agenda,
the weigh request queue's record of who waits, and the rewriting of a dip context with all that follows a change. -/

namespace Sys2Proof.Machine

/-! ### Updates of one record -/

def State.modLink (s : State) (f : Link → Link) : State := { s with link := f s.link }
def State.modKept (s : State) (f : Retained → Retained) : State := { s with kept := f s.kept }
def State.modCtx (s : State) (h : Hoist) (f : DipCtx → DipCtx) : State := { s with ctxs := s.ctxs.set h (f s.ctxs[h]) }
def State.modDrive (s : State) (h : Hoist) (f : DriveIf → DriveIf) : State :=
  { s with drives := s.drives.set h (f s.drives[h]) }
def State.modMail (s : State) (h : Hoist) (f : Mail → Mail) : State := { s with mail := s.mail.set h (f s.mail[h]) }
def State.modWu (s : State) (f : WeighUnit → WeighUnit) : State := { s with wu := f s.wu }
def State.modLu (s : State) (f : LevelUnit → LevelUnit) : State := { s with lu := f s.lu }
def State.modFeeder (s : State) (f : FeederLine → FeederLine) : State := { s with feeder := f s.feeder }
def State.modEntry (s : State) (k : FaultKind) (f : FaultEntry → FaultEntry) : State :=
  { s with entries := s.entries.set k.ix (f s.entries[k.ix]) }
def State.modInputs (s : State) (h : Hoist) (f : StationInputs → StationInputs) : State :=
  { s with inputs := s.inputs.set h (f s.inputs[h]) }

/-! ### Notice marks (R196) -/

/-- A class is marked pending; a disabled class is not marked (R196, R197). -/
def State.mark (s : State) (c : NoticeClass) : State :=
  if s.kept.notices[c.ix] then s.modLink fun l => { l with marks := l.marks.set c.ix true } else s

/-- The class is marked where the condition holds. -/
def State.markIf (s : State) (b : Bool) (c : NoticeClass) : State := if b then s.mark c else s

/-! ### The agenda (log entry 13) -/

/-- A report to the Fault Collector is made (R176). -/
def State.report (s : State) (r : FaultReport) : State :=
  { s with agenda := { s.agenda with reports := s.agenda.reports ++ [r] } }

/-- A take attempt or the acting on a remembered REHANG_DONE is due (R9, R177). -/
def State.followUp (s : State) (f : Follow) : State :=
  { s with agenda := { s.agenda with follow := s.agenda.follow ++ [f] } }

/-- A kind is raised for one hoist. -/
def State.raise (s : State) (k : FaultKind) (h : Hoist) : State := s.report (.occur k (some h))

/-- A line-wide event of R9: the take condition of every installed hoist is evaluated (log entry 15). -/
def State.takeAll (s : State) : State := s.installedHoists.foldl (fun s h => s.followUp (.take h)) s

/-- The conditions a dip context reports afresh at a change of its state or motion (R38). -/
def State.reportConds (s : State) (h : Hoist) : State :=
  (s.report (.cond .alignLost (some h) (s.alignLost h))).report (.cond .areaBreach (some h) (s.areaBreach h))

/-! ### Dip contexts (R25, R129, R150) -/

/-- A dip context takes new contents: the HOIST mark at a change of state or held-from state (R25), the report to the
Level Unit at a change of its view (R129), TRAVEL_PERMIT by state outside bench mode (R150), the starved mark cleared
outside the moving states (R121). The conditions of R38 are reported by `putCtx`, or by the motion that the new state
starts. -/
def State.setCtx (s : State) (h : Hoist) (c : DipCtx) : State :=
  let old := s.ctxs[h]
  let s := s.modCtx h fun _ => { c with starved := c.starved && c.state.moving }
  let s := s.markIf (old.state != c.state || old.heldFrom != c.heldFrom) .hoist
  let s := if old.view = c.view then s else s.modMail h fun m => { m with level := m.level ++ [.view c.view] }
  if s.bench then s else s.modDrive h fun d => { d with permit := c.state.permits }

/-- A dip context takes new contents that start no motion, with the conditions of R38 afresh. -/
def State.putCtx (s : State) (h : Hoist) (c : DipCtx) : State := (s.setCtx h c).reportConds h

/-! ### Orders (R6) -/

/-- The order bearing a tag, in any state (R4, R11). -/
def State.orderByTag (s : State) (tag : Nat) : Option Order := s.orders.find? fun o => o.tag == tag

/-- The order a dip context runs (R24). -/
def State.orderOf (s : State) (h : Hoist) : Option Order :=
  match s.ctxs[h].order with
  | some r => s.orders.find? fun o => o.slot == r.slot
  | none => none

/-- The order a dip context runs is changed in its place (R6). -/
def State.modOrder (s : State) (h : Hoist) (f : Order → Order) : State :=
  match s.ctxs[h].order with
  | some r => { s with orders := s.orders.map fun o => if o.slot = r.slot then f o else o }
  | none => s

/-- The order is on its way to its close (R3). -/
def State.closePending (s : State) (h : Hoist) : Bool := ((s.orderOf h).map Order.closePending).getD false

/-- The oldest QUEUED order naming the hoist (R7). -/
def State.offered (s : State) (h : Hoist) : Option Order :=
  s.orders.find? fun o => o.state == .queued && o.hoist == h

/-- The lowest free slot of the order table (R1; log entry 16). -/
def State.freeSlot (s : State) : Nat :=
  ((List.range Config.orderSlots).find? fun n => !s.orders.any fun o => o.slot == n).getD Config.orderSlots

/-- The pass record of the current pass of a dip context. -/
def State.passOf (s : State) (h : Hoist) : Option PassRec :=
  match s.orderOf h, s.ctxs[h].pass with
  | some o, some p => some (o.passRec p)
  | _, _ => none

end Sys2Proof.Machine
end

