-- ==== Sys2Proof/Machine/BookOps.lean ====
section
/-! DEFINITION. What the Zinc Book does for the other blocks and for itself: reservations, writes, raises, finalising,
trimming, the nearly-full mark (R57 to R84). -/

namespace Sys2Proof.Machine

/-! ### Reservations and the nearly-full mark -/

/-- The nearly-full mark judged after a change of the used or reserved count (R79). -/
def State.judgeNearly (s : State) : State :=
  if Config.nearlyFull ≤ s.used + s.reserved then
    if s.nearlyFull then s else { s with nearlyFull := true }.mark .book
  else { s with nearlyFull := false }

/-- A grant of `n` reservations (R64); the caller has judged `canReserve`. -/
def State.grantReserve (s : State) (n : Nat) : State := { s with reserved := s.reserved + n }.judgeNearly

/-- A return of `n` reservations (R66), an event of R9 for every installed hoist. -/
def State.returnReserve (s : State) (n : Nat) : State :=
  if n = 0 then s else { s with reserved := s.reserved - n }.judgeNearly.takeAll

/-! ### Writing and changing entries -/

/-- A kind's totals after a change of its count and sum (R63). -/
def Retained.addTotal (r : Retained) (k : EntryKind) (writes : Nat) (amount : Int) : Retained :=
  let t := r.totals[k.ix]
  { r with totals := r.totals.set k.ix ⟨min Config.max32 (t.count + writes), t.sum + amount⟩ }

/-- An entry is written at the newest end with the next sequence number (R58, R62, R63). -/
def Retained.write (r : Retained) (e : Entry) : Retained :=
  { r.addTotal e.kind 1 e.amount with
    journal := r.journal ++ [{ e with seq := r.nextSeq }], inventory := r.inventory + e.amount,
    nextSeq := min Config.max32 (r.nextSeq + 1), seqSpent := decide (Config.max32 ≤ r.nextSeq) }

/-- The first entry meeting a test is changed; answers the list and how far the amounts moved. -/
def reviseFirst (p : Entry → Bool) (f : Entry → Entry) : List Entry → List Entry × Int
  | [] => ([], 0)
  | e :: es => if p e then (f e :: es, (f e).amount - e.amount) else
      let r := reviseFirst p f es
      (e :: r.1, r.2)

/-- The PROVISIONAL entry of a kind and number is changed; the inventory and the kind's sum follow the amount. Where no
such entry stands nothing changes (R69, R70, R71). -/
def Retained.revise (r : Retained) (k : EntryKind) (seq : Nat) (f : Entry → Entry) : Retained :=
  let d := reviseFirst (fun e => e.seq == seq && !e.final && e.kind == k) f r.journal
  { r.addTotal k 0 d.2 with journal := d.1, inventory := r.inventory + d.2 }

/-- A PROVISIONAL entry of the number stands in the journal. -/
def Retained.hasProvisional (r : Retained) (k : EntryKind) (seq : Nat) : Bool :=
  r.journal.any fun e => e.seq == seq && !e.final && e.kind == k

/-- An entry with only the fields every kind has. -/
def Entry.blank (kind : EntryKind) (written : Nat) (amount : Int) : Entry :=
  { seq := 0, kind := kind, final := false, written := written, finalised := none, amount := amount, orderTag := none,
    hoist := none, pass := none, span := none, weighIn := none, weighOut := none, dwell := none, immersion := none,
    surface := none, ingots := none, feederTotal := none, flags := EntryFlags.empty, note := none }

/-- A FINAL entry of BOOK_OPEN or BOOK_POST, time finalised equal to time written (R59). -/
def Entry.fixed (kind : EntryKind) (now : Nat) (amount : Int) (note : Option Nat) : Entry :=
  { Entry.blank kind now amount with final := true, finalised := some now, note := note }

/-- The FINAL entry of an opening or a post, with its notice (R73, R74, R79). -/
def State.bookFinal (s : State) (kind : EntryKind) (amount : Int) (note : Option Nat) : State :=
  ((s.modKept fun r => r.write (Entry.fixed kind r.runtime amount note)).mark .book).judgeNearly

/-- The PROVISIONAL PICKUP entry of a pass, consuming one reservation (R65, R68). -/
def State.writePickup (s : State) (h : Hoist) (tag : Nat) (pass : Pass) (span : Nat × Nat) (weighIn : Int) (dwell : Nat)
    (flags : EntryFlags) : State :=
  { s.modKept fun r => r.write
      { Entry.blank .pickup r.runtime 0 with
        orderTag := some tag, hoist := some h, pass := some pass, span := some span, weighIn := some weighIn,
        dwell := some dwell, immersion := some 0, flags := flags }
    with reserved := s.reserved - 1 }

/-- The surface depth of the pass's contact (R69). -/
def State.bookSurface (s : State) (seq depth : Nat) : State :=
  s.modKept fun r => r.revise .pickup seq fun e => { e with surface := some depth }

/-- The amount a PICKUP entry is finalised with (R61, R70). -/
def pickupAmount (weighIn weighOut : Option Int) : Int :=
  match weighIn, weighOut with
  | some i, some o => i - o
  | _, _ => 0

/-- A PICKUP entry is finalised (R70). -/
def State.finalisePickup (s : State) (seq : Nat) (weighOut : Option Int) (immersion : Nat) (flags : EntryFlags) : State :=
  (s.modKept fun r => r.revise .pickup seq fun e =>
    { e with final := true, finalised := some r.runtime, weighOut := weighOut, immersion := some immersion, flags := flags,
             amount := pickupAmount e.weighIn weighOut }).markIf (s.kept.hasProvisional .pickup seq) .book

/-- The PROVISIONAL ADDITION entry of a feed, consuming its reservation (R65, R71). -/
def State.writeAddition (s : State) : State :=
  { s.modKept fun r => r.write { Entry.blank .addition r.runtime 0 with ingots := some 0 }
    with reserved := s.reserved - 1 }

/-- A raise of an ADDITION entry (R71). -/
def State.raiseAddition (s : State) (seq count : Nat) (amount : Int) : State :=
  s.modKept fun r => r.revise .addition seq fun e => { e with ingots := some count, amount := amount }

/-- An ADDITION entry is finalised (R72). -/
def State.finaliseAddition (s : State) (seq : Nat) (total : Option Nat) (disagree unconfirmed : Bool) : State :=
  (s.modKept fun r => r.revise .addition seq fun e =>
    { e with final := true, finalised := some r.runtime, feederTotal := total,
             flags := { e.flags with countDisagree := disagree, unconfirmed := unconfirmed } }).markIf
    (s.kept.hasProvisional .addition seq) .book

/-! ### Trimming (R76) -/

/-- Entries leave the oldest end while the oldest is FINAL and at or below the number carried; answers the entries
removed and those that stay. -/
def trimList (seq : Nat) : List Entry → List Entry × List Entry
  | [] => ([], [])
  | e :: es => if e.seq ≤ seq ∧ e.final = true then
      let r := trimList seq es
      (e :: r.1, r.2)
    else ([], e :: es)

/-- Sum of amounts. -/
def amounts (es : List Entry) : Int := (es.map Entry.amount).sum

/-- A trim: the amounts removed go into the base (R62, R76). -/
def Retained.trim (r : Retained) (seq : Nat) : Retained :=
  let t := trimList seq r.journal
  { r with journal := t.2, base := r.base + amounts t.1 }

/-! ### Opening (R73) and resets (R82, R84) -/

/-- Journal empty, base and totals 0; the OPENING entry is written next. -/
def Retained.reopen (r : Retained) : Retained :=
  { r with bookOpen := true, journal := [], base := 0, inventory := 0, totals := Vector.replicate 6 ⟨0, 0⟩ }

/-- A PROVISIONAL entry finalised by a power-on or RESTART (R60, R82). -/
def Entry.interrupt (now : Nat) (e : Entry) : Entry :=
  if e.final then e else { e with final := true, finalised := some now, flags := { e.flags with interrupted := true } }

/-- The book's own part of a power-on with a good check and of a RESTART (R82, R84): reservations 0, PROVISIONAL entries
finalised INTERRUPTED, the nearly-full mark afresh, the BOOK notice for either. -/
def State.finishCutShort (s : State) : State :=
  let cut := decide (0 < s.provisional)
  let s := { s.modKept fun r => { r with journal := r.journal.map (Entry.interrupt r.runtime) }
             with reserved := 0, nearlyFull := false }
  (s.markIf cut .book).judgeNearly

end Sys2Proof.Machine
end

