-- ==== Sys2Proof/Machine/DriveOps.lean ====
section
/-! DEFINITION. The Hoist Drive Interface: starting, cancelling and ending motions, the top limit, the strokes of a
shake, pulses, and bench bursts (R140 to R157). -/

namespace Sys2Proof.Machine

/-- A motion command (R142). `lift` is the MOVE up to the drain position of LIFTING and ABORT_LIFT, which a hook at or
above it has reached (R44, R47; log entry 25). -/
inductive MotionCmd where
  | move (target rate : Nat)
  | lift (target rate : Nat)
  | recal
  | shake (cycles amplitude : Nat)
deriving DecidableEq, Repr

/-- What a report of the motion is about. -/
def MotionKind.moved : MotionKind → Moved
  | .move _ => .move
  | .recal _ => .recal
  | .shake _ _ _ _ => .shake

def MotionCmd.moved : MotionCmd → Moved
  | .move _ _ | .lift _ _ => .move
  | .recal => .recal
  | .shake _ _ => .shake

/-! ### Ends of a motion (R144) -/

/-- Pulses stop and BRAKE_REL clears. -/
def State.haltMotion (s : State) (h : Hoist) : State :=
  s.modDrive h fun d => { d with motion := none, readyT := none, brakeRel := false }

/-- The motion in progress ends; the condition of R38 is reported at the change of the motion. -/
def State.stopMotion (s : State) (h : Hoist) : State := (s.haltMotion h).reportConds h

/-- A cancel: without a motion in progress it changes nothing (R144). -/
def State.cancelMotion (s : State) (h : Hoist) : State := if s.drives[h].motion.isSome then s.stopMotion h else s

/-- The cancel of a motion that a new one replaces within the same change: the conditions are reported once, for the
new motion (R38, R142). -/
def State.dropMotion (s : State) (h : Hoist) : State := if s.drives[h].motion.isSome then s.haltMotion h else s

/-- A motion report is handed to the dip context (R144). -/
def State.motionReport (s : State) (h : Hoist) (m : Moved) (cause : Option FailCause) : State :=
  s.modMail h fun x => { x with motions := x.motions ++ [{ moved := m, cause := cause }] }

/-- The motion in progress ends reached. -/
def State.motionDone (s : State) (h : Hoist) (m : Moved) : State := (s.stopMotion h).motionReport h m none

/-- The motion in progress ends failed, with its fault (R144). -/
def State.motionFails (s : State) (h : Hoist) (m : Moved) (cause : FailCause) (k : FaultKind) : State :=
  ((s.stopMotion h).raise k h).motionReport h m (some cause)

/-- A start refused: no pulse, BRAKE_REL not set (R142, steps 2 and 3); no motion runs (R38). -/
def State.startFails (s : State) (h : Hoist) (m : Moved) (cause : FailCause) (k : FaultKind) : State :=
  ((s.reportConds h).raise k h).motionReport h m (some cause)

/-- TOP above 20 mm: the count is set to 0 and known, and the motion fails (R147). -/
def State.topError (s : State) (h : Hoist) (m : Moved) : State :=
  (s.modDrive h fun d => { d with count := 0, known := true }).motionFails h m .positionError .positionError

/-! ### Strokes of a shake (R149) -/

/-- A down stroke starts; it meets TOP as the start of any motion does (R147). A ready-wait timer that runs stays as it
stands (log entry 57). -/
def State.startDown (s : State) (h : Hoist) (rate left amplitude : Nat) : State :=
  let top := s.inputs[h].top && decide (Config.topWindow < s.drives[h].count)
  let s := s.modDrive h fun d =>
    { d with motion := some ⟨.shake left amplitude true (min Config.maxPosition (d.count + amplitude)), rate⟩, dir := false }
  if top then s.topError h .shake else s

/-- An up stroke has ended: the next cycle starts, or the SHAKE is reached. -/
def State.endUp (s : State) (h : Hoist) (rate left amplitude : Nat) : State :=
  if left ≤ 1 then s.motionDone h .shake else s.startDown h rate (left - 1) amplitude

/-- An up stroke starts. -/
def State.startUp (s : State) (h : Hoist) (rate left amplitude : Nat) : State :=
  let d := s.drives[h]
  let s := s.modDrive h fun d =>
    { d with motion := some ⟨.shake left amplitude false (d.count - amplitude), rate⟩, dir := true }
  if s.inputs[h].top then
    if d.count ≤ Config.topWindow then (s.modDrive h fun d => { d with count := 0 }).endUp h rate left amplitude
    else s.topError h .shake
  else s

/-! ### TOP (R147, R148) -/

/-- TOP is present while the motion in progress runs. -/
def State.topRule (s : State) (h : Hoist) : State :=
  let d := s.drives[h]
  match d.motion with
  | none => s
  | some ⟨.recal _, _⟩ => (s.modDrive h fun d => { d with count := 0, known := true }).motionDone h .recal
  | some ⟨.move _, _⟩ =>
    if d.count ≤ Config.topWindow then
      if d.dir then (s.modDrive h fun d => { d with count := 0 }).motionDone h .move else s
    else s.topError h .move
  | some ⟨.shake left amplitude down _, rate⟩ =>
    if d.count ≤ Config.topWindow then
      if down then s else (s.modDrive h fun d => { d with count := 0 }).endUp h rate left amplitude
    else s.topError h .shake

/-- A motion or burst finds READY absent: the ready-wait timer is loaded (R145). -/
def State.loadReady (s : State) (h : Hoist) : State :=
  s.modDrive h fun d => { d with readyT := some s.kept.drive.readyTimeout }

/-- What a start meets: TOP present (R142), then READY absent (R145). -/
def State.startMeets (s : State) (h : Hoist) : State :=
  let s := if s.inputs[h].top then s.topRule h else s
  if s.drives[h].motion.isSome && !s.inputs[h].ready then s.loadReady h else s

/-! ### Starting a motion (R142) -/

/-- The motion starts: DIR, BRAKE_REL, the count or travel as the kind asks. -/
def State.runMotion (s : State) (h : Hoist) (cmd : MotionCmd) : State :=
  let drive := s.kept.drive
  let s := s.modDrive h fun d =>
    match cmd with
    | .move target rate | .lift target rate =>
      { d with motion := some ⟨.move target, rate⟩, dir := decide (target < d.count), brakeRel := true }
    | .recal =>
      { d with motion := some ⟨.recal drive.travelLimit, drive.homeSpeed⟩, dir := true, brakeRel := true, travel := 0,
               known := false }
    | .shake cycles amplitude =>
      { d with motion := some ⟨.shake cycles amplitude true (min Config.maxPosition (d.count + amplitude)),
                               drive.shakeSpeed⟩,
               dir := false, brakeRel := true }
  (s.reportConds h).startMeets h

/-- The motion has nothing to do (R142, step 4; R44, R47). -/
def MotionCmd.alreadyThere (cmd : MotionCmd) (count : Nat) : Bool :=
  match cmd with
  | .move target _ => decide (target = count)
  | .lift target _ => decide (count ≤ target)
  | _ => false

/-- A dip context commands a motion (R142). The conditions of R38 are reported once, with the motion as it then is. -/
def State.startMotion (s : State) (h : Hoist) (cmd : MotionCmd) : State :=
  let s := s.dropMotion h
  let d := s.drives[h]
  if cmd != .recal && !d.known then s.startFails h cmd.moved .positionError .positionError
  else if s.inputs[h].driveFault then s.startFails h cmd.moved .driveFault .driveFault
  else if cmd.alreadyThere d.count then (s.reportConds h).motionReport h cmd.moved none
  else s.runMotion h cmd

/-! ### Bench bursts (R153) -/

/-- A burst ends: its outcome and the pulses it issued are recorded. -/
def DriveIf.endBurst (d : DriveIf) (how : BurstEnd) : DriveIf :=
  match d.burst with
  | some b => { d with burst := none, readyT := none, lastBurst := some (how, b.issued) }
  | none => d

/-- What a burst meets at its start (R153; log entry 41). -/
def State.burstMeets (s : State) (h : Hoist) : State :=
  if s.inputs[h].driveFault then s.modDrive h fun d => { d.endBurst .driveFault with brakeRel := false }
  else if s.inputs[h].top && s.drives[h].dir then s.modDrive h fun d => { d.endBurst .stoppedTop with count := 0 }
  else if s.inputs[h].ready then s else s.loadReady h

/-! ### Pulses (R143) -/

/-- The count after a pulse, held within 0 to 8000. -/
def DriveIf.stepped (d : DriveIf) : Nat := if d.dir then d.count - 1 else min Config.maxPosition (d.count + 1)

/-- States in which pulses of a motion go out (R143). -/
def DipState.steps : DipState → Bool
  | .lowering | .lifting | .drain | .abortLift | .recal => true
  | _ => false

/-- A pulse of the motion in progress. -/
def State.pulseMotion (s : State) (h : Hoist) (m : Motion) : State :=
  let d := s.drives[h]
  match m.kind with
  | .recal limit =>
    let s := s.modDrive h fun d => { d with travel := d.travel + 1 }
    if limit ≤ d.travel + 1 then s.motionFails h .recal .positionError .positionError else s
  | .move target =>
    let s := s.modDrive h fun d => { d with count := d.stepped }
    if d.stepped = target then s.motionDone h .move else s
  | .shake left amplitude down target =>
    let s := s.modDrive h fun d => { d with count := d.stepped }
    if d.stepped = target then
      if down then s.startUp h m.rate left amplitude else s.endUp h m.rate left amplitude
    else s

/-- A pulse of a bench burst. -/
def DriveIf.pulseBurst (d : DriveIf) (b : Burst) : DriveIf :=
  let d := { d with count := d.stepped, burst := some { b with left := b.left - 1, issued := b.issued + 1 } }
  if b.left ≤ 1 then d.endBurst .done else d

/-- A STEP pulse goes out (R143): only with READY present and BRAKE_REL set, for a motion in its states or a burst. STEP
is low again at its end (log entry 22). -/
def State.pulse (s : State) (h : Hoist) : State :=
  let d := s.drives[h]
  if s.inputs[h].ready && d.brakeRel then
    match d.motion, d.burst with
    | some m, _ => if s.ctxs[h].state.steps then s.pulseMotion h m else s
    | none, some b => if s.bench then s.modDrive h fun d => d.pulseBurst b else s
    | none, none => s
  else s

end Sys2Proof.Machine
end

