-- ==== Sys2Proof/Machine/WeighOps.lean ====
section
/-! DEFINITION. The Weighing Unit: the weigh request queue, the end of a service, conversion of a count, the judging of
a window, the BATH_TEMP condition, and the choice of the channel of the next period (R104 to R125). -/

namespace Sys2Proof.Machine

/-! ### The request queue (R110, R115) -/

/-- A dip context places its request; a host weighing in the hoist's place leaves it unplaced (R28, R110). -/
def State.placeWeigh (s : State) (h : Hoist) : State :=
  if s.wu.queue.any fun q => q.hoist == h then
    (s.modWu fun w => { w with waiting := w.waiting.set h true }).modCtx h fun c => { c with asked := .unplaced }
  else
    match s.ctxs[h].order, s.ctxs[h].pass with
    | some o, some p =>
      (s.modWu fun w => { w with queue := w.queue ++ [⟨h, some (o.tag, p)⟩] }).modCtx h fun c => { c with asked := .placed }
    | _, _ => s

/-- The place of a hoist is free: a dip context waiting for it is told, and places its request if it still is in
WEIGH_IN or WEIGH_OUT (R110). -/
def State.tellFree (s : State) (h : Hoist) : State :=
  if s.wu.waiting[h] then
    let s := s.modWu fun w => { w with waiting := w.waiting.set h false }
    if (s.ctxs[h].state == .weighIn || s.ctxs[h].state == .weighOut) && s.ctxs[h].asked == .unplaced then s.placeWeigh h
    else s
  else s

/-- A service ends: its request leaves the queue, and a dip context waiting for the place is told (R113, R114, R116).
The next period serves the new head or resumes the scan. -/
def State.endService (s : State) (q : WeighReq) : State :=
  let s := s.modWu fun w => { w with service := none, queue := w.queue.filter fun x => x != q }
  s.tellFree q.hoist

/-- A dip context withdraws its request, or discards one not yet placed (R41, R110, R115). A result already handed to
it for that request is discarded (R42; log entry 46). -/
def State.dropWeigh (s : State) (h : Hoist) : State :=
  let mine := fun q : WeighReq => q.hoist == h && q.dc.isSome
  let s := s.modWu fun w =>
    { w with waiting := w.waiting.set h false, queue := w.queue.filter fun q => !mine q,
             service := if (w.service.map fun x => mine x.req).getD false then none else w.service }
  (s.modMail h fun m => { m with results := [] }).modCtx h fun c => { c with asked := .none }

/-- A weighing ends with a result, the number of samples judged and their spread: handed to its dip context, or written
into the weigh-result record (R113, R114, R118). -/
def State.weighEnds (s : State) (q : WeighReq) (value : Option Int) (judged : Option (Nat × Nat)) : State :=
  let s : State := match q.dc with
    | some (tag, pass) =>
      s.modMail q.hoist fun m =>
        { m with results := m.results ++ [{ tag := tag, pass := pass, value := value,
                                            samples := (judged.map Prod.fst).getD 0, spread := judged.map Prod.snd }] }
    | none => s.modWu fun w =>
      { w with record := some { hoist := q.hoist, value := value, samples := (judged.map Prod.fst).getD 0,
                                spread := judged.map Prod.snd, ended := s.kept.runtime } }
  s.endService q

/-! ### Samples (R105, R113) -/

/-- A load held within its limits. -/
def clampLoad (x : Int) : Int := max Config.loadMin (min Config.loadMax x)

/-- The load of a count: less the zero, times the scale, over 65536, rounded toward zero (R105). -/
def toLoad (c : Calibration) (count : Int) : Int := clampLoad (((count - c.zero) * c.scale).tdiv 65536)

/-- The value of an accepted count of a channel: a load, or the temperature as it is (R105). -/
def State.convert (s : State) (c : Channel) (count : Int) : Int :=
  match channelHoist? c with
  | some h => toLoad s.kept.weigh.calib[h] count
  | none => count

/-- Largest and smallest of a list. -/
def listMax : List Int → Int
  | [] => 0
  | x :: xs => xs.foldl max x
def listMin : List Int → Int
  | [] => 0
  | x :: xs => xs.foldl min x

/-- Spread of a window. -/
def spreadOf (w : List Int) : Nat := (listMax w - listMin w).toNat

/-- The newest `n` of a list. -/
def newest (n : Nat) (w : List Int) : List Int := w.drop (w.length - n)

/-- A sample of the requesting hoist joins the window and is judged (R113). -/
def State.judgeWindow (s : State) (v : Service) (x : Int) : State :=
  let l := s.kept.weigh.limits
  let w := newest l.window (v.window ++ [x])
  if w.length < l.window then s.modWu fun u => { u with service := some { v with window := w, since := v.since + 1 } }
  else if spreadOf w ≤ l.band then
    s.weighEnds v.req (some (roundDiv w.sum w.length)) (some (w.length, spreadOf w))
  else s.modWu fun u =>
    { u with service := some { v with window := w, since := v.since + 1, judged := some (w.length, spreadOf w) } }

/-! ### BATH_TEMP (R122) -/

/-- An evaluation: a change of the condition is reported, and the first evaluation always (R122). -/
def State.evaluateBath (s : State) : State :=
  let now := s.bathNow
  let held := s.wu.bath.map fun b => b != .absent
  let s := s.modWu fun w => { w with bath := some now }
  if held = some (now != .absent) then s else s.report (.cond .bathTemp none (now != .absent))

/-! ### The scan (R107 to R109) -/

/-- Samples a channel's slot takes: the slot count of the hoist, or one of the temperature (R107). -/
def State.slotOf (s : State) (c : Channel) : Nat :=
  match channelHoist? c with
  | some h => s.kept.weigh.slots[h]
  | none => 1

/-- The first installed hoist at or after a station number with a slot, else the temperature (R107). -/
def State.slotFrom (s : State) (n : Nat) : Channel :=
  match hoists.find? fun h => decide (n ≤ h.val) && s.installed h && decide (0 < s.kept.weigh.slots[h]) with
  | some h => loadChannel h
  | none => tempChannel

/-- A slot begins in full on a channel. -/
def State.beginSlot (s : State) (c : Channel) : ScanPos := { mode := .scan, chan := c, got := 0, want := s.slotOf c }

/-- The slot after that of a channel: the next hoist of the round, the temperature, or a new round (R107). -/
def State.nextSlot (s : State) (c : Channel) : ScanPos :=
  s.beginSlot (if c = tempChannel then s.slotFrom 0 else s.slotFrom (c.val + 1))

/-- The start of a round in SCAN, or the followed hoist with count 0 in FIXED (R109, R124), one that is no longer installed
too (log entry 77). -/
def State.scanAfresh (s : State) : ScanPos :=
  match s.kept.weigh.mode with
  | .scan => s.beginSlot (s.slotFrom 0)
  | .fixed => { mode := .fixed, chan := loadChannel s.kept.weigh.followed, got := 0, want := 0 }

/-- The scan position after a period of the scan, `accepted` telling whether it gave a sample (R107 to R109). -/
def State.scanOn (s : State) (accepted : Bool) : ScanPos :=
  let p := s.wu.scan
  let got := if accepted then p.got + 1 else p.got
  match p.mode with
  | .scan => if p.want ≤ got ∨ s.slotOf p.chan ≤ got then s.nextSlot p.chan else { p with got := got }
  | .fixed =>
    if p.chan = tempChannel then
      if accepted then { p with chan := loadChannel s.kept.weigh.followed, got := 0 } else p
    else if Config.fixedRun ≤ got then { p with chan := tempChannel, got := got } else { p with got := got }

/-- The scan position at which scanning resumes after the last weighing (R116; log entry 72 for a weighing that began at a
temperature visit in FIXED). -/
def State.scanResumed (s : State) : ScanPos :=
  let p := s.wu.scan
  match p.mode with
  | .scan => if s.slotOf p.chan = 0 then s.nextSlot p.chan else s.beginSlot p.chan
  | .fixed => { p with chan := loadChannel s.kept.weigh.followed }

/-! ### The channel of the next period (R109, R111, R112, R116) -/

/-- The channels of an interleave, in order (R112). -/
def State.interleave (s : State) (req : Hoist) : List Channel :=
  ((s.installedHoists.filter fun h => h != req && s.ctxs[h].state.moving).map loadChannel) ++
  (if Config.interleaveTempAge ≤ s.wu.chans[tempChannel].age then [tempChannel] else [])

/-- A period of the service, after one that did or did not give a sample (R112). -/
def State.serviceOn (s : State) (v : Service) (accepted : Bool) : Service :=
  match v.visits with
  | _ :: rest => if accepted then { v with visits := rest, since := if rest.isEmpty then 0 else v.since } else v
  | [] => if Config.interleaveEvery ≤ v.since then { v with visits := s.interleave v.req.hoist } else v

/-- The channel a service samples. -/
def Service.channel (v : Service) : Channel := v.visits.headD (loadChannel v.req.hoist)

/-- A service begins (R111). -/
def State.beginService (s : State) (q : WeighReq) : Service :=
  { req := q, window := [], since := 0, visits := [], timer := s.kept.weigh.limits.timeout, judged := none }

/-- The period under way belongs to a service, or to the scan at a position. -/
def WeighUnit.serving (w : WeighUnit) (v : Service) : WeighUnit :=
  { w with service := some v, chan := v.channel, forService := true }
def WeighUnit.scanning (w : WeighUnit) (p : ScanPos) : WeighUnit :=
  { w with scan := p, chan := p.chan, forService := false, fresh := false }

/-- A service due begins at the next period also after a missed one, whose channel that period keeps (R104, R111; log
entry 35). -/
def State.afterMissed (s : State) : State :=
  match s.wu.service, s.wu.queue with
  | none, q :: _ => s.modWu fun w => { w with service := some (s.beginService q), forService := true }
  | _, _ => s

/-- The channel of the next period is chosen; `accepted` tells whether the period that ended gave a sample. -/
def State.nextPeriod (s : State) (accepted : Bool) : State :=
  match s.wu.service, s.wu.queue with
  | some v, _ => s.modWu fun w => w.serving (s.serviceOn v accepted)
  | none, q :: _ =>
    let scan := if s.wu.forService || s.wu.fresh then s.wu.scan else s.scanOn accepted
    s.modWu fun w => { w with scan := scan }.serving (s.beginService q)
  | none, [] =>
    s.modWu fun w => w.scanning
      (if w.fresh then s.scanAfresh else if w.forService then s.scanResumed else s.scanOn accepted)

end Sys2Proof.Machine
end

