-- ==== Sys2Proof/Machine/ZoneOps.lean ====
section
/-! DEFINITION. The Zone Arbiter: judging a claim, the wait list and its examination, withdrawals, releases, load
withdrawal reports and the skim-due test (R85 to R103). -/

namespace Sys2Proof.Machine

/-! ### Judging a claim (R90) -/

/-- Condition 1: every zone of the span is free or held by the claiming hoist. -/
def State.spanFree (s : State) (c : Claim) : Bool :=
  zones.all fun z => !inSpan c.first c.last z || s.holders[z] == none || s.holders[z] == some c.hoist

/-- Condition 2: runway order against the zones other hoists hold. -/
def State.runwayOk (s : State) (c : Claim) : Bool :=
  zones.all fun z =>
    match s.holders[z] with
    | none => true
    | some j =>
      if j.val < c.hoist.val then decide (zoneNo z < c.first)
      else if c.hoist.val < j.val then decide (c.last < zoneNo z) else true

/-- Condition 3: a clean surface where the claim requires one. -/
def State.cleanOk (s : State) (c : Claim) : Bool :=
  !c.clean || zones.all fun z => !inSpan c.first c.last z || !s.kept.surfaces[z].ashed

def State.grantable (s : State) (c : Claim) : Bool := s.spanFree c && s.runwayOk c && s.cleanOk c

/-- The claim's span shares a zone with a claim of the list (R89, R92). -/
def overlapsAny (c : Claim) (older : List Claim) : Bool := older.any fun o => spansMeet o.first o.last c.first c.last

/-! ### Grants, releases and the wait list -/

/-- The claiming hoist becomes holder of its span and the grant is handed to its dip context (R92, R93). -/
def State.grantClaim (s : State) (c : Claim) : State :=
  let s := { s with holders := s.holders.mapIdx fun i x => if c.first ≤ i + 1 ∧ i + 1 ≤ c.last then some c.hoist else x }
  s.modMail c.hoist fun m => { m with grants := m.grants ++ [⟨c.tag, c.pass, c.serial⟩] }

/-- One walk of the wait list (R92); `older` are the claims that stay, oldest first. -/
def walkWaits (older : List Claim) : List Claim → State → State
  | [], s => { s with waits := older }
  | c :: cs, s =>
    if s.grantable c && !overlapsAny c older then walkWaits older cs (s.grantClaim c) else walkWaits (older ++ [c]) cs s

/-- The examination of the wait list (R92). -/
def State.examine (s : State) : State := walkWaits [] s.waits s

/-- A release, and the examination after it (R95). -/
def State.release (s : State) (h : Hoist) : State :=
  let s := { s with holders := s.holders.map fun x => if x = some h then none else x }
  s.examine

/-- A claim withdrawal (R94). -/
def State.withdrawClaim (s : State) (h : Hoist) : State :=
  if s.waits.any fun c => c.hoist == h then
    let s := { s with waits := s.waits.filter fun c => c.hoist != h }
    s.examine
  else if s.holds h then s.release h else s

/-- A claim arrives: granted, or placed at the newest end of the wait list (R89); the dip context remembers it as its
own outstanding claim (R91). -/
def State.claimArrival (s : State) (h : Hoist) (tag : Nat) (pass : Pass) (p : PassRec) : State :=
  let c : Claim :=
    { hoist := h, tag := tag, pass := pass, first := p.first, last := p.last, clean := (s.kept.profileOf p).clean,
      arrival := s.kept.runtime, alerted := false, serial := s.nextSerial }
  let s := { s with nextSerial := s.nextSerial + 1 }
  let s := s.modCtx h fun x => { x with claim := some c.serial }
  if s.grantable c && !overlapsAny c s.waits then s.grantClaim c else { s with waits := s.waits ++ [c] }

/-! ### The surface (R97, R98) -/

/-- A zone after a withdrawal over it (R97). -/
def Surface.withdrawn (x : Surface) : Surface :=
  { ashed := true, withdrawals := min Config.maxWithdrawals (x.withdrawals + 1) }

/-- A load withdrawal report over a span, with the skim-due test (R97, R98). -/
def State.loadWithdrawn (s : State) (first last : Nat) : State :=
  let s' := s.modKept fun r =>
    { r with surfaces := r.surfaces.mapIdx fun i x => if first ≤ i + 1 ∧ i + 1 ≤ last then x.withdrawn else x }
  s'.markIf (zones.any fun z => s'.skimDue z && !s.skimDue z) .zone

/-- A zone is skim-due at a power-on or RESTART (R102). -/
def State.markSkimDue (s : State) : State := s.markIf (zones.any s.skimDue) .zone

/-- A claim has waited longer than the alert in force and has not been alerted (R96). -/
def State.alertDue (s : State) (c : Claim) : Bool :=
  !c.alerted && decide (s.kept.kettle.waitAlert < s.kept.runtime - c.arrival)

/-- Waiting claims of the hoists given that are due are alerted, with the ZONE notice (R96). -/
def State.alertClaims (s : State) (which : Hoist → Bool) : State :=
  let due := fun c : Claim => which c.hoist && s.alertDue c
  let s' := { s with waits := s.waits.map fun c => if due c then { c with alerted := true } else c }
  s'.markIf (s.waits.any due) .zone

end Sys2Proof.Machine
end

