-- ==== Sys2Proof/Machine/CycleOps.lean ====
section
/-! DEFINITION. The dip context and the Order Queue's take: entering each state, the close of an order, holds, resumes,
the abort path, recalibration, and what a dip context does with a sample (R8 to R16, R24 to R56, R119 to R121). -/

namespace Sys2Proof.Machine

/-! ### The end of an order (R36) -/

/-- An order is closed: it leaves the table, its outcome is the hoist's last closed order, and the dip context enters
PARKED, an event of R9 for the hoist. Every close marks the HOIST notice (R25). -/
def State.closeOrder (s : State) (h : Hoist) (how : Closing) (why : Option CloseReason) : State :=
  let c := s.ctxs[h]
  match c.order with
  | none => s
  | some r =>
    let s := { s with orders := s.orders.filter fun o => o.slot != r.slot }
    let s := s.putCtx h { DipCtx.parked with runEnable := c.runEnable, last := some ⟨r.tag, how, why⟩ }
    (s.mark .hoist).followUp (.take h)

/-- Every reservation the order holds is returned (R66). -/
def State.returnHeld (s : State) (h : Hoist) : State :=
  (s.returnReserve s.ctxs[h].resv).modCtx h fun c => { c with resv := 0 }

/-- An order closed with nothing lowered (R12, R29, R31, R45): the claim withdrawn or the span released, the weigh request
withdrawn, every reservation returned, the order closed. -/
def State.closeUnlowered (s : State) (h : Hoist) (how : Closing) (why : CloseReason) : State :=
  let st := s.ctxs[h].effective
  let s := s.dropWeigh h
  let s := if st = .staged then s.withdrawClaim h else s.release h
  (s.returnHeld h).closeOrder h how (some why)

/-- An order closed in REHANG, between its passes (R14, R45). -/
def State.closeRehang (s : State) (h : Hoist) (why : CloseReason) : State :=
  (s.returnHeld h).closeOrder h .partialDone (some why)

/-! ### STAGED, ALIGNING, WEIGH_IN (R26 to R28) -/

/-- The record of a pass at its start (R26). -/
def DipCtx.beginPass (c : DipCtx) (o : OrderRef) (p : Pass) (resv : Nat) : DipCtx :=
  { DipCtx.parked with
    state := .staged, order := some o, pass := some p, resv := resv, runEnable := c.runEnable, last := c.last }

/-- A pass begins in STAGED with its claim (R26, R89). -/
def State.stage (s : State) (h : Hoist) (o : Order) (p : Pass) (resv : Nat) : State :=
  let s := s.putCtx h (s.ctxs[h].beginPass ⟨o.slot, o.tag⟩ p resv)
  let s := s.modOrder h fun o => { o with state := .active, pass := some p }
  s.claimArrival h o.tag p (o.passRec p)

/-- WEIGH_IN is entered with a weigh request; the align timer is discarded (R28). -/
def State.toWeighIn (s : State) (h : Hoist) : State :=
  (s.putCtx h { s.ctxs[h] with state := .weighIn, heldFrom := none, alignT := none }).placeWeigh h

/-- ALIGNING goes on at once where ALIGNED is present (R27, R28). -/
def State.checkAligned (s : State) (h : Hoist) : State :=
  if s.ctxs[h].state = .aligning ∧ s.inputs[h].aligned = true then s.toWeighIn h else s

/-- A grant is taken by the dip context whose outstanding claim it answers; another is discarded (R27, R93). -/
def State.takeGrant (s : State) (h : Hoist) (g : Grant) : State :=
  let c := s.ctxs[h]
  if c.claim = some g.serial ∧ c.order.map OrderRef.tag = some g.tag ∧ c.pass = some g.pass then
    let c := { c with claim := none, alignT := some (s.kept.cycle.alignTimeout * 10) }
    if c.state = .staged then (s.putCtx h { c with state := .aligning }).checkAligned h
    else if c.state = .held ∧ c.heldFrom = some .staged then s.putCtx h { c with heldFrom := some .aligning }
    else s
  else s

/-! ### The take (R8, R10) -/

/-- The terms of the take condition after the offered order, in the order of R8: each with whether it holds. -/
def State.takeTerms (s : State) (h : Hoist) (passes : Nat) : List Bool :=
  [s.ctxs[h].state == .parked, s.ctxs[h].runEnable, s.drives[h].known, s.kept.bookOpen, !s.inhibit, !s.bench,
   decide (s.used + s.reserved + passes ≤ Config.journalSize)]

/-- A take attempt (R10). -/
def State.attemptTake (s : State) (h : Hoist) : State :=
  match s.offered h with
  | some o =>
    if s.installed h && (s.takeTerms h o.passCount).all id && s.canReserve o.passCount then
      (s.grantReserve o.passCount).stage h o .one o.passCount
    else s
  | none => s

/-! ### REHANG (R37) -/

/-- A remembered REHANG_DONE is acted on in REHANG once no INHIBIT is in force: pass 2 begins with the reservation kept
(R26, R37). -/
def State.rehangGo (s : State) (h : Hoist) : State :=
  match s.orderOf h with
  | some o =>
    if s.ctxs[h].state = .rehang ∧ s.ctxs[h].rehangKept = true ∧ s.inhibit = false then
      s.stage h o .two s.ctxs[h].resv
    else s
  | none => s

/-- REHANG_DONE in REHANG, or in HELD from REHANG (R37). -/
def State.rehangDone (s : State) (h : Hoist) : State :=
  if s.ctxs[h].effective = .rehang then (s.modCtx h fun c => { c with rehangKept := true }).rehangGo h else s

/-! ### Immersion (R30, R32 to R35) -/

/-- The weigh-in lies outside 0.8 to 1.2 times a declared mass (R30, step 3). -/
def massDisagrees (mass : Nat) (w : Int) : Bool :=
  mass != 0 && (decide (12 * (mass : Int) < 10 * w) || decide (10 * w < 8 * (mass : Int)))

/-- The drain position of a pass (R30, step 2). -/
def KettleSet.drainPosition (k : KettleSet) (p : PassRec) : Nat := k.clearance - p.drop

/-- A weigh-in OK: LOWERING begins with its PICKUP entry written (R30). -/
def State.beginLowering (s : State) (h : Hoist) (o : Order) (p : Pass) (w : Int) : State :=
  let rec_ := o.passRec p
  let l : Latched :=
    { profile := s.kept.profileOf rec_, drainPos := KettleSet.drainPosition s.kept.kettle rec_,
      overrun := s.kept.cycle.overrun }
  let flags := { s.ctxs[h].flags with massDisagree := massDisagrees o.mass w }
  let seq := s.kept.nextSeq
  let s := s.writePickup h o.tag p (rec_.first, rec_.last) w l.profile.dwell flags
  let c := s.ctxs[h]
  let s := s.setCtx h
    { c with state := .lowering, weighIn := some w, latched := some l, flags := flags, entered := true,
             entrySeq := some seq, resv := c.resv - 1, asked := .none }
  s.startMotion h (.move rec_.target l.profile.entrySpeed)

/-- A latched parameter of the pass, or the given value without one. -/
def DipCtx.latchedOr (c : DipCtx) (f : Latched → Nat) (d : Nat) : Nat := (c.latched.map f).getD d

/-- The hook is commanded up to the drain position at a rate (R33, R44, R47). -/
def State.liftOut (s : State) (h : Hoist) (rate : Nat) : State :=
  s.startMotion h (.lift (s.ctxs[h].latchedOr Latched.drainPos 0) rate)

/-- LIFTING is entered (R33). -/
def State.toLifting (s : State) (h : Hoist) : State :=
  (s.setCtx h { s.ctxs[h] with state := .lifting, heldFrom := none, dwellT := none }).liftOut h
    (s.ctxs[h].latchedOr (fun l => l.profile.withdrawal) 1)

/-- A pass that leaves LOWERING without contact carries NO_CONTACT (R32, R60). -/
def DipCtx.leaveLowering (c : DipCtx) : DipCtx :=
  if c.effective = .lowering ∧ c.contact = false then { c with flags := { c.flags with noContact := true } } else c

/-- ABORT_LIFT is entered (R47). -/
def State.toAbortLift (s : State) (h : Hoist) : State :=
  (s.setCtx h { s.ctxs[h].leaveLowering with state := .abortLift, heldFrom := none, dwellT := none }).liftOut h
    s.kept.cycle.abortSpeed

/-- Arrival at the hook target depth: DWELL (R32, R33). -/
def State.toDwell (s : State) (h : Hoist) : State :=
  let c := s.ctxs[h].leaveLowering
  let clock := if c.contact then c.clock else ⟨.running, 0⟩
  s.putCtx h { c with state := .dwell, clock := clock, dwellT := some (c.latchedOr (fun l => l.profile.dwell) 0) }

/-- The drain end: release, WEIGH_OUT, weigh request (R35). -/
def State.drainEnd (s : State) (h : Hoist) : State :=
  let s := s.release h
  (s.putCtx h { s.ctxs[h] with state := .weighOut, drainT := none, drainExpired := false }).placeWeigh h

/-- DRAIN ends once the drain timer has reached zero, the shake is done and the hook is at the drain position (R35, R44;
log entry 42). -/
def State.drainCheck (s : State) (h : Hoist) : State :=
  let c := s.ctxs[h]
  if c.state = .drain ∧ c.shakeDone = true ∧ c.returning = false ∧ (c.drainT = some 0 ∨ c.drainExpired = true) then
    s.drainEnd h
  else s

/-- The withdrawal of the pass's span is reported once (R34, R97). -/
def State.reportWithdrawal (s : State) (h : Hoist) : State :=
  match s.passOf h with
  | some p => if s.ctxs[h].entered then s.loadWithdrawn p.first p.last else s
  | none => s

/-- The immersion clock stops. -/
def Clock.stop (c : Clock) : Clock := if c.run = .running then { c with run := .stopped } else c

/-- DRAIN is entered with a load out of the zinc: the clock stops, the withdrawal is reported, the drain timer is loaded
(R34, R50). The conditions of R38 are reported by the shake it starts, or by `toDrainStill`. -/
def State.toDrain (s : State) (h : Hoist) (timer : Nat) (shakeDone : Bool) : State :=
  let s := s.reportWithdrawal h
  let c := s.ctxs[h]
  s.setCtx h
    { c with state := .drain, heldFrom := none, ret := none, clock := c.clock.stop, entered := false,
             drainT := some timer, drainExpired := false, shakeDone := shakeDone, returning := false, recalAbort := false }

/-- DRAIN is entered without a shake: the conditions of R38 afresh, and the drain end where the timer is at zero. -/
def State.toDrainStill (s : State) (h : Hoist) (timer : Nat) : State :=
  ((s.toDrain h timer true).reportConds h).drainCheck h

/-- Arrival at the drain position in LIFTING: DRAIN with its shake (R34). -/
def State.drainFromLifting (s : State) (h : Hoist) (l : Latched) : State :=
  if l.profile.shakes = 0 then s.toDrainStill h l.profile.drain
  else (s.toDrain h l.profile.drain false).startMotion h (.shake l.profile.shakes l.profile.amplitude)

/-- DRAIN on the abort path: the abort drain time, no shake (R34, R47, R50). -/
def State.drainAborted (s : State) (h : Hoist) : State := s.toDrainStill h s.kept.cycle.abortDrain

/-- The end of WEIGH_OUT with its entry finalised: REHANG, or the close (R36). -/
def State.endPass (s : State) (h : Hoist) : State :=
  let c := s.ctxs[h]
  match s.orderOf h with
  | some o =>
    if c.pass = some .one ∧ o.pass2.isSome = true ∧ o.closePending = false then
      let s := s.modOrder h fun o => { o with state := .rehang }
      s.putCtx h { c with state := .rehang, latched := none, weighIn := none, entrySeq := none, rehangKept := false,
                          asked := .none }
    else if o.closePending then s.closeOrder h .aborted c.closeReason else s.closeOrder h .done none
  | none => s

/-- A weigh result taken in WEIGH_OUT (R35). -/
def State.weighedOut (s : State) (h : Hoist) (value : Option Int) : State :=
  let c := s.ctxs[h]
  let flags := match value, c.weighIn with
    | some o, some i => { c.flags with negative := c.flags.negative || decide (o < i) }
    | some _, none => c.flags
    | none, _ => { c.flags with unweighed := true }
  let s := if value.isNone then s.raise .weighUnstable h else s
  let s := match c.entrySeq with
    | some n => s.finalisePickup n value c.clock.tenths flags
    | none => s
  (s.modCtx h fun c => { c with flags := flags, asked := .none }).endPass h

/-- A weigh result is taken for the request the dip context has placed for that order and pass; another is discarded
(R30, R31, R35, R115). -/
def State.takeResult (s : State) (h : Hoist) (a : WeighAnswer) : State :=
  let c := s.ctxs[h]
  if c.asked = .placed ∧ c.order.map OrderRef.tag = some a.tag ∧ c.pass = some a.pass then
    match c.state, s.orderOf h, a.value with
    | .weighIn, some o, some w => s.beginLowering h o a.pass w
    | .weighIn, _, none => (s.raise .weighUnstable h).closeUnlowered h .aborted .weighInFailed
    | .weighOut, _, v => s.weighedOut h v
    | _, _, _ => s
  else s

/-! ### Holds (R41, R43) -/

/-- DWELL_OVERRUN is raised once a pass (R43). -/
def State.checkOverrun (s : State) (h : Hoist) : State :=
  if s.ctxs[h].overrunDue then
    (s.modCtx h fun c => { c with overrunRaised := true, flags := { c.flags with overdwell := true } }).raise .dwellOverrun h
  else s

/-- The reports of failed motions still in transit are gone: found after the hold, they find no motion and change
nothing (R56; log entry 24). -/
def State.dropFailures (s : State) (h : Hoist) : State :=
  s.modMail h fun m => { m with motions := m.motions.filter fun r => r.cause.isNone }

/-- HELD is entered from any state but PARKED and HELD (R41). -/
def State.enterHeld (s : State) (h : Hoist) : State :=
  let c := s.ctxs[h]
  if c.state = .parked ∨ c.state = .held then s
  else
    let s := ((s.cancelMotion h).dropWeigh h).dropFailures h
    let s := s.putCtx h
      { s.ctxs[h] with state := .held, heldFrom := some c.state, snag := false, lost := false, returning := false }
    s.checkOverrun h

/-- A failed motion takes the dip context into HELD before any reaction to its fault reaches it (R40, R177; log
entry 24). -/
def State.holdFailed (s : State) (h : Hoist) : State :=
  if s.mail[h].motions.any fun r => r.cause.isSome then s.enterHeld h else s

/-! ### The abort path (R45, R46) -/

/-- The order is turned onto the abort path: close pending and reason, ABORTED where an entry exists, the reservation of
pass 2 returned (R45). -/
def State.turnAborted (s : State) (h : Hoist) (why : CloseReason) : State :=
  let s := s.modOrder h fun o => { o with closePending := true }
  let s := s.modCtx h fun c =>
    { c with closeReason := some why, flags := { c.flags with aborted := c.flags.aborted || c.entrySeq.isSome } }
  s.returnHeld h

/-- DRAIN cut short (R45): the drain end follows, after a return of the hook where it is away. -/
def State.cutDrain (s : State) (h : Hoist) : State :=
  let c := s.ctxs[h]
  let pos := c.latchedOr Latched.drainPos 0
  let away := decide (pos < s.drives[h].count)
  let s := s.modCtx h fun c => { c with shakeDone := true, drainT := some 0, returning := away }
  if away then s.startMotion h (.move pos s.kept.drive.shakeSpeed) else (s.cancelMotion h).drainCheck h

/-- PARKED from a recalibration without an order, given up (R45, R46): an event of R9 for the hoist. -/
def State.parkRecal (s : State) (h : Hoist) : State :=
  ((s.cancelMotion h).putCtx h { s.ctxs[h] with state := .parked, heldFrom := none, ret := none }).followUp (.take h)

/-- What an abort does by state, the order already on the abort path (R45, R46). -/
def State.abortBy (s : State) (h : Hoist) (why : CloseReason) : State :=
  let c := s.ctxs[h]
  match c.effective with
  | .staged | .aligning | .weighIn => s.closeUnlowered h .aborted why
  | .rehang => s.closeRehang h why
  | .lowering | .dwell | .lifting =>
    if c.state = .held then s.putCtx h { c.leaveLowering with heldFrom := some .abortLift, dwellT := none }
    else s.toAbortLift h
  | .drain =>
    if c.state = .held then s.modCtx h fun c => { c with drainExpired := true, shakeDone := true } else s.cutDrain h
  | .recal => s.modCtx h fun c => { c with recalAbort := decide (c.ret = some .drain) || c.recalAbort }
  | _ => s

/-- An abort, by request or reaction (R45, R46); in PARKED it has no effect. -/
def State.abort (s : State) (h : Hoist) (why : CloseReason) : State :=
  let c := s.ctxs[h]
  if c.order.isNone then if c.effective = .recal ∧ c.ret = some .parked then s.parkRecal h else s
  else if s.closePending h then s
  else (s.turnAborted h why).abortBy h why

/-! ### Recalibration (R48 to R50) -/

/-- RECAL is entered (R48). -/
def State.toRecal (s : State) (h : Hoist) (ret : Option DipState) : State :=
  (s.setCtx h { s.ctxs[h] with state := .recal, heldFrom := none, ret := ret }).startMotion h .recal

/-- RECAL with the load in the zinc: the order is turned onto the abort path with reason RECAL unless it already is, and
the pass carries RECAL_EXIT (R50). -/
def State.recalWithLoad (s : State) (h : Hoist) : State :=
  let s := if s.closePending h then s else s.turnAborted h .recal
  let c := s.ctxs[h].leaveLowering
  (s.modCtx h fun _ => { c with flags := { c.flags with recalExit := true }, dwellT := none }).toRecal h none

/-- A resume with the position unknown (R48): with the load in the zinc, or with the held-from state as return state. -/
def State.resumeRecal (s : State) (h : Hoist) (st : DipState) : State :=
  let c := s.ctxs[h]
  if st = .recal then s.toRecal h c.ret
  else if st.loadBelow then s.recalWithLoad h
  else s.toRecal h (some st)

/-! ### Resumes (R44) -/

/-- DRAIN is entered again (R44): unfinished shake cycles are dropped, the hook returns where it is away. -/
def State.resumeDrain (s : State) (h : Hoist) : State :=
  let c := s.ctxs[h]
  let pos := c.latchedOr Latched.drainPos 0
  let away := decide (pos < s.drives[h].count)
  let s := s.setCtx h { c with state := .drain, heldFrom := none, ret := none, shakeDone := true, returning := away }
  if away then s.startMotion h (.move pos s.kept.drive.shakeSpeed) else (s.reportConds h).drainCheck h

/-- A held-from state is entered again with the position known (R44). -/
def State.resumeInto (s : State) (h : Hoist) (st : DipState) : State :=
  let c := { s.ctxs[h] with state := st, heldFrom := none, ret := none }
  match st with
  | .aligning => (s.putCtx h c).checkAligned h
  | .weighIn | .weighOut => (s.putCtx h c).placeWeigh h
  | .lowering =>
    (s.setCtx h c).startMotion h
      (.move (((s.passOf h).map PassRec.target).getD 0) (c.latchedOr (fun l => l.profile.entrySpeed) 1))
  | .dwell => if c.dwellT = some 0 then s.toLifting h else s.putCtx h c
  | .lifting => s.toLifting h
  | .drain => s.resumeDrain h
  | .rehang => (s.putCtx h c).rehangGo h
  | .abortLift => s.toAbortLift h
  | .recal => s.toRecal h s.ctxs[h].ret
  | .staged | .parked | .held => s.putCtx h c

/-- The resume of a hold from a held-from state (R44, step 3 and after). -/
def State.resumeFrom (s : State) (h : Hoist) (st : DipState) : State :=
  if s.drives[h].known then s.resumeInto h st else s.resumeRecal h st

/-- The drain after a recalibration with return state DRAIN: no shake, no return, the abort drain time after an abort
(R45, R49). -/
def State.drainAfterRecal (s : State) (h : Hoist) : State :=
  let c := s.ctxs[h]
  let c := if c.recalAbort then { c with drainT := some s.kept.cycle.abortDrain, drainExpired := false } else c
  (s.putCtx h { c with state := .drain, ret := none, shakeDone := true, returning := false, recalAbort := false }).drainCheck h

/-- TOP has ended the recalibration (R49, R50). -/
def State.recalDone (s : State) (h : Hoist) : State :=
  let c := s.ctxs[h]
  match c.ret with
  | none => s.drainAborted h
  | some .parked => (s.putCtx h { c with state := .parked, ret := none }).followUp (.take h)
  | some .drain => s.drainAfterRecal h
  | some st => s.resumeInto h st

/-! ### Motion reports (R33, R34, R40, R49) -/

/-- LOWERING's MOVE has run up from below its target and TOP has ended it, the hook at 0: no motion runs and none has
failed (R147; log entry 70). -/
def State.endedAtTop (s : State) (h : Hoist) : Bool :=
  s.drives[h].count == 0 && s.drives[h].motion.isNone && s.mail[h].motions.all fun r => r.cause.isNone

/-- An upward MOVE ended by TOP in LOWERING is taken as the drain position reached, as from LIFTING (R34, R147; log
entry 70). -/
def State.drainFromLowering (s : State) (h : Hoist) (l : Latched) : State :=
  (s.modCtx h DipCtx.leaveLowering).drainFromLifting h l

/-- The dip context takes a reached report by its state (R33, R34, R49, R147, R157; log entry 24). -/
def State.takeReached (s : State) (h : Hoist) (m : Moved) : State :=
  let c := s.ctxs[h]
  let pos := s.drives[h].count
  match c.state, m, c.latched with
  | .lowering, .move, some l =>
    if (s.passOf h).map PassRec.target = some pos then s.toDwell h
    else if s.endedAtTop h then s.drainFromLowering h l
    else s
  | .lifting, .move, some l => if pos ≤ l.drainPos then s.drainFromLifting h l else s
  | .abortLift, .move, some l => if pos ≤ l.drainPos then s.drainAborted h else s
  | .drain, .shake, _ => (s.modCtx h fun c => { c with shakeDone := true }).drainCheck h
  | .drain, .move, _ => if s.drives[h].motion.isNone then
      (s.modCtx h fun c => { c with returning := false }).drainCheck h else s
  | .recal, .recal, _ => if s.drives[h].known then s.recalDone h else s
  | _, _, _ => s

/-! ### Samples (R32, R39, R119 to R121) -/

/-- The contact sample (R32): the clock starts, the capture goes to the Level Unit, the depth to the book. -/
def State.contactSeen (s : State) (h : Hoist) (tag : Nat) (pass : Pass) (drop : Nat) : State :=
  let pos := s.drives[h].count
  let s := s.putCtx h { s.ctxs[h] with contact := true, clock := ⟨.running, 0⟩ }
  let s := s.modMail h fun m =>
    { m with level := m.level ++ [.capture
        { hoist := h, tag := tag, pass := pass, position := pos, drop := drop, depth := pos + drop, time := s.tenthsCount,
          displaced := false }] }
  match s.ctxs[h].entrySeq with
  | some n => s.bookSurface n (pos + drop)
  | none => s

/-- The contact check of a sample (R32). -/
def State.checkContact (s : State) (h : Hoist) (v : Int) : State :=
  let c := s.ctxs[h]
  match c.weighIn, c.order, c.pass, s.passOf h with
  | some w, some o, some p, some rec_ =>
    if c.state = .lowering ∧ c.contact = false ∧ (s.kept.weigh.limits.contact : Int) < w - v then
      s.contactSeen h o.tag p rec_.drop
    else s
  | _, _, _, _ => s

/-- The snag check (R119): raised once an excursion, before the load-lost check of the same sample (log entry 71). -/
def State.checkSnag (s : State) (h : Hoist) (v w : Int) : State :=
  if w + s.kept.weigh.limits.snag < v then
    if s.ctxs[h].snag then s else (s.modCtx h fun c => { c with snag := true }).raise .snag h
  else s.modCtx h fun c => { c with snag := false }

/-- The load-lost check (R120). -/
def State.checkLost (s : State) (h : Hoist) (v : Int) : State :=
  if v < s.kept.weigh.limits.slack then
    if s.ctxs[h].lost then s else (s.modCtx h fun c => { c with lost := true }).raise .loadLost h
  else s.modCtx h fun c => { c with lost := false }

/-- A sample delivered to its dip context (R39): the starved mark goes, then the checks of the state. -/
def State.deliverSample (s : State) (h : Hoist) (v : Int) : State :=
  let s := (s.modCtx h fun c => { c with starved := false }).checkContact h v
  match s.ctxs[h].weighIn with
  | some w => if s.ctxs[h].state.monitored && s.ctxs[h].latched.isSome then (s.checkSnag h v w).checkLost h v else s
  | none => s

/-- The reading-age check of a hoist at the end of a sample period (R121). -/
def State.checkAge (s : State) (h : Hoist) : State :=
  if s.ctxs[h].state.moving && decide (s.kept.weigh.limits.ageLimit < s.wu.chans[loadChannel h].age) &&
     !s.ctxs[h].starved then
    (s.modCtx h fun c => { c with starved := true }).raise .scanStarved h
  else s

end Sys2Proof.Machine
end

