-- ==== Sys2Proof/Machine/FaultOps.lean ====
section
/-! DEFINITION. The Fault Collector's taking of occurrences and condition reports, the application of reactions, the end
of the INHIBIT, and the working off of the agenda at the end of a step (R175 to R188; log entries 13, 14). -/

namespace Sys2Proof.Machine

/-! ### Reactions (R177) -/

/-- A hold or abort handed to one dip context, which finds it HELD where its motion has failed. -/
def State.react (r : Reaction) (s : State) (h : Hoist) : State :=
  match r with
  | .hold => s.enterHeld h
  | .abort => (s.holdFailed h).abort h .fault
  | _ => s

/-- The hoists of a set, ascending. -/
def members (v : Vector Bool 4) : List Hoist := hoists.filter fun h => v[h]

/-- A reaction is applied to a set of hoists in ascending number (log entry 62); STOP_ALL holds every dip context that
is not PARKED (R177). -/
def State.applyReaction (s : State) (r : Reaction) (set : List Hoist) : State :=
  let s := s.markIf r.notifies .fault
  if r = .stopAll then hoists.foldl State.enterHeld s else set.foldl (State.react r) s

/-! ### Occurrences (R179, R181) -/

/-- The beacon minimum is restarted by a kind whose beacon flag is yes (R185). -/
def State.loadBeacon (s : State) (k : FaultKind) : State :=
  if s.kept.faults[k.ix].beacon then { s with beaconT := some s.kept.beaconMin } else s

/-- The hoist a report names, where it is installed (R175). -/
def State.named (s : State) (h : Option Hoist) : Option Hoist :=
  match h with
  | some x => if s.installed x then some x else none
  | none => none

/-- The involved set of a latch (R179). -/
def State.involvedAtLatch (s : State) (k : FaultKind) (h : Option Hoist) : Vector Bool 4 :=
  if k = .drivePowerLoss then (Vector.replicate 4 false).mapIdx fun i _ => decide (i ≤ s.link.straps.hoists.val)
  else match s.named h with
    | some x => (Vector.replicate 4 false).set x true
    | none => Vector.replicate 4 false

/-- An occurrence on a CLEAR entry (R179). -/
def State.latch (s : State) (k : FaultKind) (h : Option Hoist) : State :=
  let delay := s.kept.faults[k.ix].delay
  let set := s.involvedAtLatch k h
  let s := s.modEntry k fun e =>
    { e with state := if delay = 0 then .active else .alarm, involved := set, firstTime := some s.kept.runtime,
             lastTime := some s.kept.runtime, count := some 1, alarmT := if delay = 0 then none else some (delay * 10) }
  let s := s.loadBeacon k
  if delay = 0 then s.applyReaction (s.reactionOf k) (members set) else s

/-- The hoist a second occurrence adds to the involved set, under STOP_ALL too (R181; log entry 75). -/
def State.gained (s : State) (k : FaultKind) (h : Option Hoist) : Option Hoist :=
  (s.named h).filter fun x => !s.entries[k.ix].involved[x]

/-- An entry after a second occurrence (R181). -/
def FaultEntry.again (e : FaultEntry) (now : Nat) (gained : Option Hoist) : FaultEntry :=
  { e with lastTime := some now, count := some (min Config.maxOccurrences (e.count.getD 0 + 1)),
           involved := match gained with
             | some x => e.involved.set x true
             | none => e.involved }

/-- A second occurrence reaches an ACTIVE entry: its notice, and its reaction for a hoist that joins (R181). -/
def State.reactAgain (s : State) (k : FaultKind) (gained : Option Hoist) : State :=
  let s := s.markIf (s.reactionOf k).notifies .fault
  match gained with
  | some x => s.react (s.reactionOf k) x
  | none => s

/-- A second occurrence (R181). -/
def State.secondOccurrence (s : State) (k : FaultKind) (h : Option Hoist) : State :=
  let gained := s.gained k h
  let s := (s.modEntry k fun e => e.again s.kept.runtime gained).loadBeacon k
  if s.entries[k.ix].state = .active then s.reactAgain k gained else s

/-- An occurrence (R176, R179, R181). -/
def State.occurrence (s : State) (k : FaultKind) (h : Option Hoist) : State :=
  if s.entries[k.ix].latched then s.secondOccurrence k h else s.latch k h

/-- The value of a condition as last reported (R176). -/
def FaultEntry.reported (e : FaultEntry) (h : Option Hoist) : Bool :=
  match h with
  | some x => e.present[x]
  | none => e.presentLine

/-- The Fault Collector keeps the reported value (R176). -/
def FaultEntry.keepValue (e : FaultEntry) (h : Option Hoist) (present : Bool) : FaultEntry :=
  match h with
  | some x => { e with present := e.present.set x present }
  | none => { e with presentLine := present }

/-- A report is taken (R176): a condition newly present is an occurrence, but for DRIVE_FAULT, whose condition latches
nothing. -/
def State.takeReport (s : State) (r : FaultReport) : State :=
  match r with
  | .occur k h => s.occurrence k h
  | .cond k h present =>
    let before := s.entries[k.ix].reported h
    let s := s.modEntry k fun e => e.keepValue h present
    if present && !before && k != .driveFault then s.occurrence k h else s

/-! ### The agenda worked off (log entries 13, 14) -/

/-- One item of the agenda: the oldest report, else the oldest follow-up. -/
def State.settleOne (s : State) : State :=
  match s.agenda.reports, s.agenda.follow with
  | r :: rs, _ => { s with agenda := { s.agenda with reports := rs } }.takeReport r
  | [], .take h :: fs => { s with agenda := { s.agenda with follow := fs } }.attemptTake h
  | [], .rehang h :: fs => { s with agenda := { s.agenda with follow := fs } }.rehangGo h
  | [], [] => s

/-- At most `n` items of the agenda. -/
def settleFor : Nat → State → State
  | 0, s => s
  | n + 1, s => if s.agenda = Agenda.empty then s else settleFor n s.settleOne

/-- The agenda worked off at the end of a step. -/
def State.settle (s : State) : State := settleFor Config.agendaBound s

/-! ### The end of the INHIBIT (R177) -/

/-- Where the INHIBIT was in force before and is not now, every installed hoist's take condition is evaluated and a
remembered REHANG_DONE is acted on (R9, R37, R177; log entry 15). -/
def State.inhibitEnd (s : State) (before : Bool) : State :=
  if before && !s.inhibit then s.installedHoists.foldl (fun s h => s.followUp (.rehang h)) s.takeAll else s

end Sys2Proof.Machine
end

