-- ==== Sys2Proof/Machine/Frames.lean ====
section
/-! DEFINITION. The wire form of both serial lines: field and frame bytes, the frame check, the building of
received frames, and the table of request kinds with the lengths the link accepts (R158, R159, R189 to R193). -/

namespace Sys2Proof.Machine

/-! ### Fields -/

/-- A number in `w` bytes, least significant byte first, in two's complement (R189, R193). -/
def bytesOf (w : Nat) (v : Int) : List Byte := (List.range w).map fun i => BitVec.ofInt 8 (v / (256 : Int) ^ i)

/-- One field of a payload on the wire. -/
def Field.bytes (f : Field) : List Byte := bytesOf f.1 f.2

/-- A natural number as a field. -/
def fN (w n : Nat) : Field := (w, (n : Int))

/-- A yes/no value as a field (R192); on and off, high and low, and the marks and states of log entry 79 are sent so too. -/
def fB (b : Bool) : Field := (1, if b then 1 else 0)

/-- An optional field: a presence byte, then the value, or zeros at its full size (R193). -/
def fOpt (w : Nat) (v : Option Int) : List Field :=
  match v with
  | some x => [(1, 1), (w, x)]
  | none => [(1, 0), (w, 0)]

def fOptN (w : Nat) (v : Option Nat) : List Field := fOpt w (v.map Int.ofNat)

/-- A set as a number with a bit a member, the first member least significant (R193). -/
def setBits : List Bool → Nat
  | [] => 0
  | b :: bs => (if b then 1 else 0) + 2 * setBits bs

/-- A byte string as fields of one byte each. -/
def fBytes (bs : List Byte) : List Field := bs.map fun b => (1, (b.toNat : Int))

/-! ### The frame check (R189) -/

/-- One shift of the check register with generator x^16 + x^12 + x^5 + 1. -/
def crcBit (r : CheckWord) : CheckWord := if r.msb then (r <<< 1) ^^^ 0x1021#16 else r <<< 1

/-- One byte shifted in, most significant bit first. -/
def crcByte (r : CheckWord) (b : Byte) : CheckWord :=
  (List.range 8).foldl (fun r _ => crcBit r) (r ^^^ (b.setWidth 16 <<< 8))

/-- The check over a byte string: the register starts at FFFFh and the result is not inverted. -/
def crc (bs : List Byte) : CheckWord := bs.foldl crcByte 0xFFFF#16

/-- The two check bytes, high byte first. -/
def checkBytes (bs : List Byte) : List Byte := [(crc bs >>> 8).setWidth 8, (crc bs).setWidth 8]

/-- A whole frame: start byte, header bytes, payload, check over header and payload (R158, R189). -/
def frameBytes (start : Byte) (header payload : List Byte) : List Byte :=
  start :: (header ++ payload ++ checkBytes (header ++ payload))

/-- Payload of a reply: the result code, then the fields (R193). -/
def Reply.payload (r : Reply) : List Byte := bytesOf 1 r.result.code ++ r.fields.flatMap Field.bytes

/-- The bytes of a frame on CL_TX (R189, R196): a notice has kind E0h and tag 0, and its class number comes first. -/
def TxFrame.bytes : TxFrame → List Byte
  | .reply r =>
    frameBytes Config.linkStart (bytesOf 1 r.kind ++ bytesOf 1 r.tag ++ bytesOf 1 r.payload.length) r.payload
  | .notice c fs =>
    let p := bytesOf 1 c.number ++ fs.flatMap Field.bytes
    frameBytes Config.linkStart (bytesOf 1 Config.noticeKind ++ bytesOf 1 0 ++ bytesOf 1 p.length) p

/-- The bytes of a frame on FD_TX (R158, R159, R170): there is no tag byte, and DISPENSE has kind 01h. -/
def FeederTx.bytes : FeederTx → List Byte
  | .dispense n => frameBytes Config.feederStart (bytesOf 1 1 ++ bytesOf 1 1) (bytesOf 1 n)
  | .relayed k p => frameBytes Config.feederStart (bytesOf 1 k ++ bytesOf 1 p.length) p

/-! ### Building received frames -/

/-- What the byte just received brings about. -/
inductive RxEvent where
  | nothing
  | overLength
  | badCheck
  | frame (header payload : List Byte)
deriving DecidableEq, Repr

/-- One received byte (R159, R190): `start` begins a frame, a frame has `head` header bytes, the last of them the
payload length. Answers the frame being built and what came about. -/
def receive (start : Byte) (head : Nat) (buf : List Byte) (b : Byte) : List Byte × RxEvent :=
  match buf with
  | [] => (if b == start then [b] else [], .nothing)
  | _ :: rest =>
    let body := rest ++ [b]
    let len := (body.getD (head - 1) 0).toNat
    if body.length == head && decide (Config.maxPayload < len) then ([], .overLength)
    else if body.length == head + len + 2 && decide (head ≤ body.length) then
      let data := body.take (head + len)
      ([], if checkBytes data == body.drop (head + len) then .frame (data.take head) (data.drop head) else .badCheck)
    else (buf ++ [b], .nothing)

/-! ### Request kinds (R192) -/

/-- The request kinds of the Command Link. -/
inductive ReqKind where
  | identify | status | restart | noticeSetup | inputRead | orderPost | orderCancel | orderQuery | queueList
  | profileWrite | profileRead | hoistStatus | hoistRun | hoistStop | hoistHold | hoistResume | hoistAbort | rehangDone
  | cycleSetup | bookOpen | bookPost | bookRead | bookTrim | bookSummary | kettleSetup | skimDone | zoneStatus | weighNow
  | weighRead | weighSetup | levelSetup | levelRead | driveSetup | benchEnter | benchDrive | benchNotices | benchExit
  | feed | feederRelay | feedSetup | feedRead | faultAck | faultSetup | faultList
deriving DecidableEq, Repr

def reqKinds : List ReqKind :=
  [.identify, .status, .restart, .noticeSetup, .inputRead, .orderPost, .orderCancel, .orderQuery, .queueList,
   .profileWrite, .profileRead, .hoistStatus, .hoistRun, .hoistStop, .hoistHold, .hoistResume, .hoistAbort, .rehangDone,
   .cycleSetup, .bookOpen, .bookPost, .bookRead, .bookTrim, .bookSummary, .kettleSetup, .skimDone, .zoneStatus, .weighNow,
   .weighRead, .weighSetup, .levelSetup, .levelRead, .driveSetup, .benchEnter, .benchDrive, .benchNotices, .benchExit,
   .feed, .feederRelay, .feedSetup, .feedRead, .faultAck, .faultSetup, .faultList]

def ReqKind.code : ReqKind → Nat
  | .identify => 0x01 | .status => 0x02 | .restart => 0x03 | .noticeSetup => 0x04 | .inputRead => 0x05
  | .orderPost => 0x10 | .orderCancel => 0x11 | .orderQuery => 0x12 | .queueList => 0x13 | .profileWrite => 0x14
  | .profileRead => 0x15 | .hoistStatus => 0x18 | .hoistRun => 0x19 | .hoistStop => 0x1A | .hoistHold => 0x1B
  | .hoistResume => 0x1C | .hoistAbort => 0x1D | .rehangDone => 0x1E | .cycleSetup => 0x1F | .bookOpen => 0x20
  | .bookPost => 0x21 | .bookRead => 0x22 | .bookTrim => 0x23 | .bookSummary => 0x24 | .kettleSetup => 0x28
  | .skimDone => 0x29 | .zoneStatus => 0x2A | .weighNow => 0x30 | .weighRead => 0x31 | .weighSetup => 0x32
  | .levelSetup => 0x34 | .levelRead => 0x35 | .driveSetup => 0x38 | .benchEnter => 0x39 | .benchDrive => 0x3A
  | .benchNotices => 0x3B | .benchExit => 0x3C | .feed => 0x40 | .feederRelay => 0x41 | .feedSetup => 0x42
  | .feedRead => 0x43 | .faultAck => 0x48 | .faultSetup => 0x49 | .faultList => 0x4A

/-- The request kind of a kind code; reply kinds, the notice kind and codes with no meaning have none (R191). -/
def reqKind? (code : Nat) : Option ReqKind := reqKinds.find? fun k => k.code == code

/-- The payload lengths the link accepts for a kind (R192). -/
def ReqKind.lengthOk (k : ReqKind) (n : Nat) : Bool :=
  match k with
  | .identify | .status | .restart | .inputRead | .queueList | .bookSummary | .zoneStatus | .weighRead | .benchEnter
  | .benchNotices | .benchExit | .feedRead => n == 0
  | .profileRead | .hoistStatus | .hoistRun | .hoistStop | .hoistHold | .hoistResume | .hoistAbort | .rehangDone
  | .weighNow | .feed | .faultAck => n == 1
  | .orderCancel | .orderQuery | .bookOpen | .bookRead | .bookTrim => n == 4
  | .noticeSetup => n == 0 || n == 6
  | .orderPost => n == 17 || n == 24
  | .profileWrite => n == 11
  | .cycleSetup => n == 0 || n == 8
  | .bookPost => n == 6
  | .kettleSetup => n == 0 || n == 7
  | .skimDone => n == 2
  | .weighSetup => n == 0 || n == 55
  | .levelSetup => n == 0 || n == 12
  | .levelRead => n == 0 || n == 1
  | .driveSetup => n == 0 || n == 7
  | .benchDrive => n == 9
  | .feederRelay => within n 1 240
  | .feedSetup => n == 0 || n == 14
  | .faultSetup => n == 1 || n == 3 || n == 5
  | .faultList => n == 0 || n == 1

/-- The kind of a reply to a frame of kind `code` (R191). -/
def replyKind (code : Nat) : Nat := (code + 0x80) % 256

end Sys2Proof.Machine
end

