-- ==== Sys2Proof/Machine/LinkOps.lean ====
section
/-! DEFINITION. The Command Link around a command: the snapshots of notices, the transmitter's choice, the receipt and
the reply of a request, the end of a step, the change latches (R189 to R199). -/

namespace Sys2Proof.Machine

/-! ### Fields shared by notices and replies -/

/-- An optional group of fields: a presence byte, then the fields, or zeros in their widths (R193; log entry 20). -/
def fRec (widths : List Nat) (v : Option (List Field)) : List Field :=
  match v with
  | some fs => (1, 1) :: fs
  | none => (1, 0) :: widths.map fun w => (w, 0)

/-- A holder: the hoist number, or 0 for none (log entry 20). -/
def fHolder (h : Option Hoist) : Field := fN 1 ((h.map hoistNo).getD 0)

/-- A last closed order, or none (R53, R196). -/
def fClosed (c : Option Closed) : List Field :=
  fRec [4, 1, 1, 1] (c.map fun x => [fN 4 x.tag, fN 1 x.closing.code] ++ fOptN 1 (x.reason.map CloseReason.code))

/-- The last outcome of the Feeder Line with ingots asked, count booked, and the feeder total or reason (R160, R172; log
entry 67 for the layout). -/
def fOutcome (r : Option FeedRecord) : List Field :=
  match r with
  | none => [fN 1 0, fN 1 0, fN 1 0] ++ fOptN 1 none
  | some x =>
    [fN 1 x.outcome.code, fN 1 x.asked, fN 1 x.booked] ++ fOptN 1 (match x.outcome with
      | .declined reason => some reason
      | _ => x.total)

/-- The six inputs or latches of a station in the order of R198. -/
def inputBits (i : StationInputs) : List Bool := [i.ready, i.driveFault, i.top, i.aligned, i.areaClear, i.rehang]

/-- The 25 inputs or latches as a set in four bytes (R193, R198), a level present or asserted as a set bit (log
entry 79). -/
def fInputs (v : Vector StationInputs 4) (power : Bool) : Field :=
  fN 4 (setBits ((hoists.flatMap fun h => inputBits v[h]) ++ [power]))

/-! ### Snapshots (R196) -/

/-- The snapshot of a class as the state stands (R196). -/
def State.snapshot (s : State) (c : NoticeClass) : List Field :=
  match c with
  | .fault =>
    fN 1 s.latchedKinds.length :: s.latchedKinds.flatMap fun k => [fN 1 k.number, fN 1 s.entries[k.ix].state.code]
  | .hoist => fN 1 s.installedHoists.length :: s.installedHoists.flatMap fun h =>
    let x := s.ctxs[h]
    [fN 1 x.state.code] ++ fOptN 1 (x.heldFrom.map DipState.code) ++ [fN 4 ((x.order.map OrderRef.tag).getD 0)] ++
      fOptN 1 (x.pass.map Pass.number) ++ fClosed x.last
  | .zone =>
    (zones.map fun z => fHolder s.holders[z]) ++
      fN 1 s.waits.length :: s.waits.flatMap fun w => [fN 1 (hoistNo w.hoist), fN 1 w.first, fN 1 w.last]
  | .book => [fN 2 s.used, fN 2 s.reserved, fN 4 s.kept.nextSeq]
  | .feeder => fN 1 s.feeder.state.code :: fOutcome s.feeder.last
  | .input => [fInputs s.link.latches s.link.powerLatch]

/-! ### The transmitter (R195, R196) -/

/-- The marked class of highest priority (R195). -/
def Link.marked (l : Link) : Option NoticeClass := noticeClasses.find? fun c => l.marks[c.ix]

/-- A notice begins: the mark is cleared and the snapshot taken (R196). -/
def State.beginNotice (s : State) (c : NoticeClass) : State :=
  s.modLink fun l => { l with marks := l.marks.set c.ix false, tx := some (.notice c (s.snapshot c)) }

/-- An idle transmitter chooses: the oldest reply, else the notice of the marked class of highest priority (R195). -/
def State.transmit (s : State) : State :=
  match s.link.tx, s.link.replies, s.link.marked with
  | none, r :: rs, _ => s.modLink fun l => { l with replies := rs, tx := some (.reply r) }
  | none, [], some c => s.beginNotice c
  | _, _, _ => s

/-- The end of a step: the agenda is worked off, then an idle transmitter chooses (log entries 13, 17). -/
def State.finish (s : State) : State := s.settle.transmit

/-- A step of the running part; in any other power condition nothing reaches a block (log entry 4). -/
def State.whileRunning (s : State) (f : State → State) : State := if s.power = .running then (f s).finish else s

/-! ### Requests (R191, R194) -/

/-- Places of the reply queue in use, the place held for a relay among them (R194). -/
def Link.places (l : Link) : Nat := l.replies.length + if l.held then 1 else 0

/-- The reply queue has no free place (R191, step 1). -/
def State.linkFull (s : State) : Bool := decide (Config.replyPlaces ≤ s.link.places)

/-- A reply joins the queue at the newest end (R194). -/
def State.addReply (s : State) (code tag : Nat) (result : Result) (fields : List Field) : State :=
  s.modLink fun l =>
    { l with replies := l.replies ++ [{ kind := replyKind code, tag := tag, result := result, fields := fields }] }

/-- A received frame finds the reply queue full (R191, step 1). -/
def State.countQueueFull (s : State) : State := s.modLink fun l => { l with queueFull := bump16 l.queueFull }

/-- What a request comes to: the state after it, the result and the reply's fields. -/
structure Answer where
  state : State
  result : Result
  fields : List Field

/-- A refusal, with the fields a rule names for it. -/
def State.refuse (s : State) (r : Result) (fields : List Field := []) : Answer := ⟨s, r, fields⟩

/-- An accepted request. -/
def State.okay (s : State) (fields : List Field := []) : Answer := ⟨s, .ok, fields⟩

/-- A received request frame (R191): discarded with the reply queue full, else carried out at receipt (log entries 18,
19). The frame was built whole, so no frame is being built after it. -/
def State.received (s : State) (f : State → State) : State :=
  s.whileRunning fun s =>
    let s := s.modLink fun l => { l with rx := [] }
    if s.linkFull then s.countQueueFull else f s

/-- A received request carried out by its owner and answered with one reply (R191, R194). -/
def State.request (s : State) (kind : ReqKind) (tag : Nat) (f : State → Answer) : State :=
  s.received fun s =>
    let a := f s
    a.state.addReply kind.code tag a.result a.fields

/-- A request naming a hoist: refused NOT_INSTALLED before any other check (R24, R117). -/
def State.forHoist (s : State) (n : Nat) (f : Hoist → Answer) : Answer :=
  match s.hoist? n with
  | some h => f h
  | none => s.refuse .notInstalled

/-! ### Change latches (R198) -/

/-- One line of a station. -/
inductive InputLine where
  | ready | driveFault | top | aligned | areaClear | rehang
deriving DecidableEq, Repr

def InputLine.of (line : InputLine) (i : StationInputs) : Bool :=
  match line with
  | .ready => i.ready
  | .driveFault => i.driveFault
  | .top => i.top
  | .aligned => i.aligned
  | .areaClear => i.areaClear
  | .rehang => i.rehang

def InputLine.put (line : InputLine) (i : StationInputs) (v : Bool) : StationInputs :=
  match line with
  | .ready => { i with ready := v }
  | .driveFault => { i with driveFault := v }
  | .top => { i with top := v }
  | .aligned => { i with aligned := v }
  | .areaClear => { i with areaClear := v }
  | .rehang => { i with rehang := v }

/-- A station input changes: its level, and its latch, which marks the INPUT class when it goes from clear to set; then
what the blocks do with the change. A level that is already there is no change (R140, R198). -/
def State.inputChange (s : State) (h : Hoist) (line : InputLine) (level : Bool) (act : State → State) : State :=
  s.whileRunning fun s =>
    if line.of s.inputs[h] = level then s
    else
      let fresh := !line.of s.link.latches[h]
      let s := s.modInputs h fun i => line.put i level
      let s := s.modLink fun l => { l with latches := l.latches.set h (line.put l.latches[h] true) }
      act (s.markIf fresh .input)

/-- A latch is set (R198). -/
def anyInput (i : StationInputs) : Bool := (inputBits i).any id
def Link.anyLatch (l : Link) : Bool := l.powerLatch || hoists.any fun h => anyInput l.latches[h]

/-! ### The deferred reply of a relay (R194) -/

/-- The held place is given up and the deferred reply joins the queue at the newest end. -/
def State.deferredReply (s : State) (tag : Nat) (result : Result) (fields : List Field) : State :=
  (s.modLink fun l => { l with held := false }).addReply ReqKind.feederRelay.code tag result fields

end Sys2Proof.Machine
end

