-- ==== Sys2Proof/Machine/ResetOps.lean ====
section
/-! DEFINITION. What a power-on and a RESTART leave in every block (R23, R54, R55, R82 to R84, R102, R124, R138, R156,
R173, R187, R202, R203). -/

namespace Sys2Proof.Machine

/-! ### What both resets do -/

/-- The owners report their conditions from the lines as they stand (R156, R176, R187): the DRIVE_FAULT input of each
station and DRIVE_POWER. -/
def State.reportLines (s : State) : State :=
  (hoists.foldl (fun s h => s.report (.cond .driveFault (some h) s.inputs[h].driveFault)) s).report
    (.cond .drivePowerLoss none !s.drivePower)

/-- TRAVEL_PERMIT of each station with every dip context PARKED (R150). -/
def State.parkedPermits (s : State) : State :=
  { s with drives := s.drives.mapIdx fun i d => { d with permit := decide (i ≤ s.link.straps.hoists.val) } }

/-! ### RESTART (R203) -/

/-- A dip context after RESTART (R55). -/
def DipCtx.restarted (c : DipCtx) : DipCtx := { DipCtx.parked with last := c.last }

/-- Bench mode ends (R155, steps 1 and 2): bursts end REPLACED, a station that was stepped loses its position. -/
def DriveIf.leaveBench (d : DriveIf) : DriveIf :=
  let d := d.endBurst .replaced
  { d with known := d.known && !d.benchStepped, step := false }

/-- A Hoist Drive Interface after RESTART (R156). -/
def DriveIf.restarted (d : DriveIf) (bench : Bool) : DriveIf :=
  let d := if bench then d.leaveBench else d
  { d with motion := none, readyT := none, travel := 0, benchStepped := false, burst := none, lastBurst := none,
           step := false, brakeRel := false }

/-- The Feeder Line after RESTART (R173). -/
def FeederLine.restarted (f : FeederLine) : FeederLine :=
  { FeederLine.start with
    last := if f.state.inFlight then some ⟨.interrupted, f.asked.getD 0, f.count.getD 0, none⟩ else f.last
    lineErrors := f.lineErrors, malformed := f.malformed, unexpected := f.unexpected }

/-- The Weighing Unit after RESTART (R124): the period under way finishes, the scan begins afresh after it; until then
the scan position shown is the old one (log entry 56). -/
def WeighUnit.restarted (w : WeighUnit) : WeighUnit :=
  { w with service := none, queue := [], waiting := Vector.replicate 4 false, record := none, bath := none,
           forService := false, fresh := true }

/-- The Command Link's own part of a RESTART (R203, steps 1 and 2); its reply joins the emptied queue after it. -/
def Link.restarted (l : Link) : Link := { l with replies := [], held := false, marks := Vector.replicate 6 false }

/-- A dip context is in another state than PARKED (log entry 40). -/
def State.anyBusy (s : State) : Bool := hoists.any fun h => s.ctxs[h].state != .parked

/-- Everything a RESTART does but its reply (R203). -/
def State.restart (s : State) : State :=
  let busy := s.anyBusy
  let flight := s.feeder.state.inFlight
  let s := s.modLink Link.restarted
  let s := { s with
    orders := [], ctxs := s.ctxs.map DipCtx.restarted, drives := s.drives.map fun d => DriveIf.restarted d s.bench,
    bench := false, benchBeacon := false, holders := Vector.replicate 12 none, waits := [],
    wu := s.wu.restarted, lu := LevelUnit.start, feeder := s.feeder.restarted,
    entries := Vector.replicate 14 FaultEntry.start, beaconT := none,
    mail := Vector.replicate 4 Mail.empty, autoRequests := [], agenda := Agenda.empty }
  let s := s.parkedPermits.markIf busy .hoist
  let s := (s.finishCutShort.markSkimDue.markIf flight .feeder).markIf s.link.anyLatch .input
  s.reportLines.evaluateBath

/-! ### Power-on (R202) -/

/-- The hoists whose last closed order a power-on records as INTERRUPTED (R54, R82): the last such entry of each. -/
def interruptedOrder (journal : List Entry) (h : Hoist) : Option Closed :=
  match journal.reverse.find? fun e => !e.final && e.kind == .pickup && e.hoist == some h with
  | some e => e.orderTag.map fun t => ⟨t, .interrupted, some .power⟩
  | none => none

/-- A dip context after power-on over a retained area (R54). -/
def DipCtx.afterPower (kept : Retained) (h : Hoist) : DipCtx :=
  { DipCtx.parked with last := interruptedOrder kept.journal h }

/-- Every block at its power-on values over a retained area, before the marks and reports of step 3 of R202. -/
def State.freshBlocks (s : State) (pins : PowerOnPins) (kept : Retained) (cold : Bool) : State :=
  let s := { s with
    power := .running, vbak := pins.vbak, checkGood := true, kept := kept, link := Link.start pins.straps cold, inputs := pins.stations,
    drivePower := pins.drivePower, orders := [],
    ctxs := #v[DipCtx.afterPower kept 0, DipCtx.afterPower kept 1, DipCtx.afterPower kept 2, DipCtx.afterPower kept 3],
    drives := Vector.replicate 4 (DriveIf.powerOn true), bench := false, benchBeacon := false,
    holders := Vector.replicate 12 none, waits := [], nextSerial := 0, lu := LevelUnit.start, reserved := 0,
    nearlyFull := false, tenths := 0, feeder := FeederLine.start, entries := Vector.replicate 14 FaultEntry.start,
    beaconT := none, mail := Vector.replicate 4 Mail.empty, autoRequests := [], agenda := Agenda.empty }
  { s with wu := WeighUnit.start s.scanAfresh }.parkedPermits

/-- A power-on (R202): the retained area is kept with a good check, else a cold start and RETAINED_LOST (R82, R83). -/
def State.powerOn (s : State) (pins : PowerOnPins) : State :=
  let cold := !s.checkGood
  let s := s.freshBlocks pins (if cold then Retained.cold else s.kept) cold
  let s := s.finishCutShort.markSkimDue
  (if cold then s.report (.occur .retainedLost none) else s).reportLines

end Sys2Proof.Machine
end

