-- ==== Sys2Proof/Machine/Link.lean ====
section
/-! DEFINITION. The commands of the supplies and of the Command Link: power, the transmitter, IDENTIFY, STATUS, RESTART,
NOTICE_SETUP, INPUT_READ (R80 to R83, R194 to R204). -/

namespace Sys2Proof.Machine

/-- The outcome of a command. -/
abbrev Effect := Host.Outcome State Fault Refusal

/-! ### Supplies -/

/-- POWER_ON (R202), whatever the power condition before it (log entry 5). -/
def execPowerOn (pins : PowerOnPins) (s : State) : Effect := .next (s.powerOn pins).finish

/-- POWER_LOSS (R80, R81): VDD fails, or RESET_N is asserted with the supply up. Without VBAK the retained area loses its
contents with VDD. -/
def execPowerLoss (supply : Bool) (s : State) : Effect :=
  .next (if supply then { s with power := .unpowered, checkGood := s.checkGood && s.vbak }
         else if s.power = .running then { s with power := .inReset } else s)

/-- RETENTION_SUPPLY_LOSS (R81): VBAK fails, in any power condition; the area loses its contents where VDD is absent too
(log entry 4). -/
def execRetentionSupplyLoss (s : State) : Effect :=
  .next { s with vbak := false, checkGood := s.checkGood && s.power != .unpowered }

/-! ### The transmitter -/

/-- TX_FRAME_END (R195): the frame on CL_TX ends and the next is chosen. -/
def execTxFrameEnd (s : State) : Effect :=
  .next (s.whileRunning fun s => s.modLink fun l => { l with tx := none })

/-! ### IDENTIFY and STATUS -/

/-- The reply fields of IDENTIFY (R200); BENCH_PERMIT found set is 01h (log entry 79). -/
def State.identity (s : State) : List Field :=
  [fN 2 Config.vendorCode, fN 2 Config.partCode, fN 1 Config.revision, fN 1 s.link.straps.baud.val,
   fN 1 s.link.straps.hoists.val, fB s.link.straps.benchPermit, fB s.kept.bookOpen, fB s.link.coldStart]

/-- IDENTIFY (R200). -/
def execIdentify (tag : Nat) (s : State) : Effect := .next (s.request .identify tag fun s => s.okay s.identity)

/-- The six enables or marks, class by class. -/
def classBits (v : Vector Bool 6) : List Bool := noticeClasses.map fun c => v[c.ix]

/-- The reply fields of STATUS (R201; log entry 20; log entry 79 for on and off). -/
def State.statusFields (s : State) : List Field :=
  [fN 4 s.kept.runtime, fB s.kept.bookOpen, fN 2 s.used, fN 2 s.reserved, fN 2 s.free, (8, s.kept.inventory),
   fN 1 s.orders.length, fN 1 s.waits.length] ++
  [fN 1 s.installedHoists.length] ++
  (s.installedHoists.flatMap fun h =>
    [fN 1 s.ctxs[h].state.code] ++ fOptN 1 (s.ctxs[h].heldFrom.map DipState.code) ++
    [fB s.ctxs[h].runEnable, fN 2 s.drives[h].count, fB s.drives[h].known]) ++
  [fB s.bench, fN 1 s.feeder.state.code, fB s.feeder.relay.isSome, fN 1 s.latchedKinds.length, fB s.inhibit,
   fB s.beaconState, fN 1 (setBits (classBits s.link.marks))] ++ (classBits s.kept.notices).map fB ++
  [fN 1 s.link.replies.length, fB s.link.held, fN 2 s.link.overLength, fN 2 s.link.gaps, fN 2 s.link.badChecks,
   fN 2 s.link.queueFull]

/-- STATUS (R201). -/
def execStatus (tag : Nat) (s : State) : Effect := .next (s.request .status tag fun s => s.okay s.statusFields)

/-- RESTART (R203). -/
def execRestart (tag : Nat) (s : State) : Effect := .next (s.request .restart tag fun s => s.restart.okay)

/-! ### NOTICE_SETUP and INPUT_READ -/

/-- New enables: a class that is disabled loses its mark (R197). -/
def State.setNotices (s : State) (v : Vector Nat 6) : State :=
  let on := v.map yes
  (s.modKept fun r => { r with notices := on }).modLink fun l =>
    { l with marks := l.marks.mapIdx fun i m => m && on.toList.getD i false }

/-- NOTICE_SETUP (R197). -/
def execNoticeSetup (tag : Nat) (enables : Option (Vector Nat 6)) (s : State) : Effect :=
  .next (s.request .noticeSetup tag fun s =>
    match enables with
    | none => s.okay ((classBits s.kept.notices).map fB)
    | some v =>
      if v.toList.all yesNo then (s.setNotices v).okay ((classBits (s.setNotices v).kept.notices).map fB)
      else s.refuse .badValue)

/-- INPUT_READ (R199): levels and latches, then every latch and the INPUT mark are cleared. -/
def execInputRead (tag : Nat) (s : State) : Effect :=
  .next (s.request .inputRead tag fun s =>
    (s.modLink fun l =>
      { l with latches := Vector.replicate 4 absentInputs, powerLatch := false,
               marks := l.marks.set NoticeClass.input.ix false }).okay
      [fInputs s.inputs s.drivePower, fInputs s.link.latches s.link.powerLatch])

end Sys2Proof.Machine
end

