-- ==== Sys2Proof/Machine/Orders.lean ====
section
/-! DEFINITION. The commands of the Order Queue: posting, cancelling and reading orders, and the profile table
(R1 to R23). -/

namespace Sys2Proof.Machine

/-! ### ORDER_POST (R4, R5) -/

/-- The first check of R4 that fails, or none. -/
def State.postCheck (s : State) (p : PostFields) : Option Result :=
  if Config.orderSlots ≤ s.orders.length then some .queueFull
  else if p.orderTag = 0 then some .badValue
  else if (s.orderByTag p.orderTag).isSome then some .duplicateTag
  else if (s.hoist? p.hoist).isNone then some .notInstalled
  else if p.passCount ≠ p.passes.length then some .badValue
  else if p.passes.any fun x => !spanOk x.first x.last then some .badValue
  else if p.passes.any fun x => !s.kept.profileOk x.profile then some .badValue
  else if p.passes.any fun x => !KettleSet.passOk s.kept.kettle x then some .badValue
  else none

/-- The accepted order joins the collection at the newest end, an event of R9 for its hoist (R5, R6). -/
def State.addOrder (s : State) (p : PostFields) (h : Hoist) : State :=
  let o : Order :=
    { slot := s.freeSlot, tag := p.orderTag, hoist := h, mass := p.mass, pass1 := p.pass1, pass2 := p.pass2,
      state := .queued, pass := none, closePending := false, posted := s.kept.runtime }
  let s := { s with orders := s.orders ++ [o] }
  s.followUp (.take h)

/-- ORDER_POST (R4, R5). -/
def execOrderPost (tag : Nat) (post : PostFields) (s : State) : Effect :=
  .next (s.request .orderPost tag fun s =>
    match s.postCheck post with
    | some r => s.refuse r
    | none => s.forHoist post.hoist fun h =>
      (s.addOrder post h).okay [fN 1 (s.addOrder post h).orders.length])

/-! ### ORDER_CANCEL (R11 to R15) -/

/-- Pass 2 is dropped while pass 1 drains or is weighed out (R15). -/
def State.dropPass2 (s : State) (h : Hoist) : State :=
  let s := s.modOrder h fun o => { o with closePending := true }
  (s.modCtx h fun c => { c with closeReason := some .request }).returnHeld h

/-- A QUEUED order is removed; no outcome is recorded (R11). -/
def State.removeOrder (s : State) (o : Order) : State :=
  { s with orders := s.orders.filter fun x => x.slot != o.slot }

/-- What a cancel does to a taken order, by the state of its dip context, or none where it comes too late (R12 to
R15). -/
def State.cancelTaken (s : State) (o : Order) : Option State :=
  let h := o.hoist
  match s.ctxs[h].state with
  | .staged | .aligning | .weighIn => some (s.closeUnlowered h .cancelled .request)
  | .lowering | .dwell | .lifting | .held | .abortLift | .recal => some (s.abort h .request)
  | .rehang => some (s.closeRehang h .request)
  | .drain | .weighOut =>
    if s.ctxs[h].pass = some .one ∧ o.pass2.isSome = true then some (s.dropPass2 h) else none
  | .parked => none

/-- ORDER_CANCEL (R11 to R15): the reply carries the order state and dip context state found. -/
def execOrderCancel (tag orderTag : Nat) (s : State) : Effect :=
  .next (s.request .orderCancel tag fun s =>
    match s.orderByTag orderTag with
    | none => s.refuse .noSuchOrder
    | some o =>
      let found := [fN 1 o.state.code, fN 1 s.ctxs[o.hoist].state.code]
      if o.closePending then s.refuse .tooLate
      else if o.state = .queued then (s.removeOrder o).okay found
      else match s.cancelTaken o with
        | some s' => s'.okay found
        | none => s.refuse .tooLate)

/-! ### ORDER_QUERY and QUEUE_LIST (R17, R18) -/

/-- The fields of a pass record. -/
def passFields (p : PassRec) : List Field :=
  [fN 1 p.first, fN 1 p.last, fN 2 p.target, fN 2 p.drop, fN 1 p.profile]

/-- The wait reasons of a QUEUED order as a set in the order of R8, OLDER_ORDER last (R17, R193). -/
def State.waitReasons (s : State) (o : Order) : Option Nat :=
  if o.state = .queued then
    if s.offered o.hoist = some o then some (setBits ((s.takeTerms o.hoist o.passCount).map not)) else some 128
  else none

/-- Place in the collection, counted from 1 (R17). -/
def State.positionOf (s : State) (o : Order) : Nat := s.orders.idxOf o + 1

/-- QUEUED orders of the same hoist that stand before an order (R17). -/
def State.queuedBefore (s : State) (o : Order) : Nat :=
  (s.orders.take (s.orders.idxOf o)).countP fun x => x.state == .queued && x.hoist == o.hoist

/-- The reply fields of ORDER_QUERY (R17): pass 2 as the pass count says, the wait reasons as an optional field (log
entry 69). -/
def State.orderFields (s : State) (o : Order) : List Field :=
  [fN 4 o.tag, fN 1 (hoistNo o.hoist), fN 4 o.mass, fN 1 o.passCount] ++ passFields o.pass1 ++
  ((o.pass2.map passFields).getD []) ++ [fN 1 o.state.code] ++ fOptN 1 (o.pass.map Pass.number) ++
  [fB o.closePending, fN 4 o.posted, fN 1 (s.positionOf o), fN 1 (s.queuedBefore o), fN 1 s.ctxs[o.hoist].state.code] ++
  fOptN 1 (s.waitReasons o)

/-- ORDER_QUERY (R17). -/
def execOrderQuery (tag orderTag : Nat) (s : State) : Effect :=
  .next (s.request .orderQuery tag fun s =>
    match s.orderByTag orderTag with
    | some o => s.okay (s.orderFields o)
    | none => s.refuse .noSuchOrder)

/-- The item of one order in QUEUE_LIST (R18). -/
def Order.listItem (o : Order) : List Field :=
  [fN 4 o.tag, fN 1 (hoistNo o.hoist), fN 1 o.state.code] ++ fOptN 1 (o.pass.map Pass.number) ++ [fB o.closePending]

/-- QUEUE_LIST (R18). -/
def execQueueList (tag : Nat) (s : State) : Effect :=
  .next (s.request .queueList tag fun s => s.okay (fN 1 s.orders.length :: s.orders.flatMap Order.listItem))

/-! ### Profiles (R20, R21) -/

/-- A profile is replaced (R20). -/
def Retained.setProfile (r : Retained) (i : Nat) (p : Profile) : Retained :=
  if h : i < 16 then { r with profiles := r.profiles.set i p } else r

/-- PROFILE_WRITE (R20). -/
def execProfileWrite (tag index : Nat) (fields : ProfileFields) (s : State) : Effect :=
  .next (s.request .profileWrite tag fun s =>
    if index ≤ 15 ∧ fields.ok = true then (s.modKept fun r => r.setProfile index fields.toProfile).okay
    else s.refuse .badValue)

/-- The fields of a profile (R19). -/
def Profile.fields (p : Profile) : List Field :=
  [fB p.defined, fN 2 p.entrySpeed, fN 2 p.dwell, fN 1 p.withdrawal, fN 2 p.drain, fN 1 p.shakes, fN 1 p.amplitude,
   fB p.clean]

/-- PROFILE_READ (R21). -/
def execProfileRead (tag index : Nat) (s : State) : Effect :=
  .next (s.request .profileRead tag fun s =>
    match s.kept.profile? index with
    | some p => s.okay p.fields
    | none => s.refuse .badValue)

end Sys2Proof.Machine
end

