-- ==== Sys2Proof/Machine/Cycle.lean ====
section
/-! DEFINITION. The commands of the dip cycle: the host's hoist requests, the inputs a dip context watches, its timers,
and the grants, motion reports and weigh results it takes (R24 to R56). -/

namespace Sys2Proof.Machine

/-! ### Hoist requests -/

/-- The reply fields of HOIST_STATUS (R53; log entry 20). The immersion clock is sent in four bytes (log entry 53), run
enable with on as 01h (log entry 79). -/
def State.hoistFields (s : State) (h : Hoist) : List Field :=
  let c := s.ctxs[h]
  [fN 1 c.state.code] ++ fOptN 1 (c.heldFrom.map DipState.code) ++ fOptN 1 (c.ret.map DipState.code) ++
  [fN 4 ((c.order.map OrderRef.tag).getD 0)] ++ fOptN 1 (c.pass.map Pass.number) ++ [fB (s.closePending h)] ++
  fOptN 1 (c.closeReason.map CloseReason.code) ++ [fB c.runEnable, fN 2 s.drives[h].count, fB s.drives[h].known] ++
  fOptN 2 (c.alignT.map ceilSeconds) ++ fOptN 2 c.dwellT ++ fOptN 2 c.drainT ++
  [fN 4 c.clock.tenths, fB (c.clock.run == .running)] ++ fOpt 4 c.weighIn ++ [fB c.contact, fB c.rehangKept] ++
  fClosed c.last

/-- HOIST_STATUS (R53). -/
def execHoistStatus (tag hoist : Nat) (s : State) : Effect :=
  .next (s.request .hoistStatus tag fun s => s.forHoist hoist fun h => s.okay (s.hoistFields h))

/-- The recalibration of a parked hoist with its position unknown (R51), held at once under a STOP_ALL (R178). -/
def State.startRecal (s : State) (h : Hoist) : State :=
  let s := s.toRecal h (some .parked)
  if s.stopAll then s.enterHeld h else s

/-- HOIST_RUN starts a recalibration (R51). -/
def State.runRecals (s : State) (h : Hoist) : Bool :=
  s.ctxs[h].state == .parked && !s.drives[h].known && !s.bench

/-- HOIST_RUN (R51): run enable on, an event of R9 for the hoist. The reply carries RECAL only where a recalibration starts,
without a presence byte (log entry 69). -/
def execHoistRun (tag hoist : Nat) (s : State) : Effect :=
  .next (s.request .hoistRun tag fun s => s.forHoist hoist fun h =>
    let on := s.modCtx h fun c => { c with runEnable := true }
    if s.runRecals h then ((on.startRecal h).followUp (.take h)).okay [fN 1 DipState.recal.code]
    else (on.followUp (.take h)).okay)

/-- HOIST_STOP (R51). -/
def execHoistStop (tag hoist : Nat) (s : State) : Effect :=
  .next (s.request .hoistStop tag fun s => s.forHoist hoist fun h =>
    (s.modCtx h fun c => { c with runEnable := false }).okay)

/-- The held-from state as a reply field. -/
def State.heldField (s : State) (h : Hoist) : List Field := [fN 1 ((s.ctxs[h].heldFrom.map DipState.code).getD 0)]

/-- HOIST_HOLD (R41): the reply carries the held-from state. -/
def execHoistHold (tag hoist : Nat) (s : State) : Effect :=
  .next (s.request .hoistHold tag fun s => s.forHoist hoist fun h =>
    if s.ctxs[h].state = .parked then s.refuse .wrongState
    else (s.enterHeld h).okay ((s.enterHeld h).heldField h))

/-- HOIST_RESUME (R44): the reply carries the state entered. -/
def execHoistResume (tag hoist : Nat) (s : State) : Effect :=
  .next (s.request .hoistResume tag fun s => s.forHoist hoist fun h =>
    match s.ctxs[h].state, s.ctxs[h].heldFrom with
    | .held, some st =>
      if s.resumeBarred h then s.refuse .stillPresent
      else (s.resumeFrom h st).okay [fN 1 (s.resumeFrom h st).ctxs[h].state.code]
    | _, _ => s.refuse .wrongState)

/-- HOIST_ABORT (R45, R46): the reply carries the state found. -/
def execHoistAbort (tag hoist : Nat) (s : State) : Effect :=
  .next (s.request .hoistAbort tag fun s => s.forHoist hoist fun h =>
    if s.ctxs[h].state = .parked then s.refuse .wrongState
    else (s.abort h .request).okay [fN 1 s.ctxs[h].state.code])

/-- REHANG_DONE, the host's request (R37). -/
def execRehangDone (tag hoist : Nat) (s : State) : Effect :=
  .next (s.request .rehangDone tag fun s => s.forHoist hoist fun h =>
    if s.ctxs[h].effective = .rehang then (s.rehangDone h).okay else s.refuse .wrongState)

/-- The four settings of CYCLE_SETUP (R52). -/
def cycleFields (c : CycleSet) : List Field := [fN 2 c.alignTimeout, fN 2 c.abortSpeed, fN 2 c.abortDrain, fN 2 c.overrun]

/-- CYCLE_SETUP (R52). -/
def execCycleSetup (tag : Nat) (set : Option CycleSet) (s : State) : Effect :=
  .next (s.request .cycleSetup tag fun s =>
    match set with
    | none => s.okay (cycleFields s.kept.cycle)
    | some c => if c.ok then (s.modKept fun r => { r with cycle := c }).okay else s.refuse .badValue)

/-! ### Inputs watched by the dip context (R28, R37, R38) -/

/-- ALIGNED_CHANGE (R28, R38). -/
def execAlignedChange (h : Hoist) (level : Bool) (s : State) : Effect :=
  .next (s.inputChange h .aligned level fun s => (s.checkAligned h).reportConds h)

/-- AREA_CLEAR_CHANGE (R38). -/
def execAreaClearChange (h : Hoist) (level : Bool) (s : State) : Effect :=
  .next (s.inputChange h .areaClear level fun s => s.reportConds h)

/-- REHANG_INPUT_CHANGE (R37): a change to present is a REHANG_DONE. -/
def execRehangInputChange (h : Hoist) (level : Bool) (s : State) : Effect :=
  .next (s.inputChange h .rehang level fun s => if level then s.rehangDone h else s)

/-! ### Messages the dip context takes -/

/-- CLAIM_GRANT (R27, R93): the oldest grant handed to the dip context. -/
def execClaimGrant (h : Hoist) (s : State) : Effect :=
  .next (s.whileRunning fun s =>
    match s.mail[h].grants with
    | g :: gs => (s.modMail h fun m => { m with grants := gs }).takeGrant h g
    | [] => s)

/-- MOTION_REACHED (R33, R34, R49, R144): the oldest motion report, a reached one (log entries 3, 10). -/
def execMotionReached (h : Hoist) (s : State) : Effect :=
  .next (s.whileRunning fun s =>
    match s.mail[h].motions with
    | ⟨m, none⟩ :: rs => (s.modMail h fun x => { x with motions := rs }).takeReached h m
    | _ => s)

/-- MOTION_FAILED (R40): the oldest motion report, a failed one (log entries 3, 10). -/
def execMotionFailed (h : Hoist) (s : State) : Effect :=
  .next (s.whileRunning fun s =>
    match s.mail[h].motions with
    | ⟨_, some _⟩ :: rs => (s.modMail h fun x => { x with motions := rs }).enterHeld h
    | _ => s)

/-- WEIGH_RESULT (R30, R31, R35): the oldest weigh result handed to the dip context. -/
def execWeighResult (h : Hoist) (s : State) : Effect :=
  .next (s.whileRunning fun s =>
    match s.mail[h].results with
    | a :: as => (s.modMail h fun m => { m with results := as }).takeResult h a
    | [] => s)

/-! ### Timers of the dip context -/

/-- ALIGN_TIMEOUT (R29), in ALIGNING or in HELD from it. -/
def execAlignTimeout (h : Hoist) (s : State) : Effect :=
  .next (s.whileRunning fun s =>
    if s.ctxs[h].alignT.isSome ∧ s.ctxs[h].effective = .aligning then s.closeUnlowered h .cancelled .alignTimeout else s)

/-- DWELL_TIMER_EXPIRY (R33, R42). -/
def execDwellTimerExpiry (h : Hoist) (s : State) : Effect :=
  .next (s.whileRunning fun s =>
    if s.ctxs[h].dwellT.isNone then s
    else if s.ctxs[h].state = .dwell then s.toLifting h
    else s.modCtx h fun c => { c with dwellT := some 0 })

/-- DRAIN_TIMER_EXPIRY (R35, R42). -/
def execDrainTimerExpiry (h : Hoist) (s : State) : Effect :=
  .next (s.whileRunning fun s =>
    if s.ctxs[h].drainT.isNone then s
    else if s.ctxs[h].state = .drain then (s.modCtx h fun c => { c with drainT := some 0 }).drainCheck h
    else s.modCtx h fun c => { c with drainT := some 0, drainExpired := true })

/-- The immersion clock of a held pass passes dwell plus allowance (R43; log entry 26). -/
def DipCtx.passLimit (c : DipCtx) : DipCtx :=
  match c.latched with
  | some l => if c.overrunWatched && !c.overrunRaised then
      { c with clock := { c.clock with tenths := max c.clock.tenths (l.limit + 1) } } else c
  | none => c

/-- DWELL_OVERRUN (R43). -/
def execDwellOverrun (h : Hoist) (s : State) : Effect :=
  .next (s.whileRunning fun s => (s.modCtx h DipCtx.passLimit).checkOverrun h)

end Sys2Proof.Machine
end

