-- ==== Sys2Proof/Machine/Book.lean ====
section
/-! DEFINITION. The commands of the Zinc Book: the host's requests and the run-time counter (R57 to R84). -/

namespace Sys2Proof.Machine

/-! ### BOOK_OPEN and BOOK_POST -/

/-- BOOK_OPEN is refused BUSY in OPEN with an entry, a reservation, or no sequence number left (R58, R73). -/
def State.openBusy (s : State) : Bool :=
  s.kept.bookOpen && (!s.kept.journal.isEmpty || s.reserved != 0 || s.kept.seqSpent)

/-- The opening (R73). -/
def State.openBook (s : State) (inventory : Nat) : State :=
  ((s.modKept Retained.reopen).bookFinal .opening inventory none).takeAll

/-- BOOK_OPEN (R73): the reply carries the sequence number of the OPENING entry. -/
def execBookOpen (tag inventory : Nat) (s : State) : Effect :=
  .next (s.request .bookOpen tag fun s =>
    if within inventory 0 20000000 then
      if s.openBusy then s.refuse .busy else (s.openBook inventory).okay [fN 4 s.kept.nextSeq]
    else s.refuse .badValue)

/-- The mass a post of a kind may carry (R74, step 2). -/
def postMassOk (k : EntryKind) (mass : Int) : Bool :=
  match k with
  | .correction => mass != 0 && withinInt mass (-1000000) 1000000
  | _ => withinInt mass 1 1000000

/-- The amount a post books (R61, R74). -/
def postAmount (k : EntryKind) (mass : Int) : Int :=
  match k with
  | .correction => mass
  | _ => -mass

/-- No entry can be posted (R74, step 4). -/
def State.postFull (s : State) : Bool := s.free == 0 || decide (s.kept.seqLeft ≤ s.reserved)

/-- BOOK_POST (R74): the reply carries the sequence number and the inventory after the post. -/
def execBookPost (tag kind : Nat) (mass : Int) (note : Nat) (s : State) : Effect :=
  .next (s.request .bookPost tag fun s =>
    match postKind? kind with
    | none => s.refuse .badValue
    | some k =>
      if !postMassOk k mass then s.refuse .badValue
      else if !s.kept.bookOpen then s.refuse .bookClosed
      else if s.postFull then s.refuse .bookFull
      else (s.bookFinal k (postAmount k mass) (some note)).okay
        [fN 4 s.kept.nextSeq, (8, s.kept.inventory + postAmount k mass)])

/-! ### BOOK_READ, BOOK_TRIM, BOOK_SUMMARY -/

/-- A flag set as a number, the flags in the order of R60 (R193; log entry 20). -/
def EntryFlags.bits (f : EntryFlags) : Nat :=
  setBits [f.aborted, f.unweighed, f.noContact, f.captureMissed, f.overdwell, f.massDisagree, f.negative, f.recalExit,
           f.interrupted, f.countDisagree, f.unconfirmed]

/-- Every field of an entry, with a presence byte before each that may be absent (R59, R75; log entry 20). The
amount is sent in four bytes (log entry 76). -/
def Entry.fields (e : Entry) : List Field :=
  [fN 4 e.seq, fN 1 e.kind.code, fB e.final, fN 4 e.written] ++ fOptN 4 e.finalised ++ [(4, e.amount)] ++
  fOptN 4 e.orderTag ++ fOptN 1 (e.hoist.map hoistNo) ++ fOptN 1 (e.pass.map Pass.number) ++
  fRec [1, 1] (e.span.map fun p => [fN 1 p.1, fN 1 p.2]) ++ fOpt 4 e.weighIn ++ fOpt 4 e.weighOut ++ fOptN 2 e.dwell ++
  fOptN 4 e.immersion ++ fOptN 2 e.surface ++ fOptN 1 e.ingots ++ fOptN 1 e.feederTotal ++ [fN 2 e.flags.bits] ++
  fOptN 1 e.note

/-- The entries a read finds from a sequence number on (R75). -/
def Retained.readFrom (r : Retained) (seq : Nat) : List Entry := r.journal.filter fun e => decide (seq ≤ e.seq)

/-- BOOK_READ (R75): at most three entries, and how many stand after the last returned, 0 where none is returned (log
entry 55), in two bytes (log entry 64). -/
def execBookRead (tag seq : Nat) (s : State) : Effect :=
  .next (s.request .bookRead tag fun s =>
    let found := s.kept.readFrom seq
    let es := found.take 3
    s.okay (fN 1 es.length :: es.flatMap Entry.fields ++
      [fN 2 (found.length - es.length), fN 4 s.oldestSeq, fN 4 s.kept.nextSeq]))

/-- Why a trim removed nothing (R76): the oldest entry above the number, PROVISIONAL, or the journal empty; the first of
them that holds (log entry 54). -/
def Retained.trimReason (r : Retained) (seq : Nat) : Nat :=
  match r.journal with
  | [] => 2
  | e :: _ => if seq < e.seq then 0 else 1

/-- A trim that removes an entry is an event of R9 and may re-arm the nearly-full notice (R76, R79). -/
def State.trimBook (s : State) (seq : Nat) : State :=
  let n := (trimList seq s.kept.journal).1.length
  if n = 0 then s else (s.modKept fun r => r.trim seq).judgeNearly.takeAll

/-- The last sequence number a trim removes. -/
def Retained.trimLast (r : Retained) (seq : Nat) : Option Nat := ((trimList seq r.journal).1.getLast?).map Entry.seq

/-- BOOK_TRIM (R76; log entry 20). The reason is sent only where nothing was removed, without a presence byte (log
entry 69). -/
def execBookTrim (tag seq : Nat) (s : State) : Effect :=
  .next (s.request .bookTrim tag fun s =>
    if s.kept.bookOpen then
      let last := s.kept.trimLast seq
      (s.trimBook seq).okay (fOptN 4 last ++ [fN 2 (s.trimBook seq).used] ++
        (if last.isNone then [fN 1 (s.kept.trimReason seq)] else []))
    else s.refuse .bookClosed)

/-- The reply fields of BOOK_SUMMARY (R78). The reservation and PROVISIONAL counts take two bytes (log entry 64),
the nearly-full mark is one byte (log entry 79). -/
def State.summaryFields (s : State) : List Field :=
  [fB s.kept.bookOpen, (8, s.kept.inventory), (8, s.kept.base), fN 2 s.used, fN 2 s.reserved, fN 2 s.free,
   fN 2 s.provisional, fN 4 s.oldestSeq, fN 4 s.kept.nextSeq, fB s.nearlyFull] ++
  (entryKinds.flatMap fun k => [fN 4 s.kept.totals[k.ix].count, (8, s.kept.totals[k.ix].sum)]) ++ [fN 4 s.kept.runtime]

/-- BOOK_SUMMARY (R78). -/
def execBookSummary (tag : Nat) (s : State) : Effect :=
  .next (s.request .bookSummary tag fun s => s.okay s.summaryFields)

/-! ### The run-time counter (R80) -/

/-- RUNTIME_TICK (R80; log entry 9): a second has passed. -/
def execRuntimeTick (s : State) : Effect :=
  .next (s.whileRunning fun s =>
    let s := s.modKept fun r => { r with runtime := min Config.max32 (r.runtime + 1) }
    { s with tenths := 0 })

end Sys2Proof.Machine
end

