-- ==== Sys2Proof/Machine/Zones.lean ====
section
/-! DEFINITION. The commands of the Zone Arbiter: KETTLE_SETUP, SKIM_DONE, ZONE_STATUS and the claim wait alert
(R85 to R103). -/

namespace Sys2Proof.Machine

/-- The four settings of KETTLE_SETUP (R85). -/
def kettleFields (k : KettleSet) : List Field := [fN 2 k.floor, fN 2 k.clearance, fN 1 k.skimLimit, fN 2 k.waitAlert]

/-- New kettle settings: zones that become skim-due and claims past the new alert mark the ZONE notice (R86, R96,
R98). -/
def State.setKettle (s : State) (k : KettleSet) : State :=
  let s' := s.modKept fun r => { r with kettle := k }
  (s'.markIf (zones.any fun z => s'.skimDue z && !s.skimDue z) .zone).alertClaims fun _ => true

/-- KETTLE_SETUP (R86). -/
def execKettleSetup (tag : Nat) (set : Option KettleSet) (s : State) : Effect :=
  .next (s.request .kettleSetup tag fun s =>
    match set with
    | none => s.okay (kettleFields s.kept.kettle)
    | some k => if k.ok then (s.setKettle k).okay else s.refuse .badValue)

/-- The first zone of a span that has a holder, with the holder (R99, step 2). -/
def State.firstHeld (s : State) (first last : Nat) : Option (Fin 12 × Hoist) :=
  match zones.find? fun z => inSpan first last z && s.holders[z].isSome with
  | some z => s.holders[z].map fun h => (z, h)
  | none => none

/-- The zones of a span become CLEAN with count 0, and the wait list is examined (R99). -/
def State.skim (s : State) (first last : Nat) : State :=
  let s := s.modKept fun r =>
    { r with surfaces := r.surfaces.mapIdx fun i x => if first ≤ i + 1 ∧ i + 1 ≤ last then ⟨false, 0⟩ else x }
  s.examine

/-- SKIM_DONE (R99). -/
def execSkimDone (tag first last : Nat) (s : State) : Effect :=
  .next (s.request .skimDone tag fun s =>
    if spanOk first last then
      match s.firstHeld first last with
      | some (z, h) => s.refuse .zoneHeld [fN 1 (zoneNo z), fN 1 (hoistNo h)]
      | none => (s.skim first last).okay
    else s.refuse .badValue)

/-- Why a waiting claim is not granted, as a set in the order of R100. -/
def State.claimReasons (s : State) (older : List Claim) (c : Claim) : Nat :=
  setBits [!s.spanFree c, !s.runwayOk c, !s.cleanOk c, overlapsAny c older]

/-- The items of the waiting claims, each judged against the older ones (R100). -/
def State.claimItems (s : State) (older : List Claim) : List Claim → List Field
  | [] => []
  | c :: cs =>
    [fN 1 (hoistNo c.hoist), fN 1 c.first, fN 1 c.last, fB c.clean, fN 4 (s.kept.runtime - c.arrival), fB c.alerted,
     fN 1 (s.claimReasons older c)] ++ s.claimItems (older ++ [c]) cs

/-- The reply fields of ZONE_STATUS (R100); skim-due and the alerted mark are sent as yes/no (log entry 79). -/
def State.zoneFields (s : State) : List Field :=
  (zones.flatMap fun z =>
    [fHolder s.holders[z], fB s.kept.surfaces[z].ashed, fN 1 s.kept.surfaces[z].withdrawals, fB (s.skimDue z)]) ++
  kettleFields s.kept.kettle ++ [fN 1 s.waits.length] ++ s.claimItems [] s.waits

/-- ZONE_STATUS (R100). -/
def execZoneStatus (tag : Nat) (s : State) : Effect :=
  .next (s.request .zoneStatus tag fun s => s.okay s.zoneFields)

/-- CLAIM_WAIT_ALERT (R96), for the waiting claim of the hoist. -/
def execClaimWaitAlert (h : Hoist) (s : State) : Effect :=
  .next (s.whileRunning fun s => s.alertClaims fun x => x == h)

end Sys2Proof.Machine
end

