-- ==== Sys2Proof/Machine/Weighing.lean ====
section
/-! DEFINITION. The commands of the Weighing Unit: WEIGH_NOW, WEIGH_READ, WEIGH_SETUP, the end of a sample period and
of the weigh timer (R104 to R125). -/

namespace Sys2Proof.Machine

/-! ### Requests -/

/-- WEIGH_NOW (R117): the reply carries the number of requests ahead. -/
def execWeighNow (tag hoist : Nat) (s : State) : Effect :=
  .next (s.request .weighNow tag fun s => s.forHoist hoist fun h =>
    if s.ctxs[h].state ≠ .parked then s.refuse .wrongState
    else if s.wu.queue.any fun q => q.hoist == h then s.refuse .busy
    else (s.modWu fun w => { w with queue := w.queue ++ [⟨h, none⟩] }).okay [fN 1 s.wu.queue.length])

/-- The reading of one channel (R118). -/
def Chan.fields (c : Chan) : List Field := fOpt 4 c.value ++ fOpt 4 c.raw ++ [fN 2 c.age, fN 2 c.missed]

/-- A request in a reply: hoist and source, HOST 1 and DC 0 (R110, R118). -/
def WeighReq.fields (q : WeighReq) : List Field := [fN 1 (hoistNo q.hoist), fN 1 (if q.dc.isNone then 1 else 0)]

/-- The present spread of a window, where it holds a sample, full or not (R118; log entry 78). -/
def Service.spread (v : Service) : Option Nat := if v.window.isEmpty then none else some (spreadOf v.window)

/-- The service in progress (R118; log entry 20). -/
def serviceFields (v : Option Service) : List Field :=
  fRec [1, 1, 1, 1, 4, 2] (v.map fun x =>
    x.req.fields ++ [fN 1 x.window.length] ++ fOptN 4 x.spread ++ [fN 2 x.timer])

/-- The weigh-result record (R118). -/
def resultFields (r : Option HostResult) : List Field :=
  fRec [1, 1, 1, 4, 1, 1, 4, 4] (r.map fun x =>
    [fN 1 (hoistNo x.hoist), fN 1 (if x.value.isSome then 0 else 1)] ++ fOpt 4 x.value ++ [fN 1 x.samples] ++
    fOptN 4 x.spread ++ [fN 4 x.ended])

/-- The reply fields of WEIGH_READ (R118; log entry 20). The scan position is the mode of R109, the channel and the count;
before the next period after a RESTART or a change of mode it is the old one (log entry 56). Mode and scan position are
sent always, and the service in progress after them as an optional record (log entry 65); in SCAN the count is that of the
slot in progress (log entry 73). -/
def State.weighFields (s : State) : List Field :=
  (channels.flatMap fun c => s.wu.chans[c].fields) ++
  [fN 1 s.kept.weigh.mode.code, fN 1 s.wu.scan.mode.code, fN 1 s.wu.scan.chan.val, fN 1 s.wu.scan.got] ++ serviceFields s.wu.service ++
  [fN 1 s.wu.queue.length] ++ s.wu.queue.flatMap WeighReq.fields ++
  [fN 1 (setBits (hoists.map fun h => s.wu.waiting[h]))] ++ resultFields s.wu.record ++
  [fN 1 ((s.wu.bath.getD .absent).code)]

/-- WEIGH_READ (R118). -/
def execWeighRead (tag : Nat) (s : State) : Effect :=
  .next (s.request .weighRead tag fun s => s.okay s.weighFields)

/-- The settings in the order of R123, then the calibration hoist by hoist (log entry 63). -/
def weighSetFields (mode followed : Nat) (slots : Vector Nat 4) (l : WeighLimits) (calib : Vector Calibration 4) :
    List Field :=
  [fN 1 mode] ++ (hoists.map fun h => fN 1 slots[h]) ++
  [fN 1 followed, fN 1 l.window, fN 2 l.band, fN 2 l.timeout, fN 2 l.ageLimit, fN 2 l.contact, fN 2 l.snag, fN 2 l.slack,
   fN 2 l.bathLow, fN 2 l.bathHigh] ++
  hoists.flatMap fun h => [(4, calib[h].zero), fN 4 calib[h].scale]

/-- The settings in force. -/
def WeighSet.fields (w : WeighSet) : List Field :=
  weighSetFields w.mode.code (hoistNo w.followed) w.slots w.limits w.calib

/-- The scan starts afresh: the mode changes, or the followed hoist in FIXED or during a service (R109, R116). -/
def State.scanChanges (s : State) (w : WeighSet) : Bool :=
  let old := s.kept.weigh
  old.mode != w.mode || (old.followed != w.followed && (w.mode == .fixed || s.wu.service.isSome))

/-- New weigh settings (R109, R116, R122, R123). -/
def State.setWeigh (s : State) (w : WeighSet) : State :=
  let old := s.kept.weigh.limits
  let afresh := s.scanChanges w
  let s := (s.modKept fun r => { r with weigh := w }).modWu fun u => { u with fresh := u.fresh || afresh }
  if old.bathLow = w.limits.bathLow ∧ old.bathHigh = w.limits.bathHigh then s else s.evaluateBath

/-- WEIGH_SETUP (R123). -/
def execWeighSetup (tag : Nat) (set : Option WeighFields) (s : State) : Effect :=
  .next (s.request .weighSetup tag fun s =>
    match set with
    | none => s.okay s.kept.weigh.fields
    | some f => match s.weighSet? f with
      | some w => (s.setWeigh w).okay
      | none => s.refuse .badValue)

/-! ### The end of a sample period (R104 to R106) -/

/-- Every reading grows older by 10 ms (R106). -/
def WeighUnit.older (w : WeighUnit) : WeighUnit :=
  { w with chans := w.chans.map fun c => { c with age := min Config.max16 (c.age + Config.periodMs) } }

/-- A missed period of the channel selected (R104). -/
def WeighUnit.missedPeriod (w : WeighUnit) : WeighUnit :=
  { w with chans := w.chans.set w.chan { w.chans[w.chan] with missed := bump16 w.chans[w.chan].missed } }

/-- The channel's latest value, raw count and age after a sample (R106, step 1). -/
def WeighUnit.store (w : WeighUnit) (value count : Int) : WeighUnit :=
  { w with chans := w.chans.set w.chan { w.chans[w.chan] with value := some value, raw := some count, age := 0 } }

/-- The sample joins the window of the weighing in service where its hoist is the subject (R106, step 3, R113). -/
def State.windowSample (s : State) (h : Hoist) (v : Int) : State :=
  match s.wu.service with
  | some x => if x.req.hoist = h ∧ s.wu.forService = true then s.judgeWindow x v else s
  | none => s

/-- An accepted sample (R106). -/
def State.acceptSample (s : State) (count : Int) : State :=
  let v := s.convert s.wu.chan count
  let c := s.wu.chan
  let s := s.modWu fun w => w.store v count
  match channelHoist? c with
  | some h => (s.deliverSample h v).windowSample h v
  | none => s.evaluateBath

/-- The age checks at the end of a period: each installed dip context (R121), and the temperature as its age first
exceeds 5000 ms (R122), in that order (log entry 71). -/
def State.checkAges (s : State) : State :=
  let s := s.installedHoists.foldl State.checkAge s
  let age := s.wu.chans[tempChannel].age
  if Config.staleAge < age ∧ age ≤ Config.staleAge + Config.periodMs then s.evaluateBath else s

/-- The period's count: none on a missed period, discarded on a switch period, else a sample (R104). -/
def State.takeCount (s : State) (count : Option Int) : State :=
  let s := s.modWu WeighUnit.older
  match count with
  | none => s.modWu WeighUnit.missedPeriod
  | some n => if s.wu.settled = some s.wu.chan then s.acceptSample n
      else s.modWu fun w => { w with settled := some w.chan }

/-- A sample period ends (R104, R106 to R109): the count, the age checks, what follows from their faults and results,
then the channel of the next period; after a missed period the channel is kept, and a service due begins (log
entry 35). -/
def State.periodEnd (s : State) (count : Option Int) : State :=
  let accepted := count.isSome && s.wu.settled == some s.wu.chan
  let s := (s.takeCount count).checkAges.settle
  if count.isNone then s.afterMissed else s.nextPeriod accepted

/-- SAMPLE_PERIOD_END (R104, R106). -/
def execSamplePeriodEnd (count : Option Int) (s : State) : Effect :=
  .next (s.whileRunning fun s => s.periodEnd count)

/-! ### The weigh timer (R114) -/

/-- WEIGH_TIMER_EXPIRY (R114), with the weigh timer of the service at zero: where a stabilising sample taken first has
ended the weighing, the next one has its own timer, which goes on (R125; log entry 2). -/
def execWeighTimerExpiry (s : State) : Effect :=
  .next (s.whileRunning fun s =>
    match s.wu.service with
    | some v => if v.timer = 0 then s.weighEnds v.req none v.judged else s
    | none => s)

end Sys2Proof.Machine
end

