-- ==== Sys2Proof/Machine/Level.lean ====
section
/-! DEFINITION. The commands of the Level Unit: LEVEL_SETUP, LEVEL_READ, the arrival of captures and state reports, and
one step of processing (R126 to R139). -/

namespace Sys2Proof.Machine

/-- The five settings of LEVEL_SETUP (R136). -/
def levelSetFields (l : LevelSet) : List Field :=
  [fN 2 l.refDepth, fN 4 l.refInventory, fN 2 l.coefficient, fN 2 l.band, fN 2 l.ageLimit]

/-- LEVEL_SETUP (R136). -/
def execLevelSetup (tag : Nat) (set : Option LevelSet) (s : State) : Effect :=
  .next (s.request .levelSetup tag fun s =>
    match set with
    | none => s.okay (levelSetFields s.kept.level)
    | some l => if l.ok then (s.modKept fun r => { r with level := l }).okay else s.refuse .badValue)

/-- A capture in a reply, with its age (R126, R137). -/
def Capture.fields (c : Capture) (now : Nat) : List Field :=
  [fN 1 (hoistNo c.hoist), fN 4 c.tag, fN 1 c.pass.number, fN 2 c.position, fN 2 c.drop, fN 2 c.depth, fN 4 c.time,
   fB c.displaced, fN 4 (now - c.time)]

/-- The captures of the FIFO a read names (R137); without a hoist number nothing stands there (log entry 69). -/
def State.fifoFields (s : State) (h : Option Hoist) : List Field :=
  match h with
  | some x => fN 1 s.lu.fifos[x].length :: s.lu.fifos[x].flatMap fun c => c.fields s.tenthsCount
  | none => []

/-- The reply fields of LEVEL_READ (R137; log entry 20; log entry 74 for the widths, 79 for quiet and the freeze state). -/
def State.levelFields (s : State) (h : Option Hoist) : List Field :=
  let est := ringMean s.lu.ring
  fOptN 2 est ++ [fN 1 s.lu.ring.length] ++ s.lu.ring.map (fN 2) ++ [(4, s.predicted)] ++
  fOpt 4 (est.map fun e => (e : Int) - s.predicted) ++
  fRec [4, 4] (s.lu.lastCheck.map fun p => [(4, p.1), (4, p.2)]) ++ [fB s.quiet, fB s.lu.frozen] ++
  fOptN 4 s.lu.lastFreeze ++ fOptN 4 s.lu.lastUnfreeze ++ (hoists.map fun x => fN 1 s.lu.fifos[x].length) ++
  s.fifoFields h ++
  fRec [1, 4, 1, 4, 1] (s.lu.lastProcessed.map fun p =>
    [fN 1 (hoistNo p.hoist), fN 4 p.tag, fN 1 p.pass.number, fN 4 p.time, fN 1 p.outcome.code]) ++
  fRec [1, 4] (s.lu.lastAuto.map fun p => [fN 1 p.1, fN 4 p.2])

/-- LEVEL_READ (R137): no field, or a hoist number 1 to 4. -/
def execLevelRead (tag : Nat) (hoist : Option Nat) (s : State) : Effect :=
  .next (s.request .levelRead tag fun s =>
    match hoist with
    | none => s.okay (s.levelFields none)
    | some n => match hoistNumber? n with
      | some h => s.okay (s.levelFields (some h))
      | none => s.refuse .badValue)

/-! ### Messages of the dip contexts (R127 to R129) -/

/-- Another hoist has its load in the zinc (R128). -/
def State.otherInZinc (s : State) (h : Hoist) : Bool := hoists.any fun x => x != h && s.lu.views[x].loadInZinc

/-- The answer FULL: CAPTURE_MISSED, while the dip context still runs that pass (R127; log entry 31). -/
def State.captureMissed (s : State) (c : Capture) : State :=
  let x := s.ctxs[c.hoist]
  if x.order.map OrderRef.tag = some c.tag ∧ x.pass = some c.pass then
    s.modCtx c.hoist fun x => { x with flags := { x.flags with captureMissed := true } }
  else s

/-- A capture is judged at its arrival (R127, R128). -/
def State.takeCapture (s : State) (h : Hoist) (c : Capture) : State :=
  if s.lu.frozen then s
  else if Config.fifoDepth ≤ s.lu.fifos[h].length then s.captureMissed c
  else s.modLu fun l =>
    { l with fifos := l.fifos.set h (l.fifos[h] ++ [{ c with displaced := s.otherInZinc h }]) }

/-- CAPTURE_ARRIVAL (R127): the oldest message of the hoist's dip context, a capture (log entries 3, 10). -/
def execCaptureArrival (h : Hoist) (s : State) : Effect :=
  .next (s.whileRunning fun s =>
    match s.mail[h].level with
    | .capture c :: ms => (s.modMail h fun m => { m with level := ms }).takeCapture h c
    | _ => s)

/-- HOIST_VIEW_REPORT (R129): the oldest message of the hoist's dip context, a state report (log entries 3, 10). -/
def execHoistViewReport (h : Hoist) (s : State) : Effect :=
  .next (s.whileRunning fun s =>
    match s.mail[h].level with
    | .view v :: ms =>
      (s.modMail h fun m => { m with level := ms }).modLu fun l => { l with views := l.views.set h v }
    | _ => s)

/-! ### Processing (R130 to R134) -/

/-- The oldest capture that waits, of the lower-numbered hoist among equals, with the FIFO it heads (R130). -/
def State.nextCapture (s : State) : Option (Hoist × Capture) :=
  hoists.foldl (fun best h =>
    match best, s.lu.fifos[h].head? with
    | some (x, a), some b => if b.time < a.time then some (h, b) else some (x, a)
    | none, some b => some (h, b)
    | best, none => best) none

/-- How a capture is judged (R131). -/
def State.judgeCapture (s : State) (c : Capture) : CaptureOutcome :=
  if c.displaced then .displaced
  else if 10 * s.kept.level.ageLimit < s.tenthsCount - c.time then .aged else .accepted

/-- The ring after an acceptance (R132). -/
def ringAdd (ring : List Nat) (depth : Nat) : List Nat :=
  (if Config.ringDepth ≤ ring.length then ring.drop 1 else ring) ++ [depth]

/-- The mismatch check of an estimate (R133). -/
def State.mismatchCheck (s : State) (est : Nat) : State :=
  let d := (est : Int) - s.predicted
  let s' := s.modLu fun l => { l with lastCheck := some (s.predicted, d) }
  if s.kept.level.band < d.natAbs then s'.report (.occur .levelMismatch none) else s'

/-- The conditions of an auto-feed (R134). A request handed over and not yet arrived leaves the line no longer IDLE
(R130). -/
def State.wantsFeed (s : State) (est : Nat) : Bool :=
  s.kept.feed.auto && decide (s.kept.feed.numbers.threshold < est) && s.feeder.state == .idle && s.feeder.relay.isNone &&
  s.autoRequests.isEmpty && s.kept.bookOpen && decide (1 ≤ s.free)

/-- The ingots asked for (R134): the mass missing to the target over the ingot mass, any fraction up, within 1 to the
feed maximum. -/
def State.feedCount (s : State) (est : Nat) : Nat :=
  let n := s.kept.feed.numbers
  let mass := (est - n.target) * s.kept.level.coefficient
  max 1 (min n.maximum ((mass + n.ingotMass - 1) / n.ingotMass))

/-- The auto-feed decision (R134). -/
def State.decideFeed (s : State) (est : Nat) : State :=
  if s.wantsFeed est then
    let n := s.feedCount est
    let s := s.modLu fun l => { l with lastAuto := some (n, s.kept.runtime) }
    { s with autoRequests := s.autoRequests ++ [n] }
  else s

/-- An accepted capture: ring, mismatch check, auto-feed decision (R130, steps 3 to 5). -/
def State.acceptCapture (s : State) (depth : Nat) : State :=
  let s := s.modLu fun l => { l with ring := ringAdd l.ring depth }
  match ringMean s.lu.ring with
  | some est => (s.mismatchCheck est).decideFeed est
  | none => s

/-- One capture is processed (R130). -/
def State.processCapture (s : State) (h : Hoist) (c : Capture) : State :=
  let outcome := s.judgeCapture c
  let s := s.modLu fun l => { l with fifos := l.fifos.set h (l.fifos[h].drop 1) }
  let s := if outcome = .accepted then s.acceptCapture c.depth else s
  s.modLu fun l =>
    { l with lastProcessed := some { hoist := c.hoist, tag := c.tag, pass := c.pass, time := c.time, outcome := outcome } }

/-- CAPTURE_PROCESS_STEP (R130), while the kettle is quiet and a capture waits (log entry 32). -/
def execCaptureProcessStep (s : State) : Effect :=
  .next (s.whileRunning fun s =>
    if s.quiet then
      match s.nextCapture with
      | some (h, c) => s.processCapture h c
      | none => s
    else s)

end Sys2Proof.Machine
end

