-- ==== Sys2Proof/Machine/Drive.lean ====
section
/-! DEFINITION. The commands of the Hoist Drive Interfaces: DRIVE_SETUP, bench mode, the drive's inputs, pulses and the
ready-wait timer (R140 to R157). -/

namespace Sys2Proof.Machine

/-- The four settings of DRIVE_SETUP (R151). -/
def driveFields (d : DriveSet) : List Field := [fN 2 d.homeSpeed, fN 2 d.travelLimit, fN 1 d.readyTimeout, fN 2 d.shakeSpeed]

/-- DRIVE_SETUP (R151). -/
def execDriveSetup (tag : Nat) (set : Option DriveSet) (s : State) : Effect :=
  .next (s.request .driveSetup tag fun s =>
    match set with
    | none => s.okay (driveFields s.kept.drive)
    | some d => if d.ok then (s.modKept fun r => { r with drive := d }).okay else s.refuse .badValue)

/-! ### Bench mode (R152 to R155) -/

/-- BENCH_ENTER may be taken (R152). -/
def State.benchAllowed (s : State) : Bool :=
  s.link.straps.benchPermit && !s.anyBusy && !s.feeder.state.inFlight

/-- A station at the entry to bench mode (R152). -/
def DriveIf.enterBench (d : DriveIf) : DriveIf :=
  { d with step := false, dir := false, brakeRel := false, permit := false, burst := none, benchStepped := false, lastBurst := none }

/-- BENCH_ENTER (R152). -/
def execBenchEnter (tag : Nat) (s : State) : Effect :=
  .next (s.request .benchEnter tag fun s =>
    if s.bench then s.okay
    else if s.benchAllowed then
      { s with bench := true, benchBeacon := false, drives := s.drives.map DriveIf.enterBench }.okay
    else s.refuse .notPermitted)

/-- The last burst outcome as reply fields: none 0, and the pulses issued (R153; log entry 20). -/
def DriveIf.burstFields (d : DriveIf) : List Field :=
  match d.lastBurst with
  | some (how, n) => [fN 1 how.code, fN 2 n]
  | none => [fN 1 0, fN 2 0]

/-- A BENCH_DRIVE that passes its checks (R153): the burst in progress ends REPLACED, the levels are set, 01h
high (log entry 79), a burst starts. -/
def State.benchSet (s : State) (h : Hoist) (f : BenchFields) : State :=
  let s := s.modDrive h fun d =>
    let d := d.endBurst .replaced
    { d with dir := yes f.dir, brakeRel := yes f.brake, permit := yes f.permit,
             burst := if f.steps = 0 then none else some { left := f.steps, rate := f.rate, issued := 0 },
             benchStepped := d.benchStepped || f.steps != 0 }
  let s := { s with benchBeacon := yes f.beacon }
  if f.steps = 0 then s else s.burstMeets h

/-- BENCH_DRIVE (R153): the reply carries the outcome of the previous burst as it stood before the request. -/
def execBenchDrive (tag : Nat) (fields : BenchFields) (s : State) : Effect :=
  .next (s.request .benchDrive tag fun s =>
    if !s.bench then s.refuse .notPermitted
    else s.forHoist fields.hoist fun h =>
      if fields.ok then (s.benchSet h fields).okay s.drives[h].burstFields else s.refuse .badValue)

/-- BENCH_NOTICES (R154): every enabled class is marked. -/
def execBenchNotices (tag : Nat) (s : State) : Effect :=
  .next (s.request .benchNotices tag fun s =>
    if s.bench then (noticeClasses.foldl State.mark s).okay else s.refuse .notPermitted)

/-- Bench mode ends (R155). -/
def State.leaveBench (s : State) : State :=
  let s := { s with bench := false, drives := s.drives.map fun d => { DriveIf.leaveBench d with brakeRel := false } }
  s.parkedPermits.takeAll

/-- The stations a BENCH_EXIT makes unknown, as a set (R155): those stepped whose position was known (log entry 58). -/
def State.madeUnknown (s : State) : Nat := setBits (hoists.map fun h => s.drives[h].known && s.drives[h].benchStepped)

/-- BENCH_EXIT (R155): the reply carries the set of stations whose position became unknown. -/
def execBenchExit (tag : Nat) (s : State) : Effect :=
  .next (s.request .benchExit tag fun s =>
    if s.bench then s.leaveBench.okay [fN 1 s.madeUnknown] else s.refuse .wrongState)

/-! ### The drive's inputs (R145 to R148) -/

/-- A motion or burst is in progress on the station. -/
def DriveIf.running (d : DriveIf) : Bool := d.motion.isSome || d.burst.isSome

/-- READY_CHANGE (R145): the ready-wait timer is loaded at a loss while a motion or burst runs, stopped at a return. -/
def execReadyChange (h : Hoist) (level : Bool) (s : State) : Effect :=
  .next (s.inputChange h .ready level fun s =>
    if s.drives[h].running then
      if level then s.modDrive h fun d => { d with readyT := none } else s.loadReady h
    else s)

/-- The DRIVE_FAULT input becomes asserted (R146, R153). -/
def State.driveFaulted (s : State) (h : Hoist) : State :=
  match s.drives[h].motion, s.drives[h].burst with
  | some m, _ =>
    (s.modDrive h fun d => { d with known := false }).motionFails h m.kind.moved .driveFault .driveFault
  | none, some _ => s.modDrive h fun d => { d.endBurst .driveFault with brakeRel := false }
  | none, none => s

/-- DRIVE_FAULT_CHANGE (R140, R146): the level is reported as the condition at each change. -/
def execDriveFaultChange (h : Hoist) (level : Bool) (s : State) : Effect :=
  .next (s.inputChange h .driveFault level fun s =>
    (if level then s.driveFaulted h else s).report (.cond .driveFault (some h) level))

/-- TOP becomes present (R147, R148, R153). -/
def State.topPresent (s : State) (h : Hoist) : State :=
  match s.drives[h].motion, s.drives[h].burst with
  | some _, _ => s.topRule h
  | none, some _ => if s.drives[h].dir then s.modDrive h fun d => { d.endBurst .stoppedTop with count := 0 } else s
  | none, none => s

/-- TOP_CHANGE (R147, R148). -/
def execTopChange (h : Hoist) (level : Bool) (s : State) : Effect :=
  .next (s.inputChange h .top level fun s => if level then s.topPresent h else s)

/-- DRIVE_POWER_CHANGE (R140, R176, R198). -/
def execDrivePowerChange (level : Bool) (s : State) : Effect :=
  .next (s.whileRunning fun s =>
    if s.drivePower = level then s
    else
      let fresh := !s.link.powerLatch
      let s := { s with drivePower := level }.modLink fun l => { l with powerLatch := true }
      (s.markIf fresh .input).report (.cond .drivePowerLoss none !level))

/-! ### Pulses and the ready-wait timer -/

/-- STEP_PULSE (R143). -/
def execStepPulse (h : Hoist) (s : State) : Effect := .next (s.whileRunning fun s => s.pulse h)

/-- The ready-wait timer has reached zero (R145, R153). -/
def State.readyExpires (s : State) (h : Hoist) : State :=
  match s.drives[h].motion, s.drives[h].burst with
  | some m, _ => s.motionFails h m.kind.moved .readyTimeout .driveFault
  | none, some _ => s.modDrive h fun d => d.endBurst .readyTimeout
  | none, none => s

/-- READY_TIMEOUT (R145), while the ready-wait timer runs. -/
def execReadyTimeout (h : Hoist) (s : State) : Effect :=
  .next (s.whileRunning fun s => if s.drives[h].readyT.isSome then s.readyExpires h else s)

end Sys2Proof.Machine
end

