-- ==== Sys2Proof/Machine/Feeder.lean ====
section
/-! DEFINITION. The commands of the Feeder Line: feeds, received frames, the relay, its timers and settings
(R158 to R174). -/

namespace Sys2Proof.Machine

/-! ### Admission and start (R161, R162) -/

/-- Steps 2 to 5 of the admission: the first check that fails, or none (R161). -/
def State.feedCheck (s : State) : Option Result :=
  if s.bench then some .notPermitted
  else if s.feeder.state ≠ .idle ∨ s.feeder.relay.isSome = true then some .busy
  else if !s.kept.bookOpen then some .bookClosed
  else if !s.canReserve 1 then some .bookFull
  else none

/-- A feed starts with its reservation granted (R162). The feeder timer is absent until the last byte of DISPENSE (log
entry 66). -/
def State.startFeed (s : State) (source : FeedSource) (count : Nat) : State :=
  ((s.grantReserve 1).modFeeder fun f =>
    { f with state := .requested, source := some source, asked := some count, timer := none, resv := 1,
             tx := f.tx ++ [.dispense count] }).mark .feeder

/-- FEED (R161): the reply carries the sequence number the journal will next use. -/
def execFeed (tag count : Nat) (s : State) : Effect :=
  .next (s.request .feed tag fun s =>
    if within count 1 20 then
      match s.feedCheck with
      | some r => s.refuse r
      | none => (s.startFeed .host count).okay [fN 4 s.kept.nextSeq]
    else s.refuse .badValue)

/-- AUTO_FEED_REQUEST (R161): the oldest request of the Level Unit arrives; one that fails a check is dropped. -/
def execAutoFeedRequest (s : State) : Effect :=
  .next (s.whileRunning fun s =>
    match s.autoRequests with
    | [] => s
    | n :: rest =>
      let s := { s with autoRequests := rest }
      if s.kept.feed.auto && s.feedCheck.isNone then s.startFeed .auto n else s)

/-- The feeder timer is loaded (R162 to R164). -/
def State.loadFeeder (s : State) : State :=
  s.modFeeder fun f => { f with timer := some s.kept.feed.numbers.timeout }

/-- The frame is a DISPENSE, or a relayed frame. -/
def FeederTx.isDispense : FeederTx → Bool
  | .dispense _ => true
  | .relayed _ _ => false

/-- DISPENSE_SENT (R162): the last byte of DISPENSE has been sent. The timer is loaded where the feed of that DISPENSE
still waits for its answer, not where the answer came first (log entry 60); a DISPENSE that still waits behind it is
that of a later feed (log entry 38). -/
def execDispenseSent (s : State) : Effect :=
  .next (s.whileRunning fun s =>
    match s.feeder.tx with
    | .dispense _ :: rest =>
      let s := s.modFeeder fun f => { f with tx := rest }
      if s.feeder.state = .requested && !rest.any FeederTx.isDispense then s.loadFeeder else s
    | _ => s)

/-! ### Ends of a feed (R163, R165 to R167) -/

/-- The record of the feed in flight is cleared and its outcome kept, with the FEEDER notice (R160). -/
def State.endFeed (s : State) (next : FeedState) (outcome : FeedOutcome) (booked : Nat) (total : Option Nat) : State :=
  (s.modFeeder fun f =>
    { f with state := next, source := none, asked := none, entry := none, mass := none, count := none, timer := none,
             resv := 0, last := some { outcome := outcome, asked := f.asked.getD 0, booked := booked, total := total } }).mark
    .feeder

/-- The Level Unit is unfrozen (R135). -/
def State.unfreeze (s : State) : State :=
  if s.lu.frozen then s.modLu fun l => { l with frozen := false, lastUnfreeze := some s.kept.runtime } else s

/-- The Level Unit is frozen and every waiting capture discarded (R135). -/
def State.freeze (s : State) : State :=
  s.modLu fun l => { l with frozen := true, lastFreeze := some s.kept.runtime, fifos := Vector.replicate 4 [] }

/-- SETTLE ends: IDLE, and the Level Unit is unfrozen (R166). -/
def State.settleOver (s : State) : State := (s.modFeeder fun f => { f with state := .idle, settleT := none }).unfreeze

/-- SETTLE is entered; a settle time of 0 passes straight to IDLE (R166). -/
def State.enterSettle (s : State) : State :=
  let t := s.kept.feed.numbers.settle
  let s := s.modFeeder fun f => { f with state := .settle, settleT := some (t * 10) }
  if t = 0 then s.settleOver else s

/-! ### Frames of a feed (R163 to R165) -/

/-- ACCEPT in REQUESTED (R163). -/
def State.feedAccepted (s : State) : State :=
  let seq := s.kept.nextSeq
  let mass := s.kept.feed.numbers.ingotMass
  let s := s.writeAddition.modFeeder fun f =>
    { f with state := .feeding, entry := some seq, mass := some mass, count := some 0, resv := 0 }
  s.freeze.loadFeeder

/-- DECLINE in REQUESTED (R163). -/
def State.feedDeclined (s : State) (reason : Nat) : State :=
  (s.endFeed .idle (.declined reason) 0 none).returnReserve 1

/-- A valid DROP in FEEDING (R164). -/
def State.feedDrop (s : State) (k : Nat) : State :=
  match s.feeder.count, s.feeder.entry, s.feeder.mass with
  | some held, some seq, some mass =>
    if held < k then (s.modFeeder fun f => { f with count := some k }).raiseAddition seq k ((k * mass : Nat) : Int) else s
  | _, _, _ => s

/-- A valid DONE in FEEDING (R165). -/
def State.feedDone (s : State) (total : Nat) : State :=
  let held := s.feeder.count.getD 0
  let s := match s.feeder.entry with
    | some seq => s.finaliseAddition seq (some total) (total != held) false
    | none => s
  (s.endFeed .settle .done held (some total)).enterSettle

/-! ### Received frames (R159, R164, R168, R170) -/

/-- The codes of the feeder's four frames (R192). -/
def kAccept : Nat := 2
def kDecline : Nat := 3
def kDrop : Nat := 4
def kDone : Nat := 5

/-- A frame of one of the four feeder kinds whose length or content fails its row is malformed (R159). -/
def malformed (kind : Nat) (payload : List Byte) : Bool :=
  if kind = kAccept then !payload.isEmpty
  else if kind = kDecline ∨ kind = kDone then payload.length != 1
  else if kind = kDrop then payload.length != 1 || !within (payload.headD 0).toNat 1 20
  else false

/-- The first payload byte as a number. -/
def firstByte (payload : List Byte) : Nat := (payload.headD 0).toNat

/-- A frame the state does not take (R168). -/
def State.unexpected (s : State) : State := s.modFeeder fun f => { f with unexpected := bump16 f.unexpected }

/-- The first frame received while a relay is outstanding is its answer (R170): its kind, its length as received, and
as much of its payload as a reply of at most 240 bytes holds (R193; log entry 21). -/
def State.relayAnswered (s : State) (r : Relay) (kind : Nat) (payload : List Byte) : State :=
  (s.modFeeder fun f => { f with relay := none }).deferredReply r.tag .ok
    ([fN 1 kind, fN 1 payload.length] ++ fBytes (payload.take Config.relayReplyMax))

/-- A frame in IDLE or SETTLE with no relay outstanding (R168). -/
def State.frameAtRest (s : State) (kind : Nat) : State :=
  s.unexpected.markIf (kind == kAccept || kind == kDrop || kind == kDone) .feeder

/-- A frame in REQUESTED (R163, R168). -/
def State.frameRequested (s : State) (kind : Nat) (payload : List Byte) : State :=
  if kind = kAccept then if malformed kind payload then s else s.feedAccepted
  else if kind = kDecline then if malformed kind payload then s else s.feedDeclined (firstByte payload)
  else s.unexpected

/-- A frame in FEEDING (R164, R165, R168), which reloads the feeder timer. -/
def State.frameFeeding (s : State) (kind : Nat) (payload : List Byte) : State :=
  let s := s.loadFeeder
  if kind = kDrop then if malformed kind payload then s else s.feedDrop (firstByte payload)
  else if kind = kDone then if malformed kind payload then s else s.feedDone (firstByte payload)
  else s.unexpected

/-- A received frame is taken by the state of the line (R159, R168, R170; log entry 37). A frame row is a whole frame:
bytes left in the receiver before it are dropped uncounted (log entry 59). -/
def State.feederFrame (s : State) (kind : Nat) (payload : List Byte) : State :=
  let bad := malformed kind payload
  let s := s.modFeeder fun f => { f with rx := [], malformed := if bad then bump16 f.malformed else f.malformed }
  match s.feeder.relay, s.feeder.state with
  | some r, _ => s.relayAnswered r kind payload
  | none, .idle | none, .settle => s.frameAtRest kind
  | none, .requested => s.frameRequested kind payload
  | none, .feeding => s.frameFeeding kind payload

/-- ACCEPT (R163, R168, R170). -/
def execAccept (payload : List Byte) (s : State) : Effect :=
  .next (s.whileRunning fun s => s.feederFrame kAccept payload)

/-- DECLINE (R163, R168, R170). -/
def execDecline (payload : List Byte) (s : State) : Effect :=
  .next (s.whileRunning fun s => s.feederFrame kDecline payload)

/-- DROP (R164, R168, R170). -/
def execDrop (payload : List Byte) (s : State) : Effect :=
  .next (s.whileRunning fun s => s.feederFrame kDrop payload)

/-- DONE (R165, R168, R170). -/
def execDone (payload : List Byte) (s : State) : Effect :=
  .next (s.whileRunning fun s => s.feederFrame kDone payload)

/-- FEEDER_OTHER_FRAME (R168, R170). -/
def execFeederOtherFrame (kind : Nat) (payload : List Byte) (s : State) : Effect :=
  .next (s.whileRunning fun s => s.feederFrame kind payload)

/-! ### Bytes (R159) -/

/-- One byte on FD_RX (R159). -/
def State.feederByte (s : State) (b : Byte) : State :=
  let r := receive Config.feederStart 2 s.feeder.rx b
  let s := s.modFeeder fun f => { f with rx := r.1 }
  match r.2 with
  | .nothing => s
  | .overLength | .badCheck => s.modFeeder fun f => { f with lineErrors := bump16 f.lineErrors }
  | .frame header payload => s.feederFrame (header.getD 0 0).toNat payload

/-- FEEDER_FRAME_DISCARDED (R159): the bytes are received one by one. -/
def execFeederFrameDiscarded (bytes : List Byte) (s : State) : Effect :=
  .next (s.whileRunning fun s => bytes.foldl State.feederByte s)

/-- A gap of more than 10 ms discards the frame being received and is counted (R159). -/
def FeederLine.gap (f : FeederLine) : FeederLine :=
  if f.rx.isEmpty then f else { f with rx := [], lineErrors := bump16 f.lineErrors }

/-- FEEDER_FRAME_GAP (R159). -/
def execFeederFrameGap (bytes : List Byte) (s : State) : Effect :=
  .next (s.whileRunning fun s => (bytes.foldl State.feederByte s).modFeeder FeederLine.gap)

/-! ### The relay (R169, R170) -/

/-- The first check of R169 that fails, or none. -/
def State.relayCheck (s : State) (kind : Nat) : Option Result :=
  if !s.kept.feed.relay then some .notPermitted
  else if kind = 1 then some .relayRefused
  else if s.feeder.state.inFlight = true ∨ s.feeder.relay.isSome = true then some .busy
  else none

/-- An admitted relay: it holds a place of the reply queue, and its frame is sent (R170, R194). The hold timer is absent
until the last byte of that frame (log entry 66). -/
def State.startRelay (s : State) (tag kind : Nat) (payload : List Byte) : State :=
  (s.modFeeder fun f => { f with relay := some { tag := tag, hold := none }, tx := f.tx ++ [.relayed kind payload] }).modLink
    fun l => { l with held := true }

/-- FEEDER_RELAY (R169): refused at once, or admitted without an immediate reply. -/
def execFeederRelay (tag kind : Nat) (payload : List Byte) (s : State) : Effect :=
  .next (s.received fun s =>
    match s.relayCheck kind with
    | some r => s.addReply ReqKind.feederRelay.code tag r []
    | none => s.startRelay tag kind payload)

/-- RELAY_FRAME_SENT (R170): the hold timer is loaded. A relayed frame that still waits behind the one sent is that of
the relay now outstanding, whose hold has yet to begin (log entry 38). -/
def execRelayFrameSent (s : State) : Effect :=
  .next (s.whileRunning fun s =>
    match s.feeder.tx with
    | .relayed _ _ :: rest => s.modFeeder fun f =>
      { f with tx := rest,
               relay := if rest.all FeederTx.isDispense then
                   f.relay.map fun r => { r with hold := some s.kept.feed.numbers.hold }
                 else f.relay }
    | _ => s)

/-- RELAY_HOLD_EXPIRY (R170): the deferred reply is TIMEOUT. -/
def execRelayHoldExpiry (s : State) : Effect :=
  .next (s.whileRunning fun s =>
    match s.feeder.relay with
    | some r =>
      if r.hold.isSome then (s.modFeeder fun f => { f with relay := none }).deferredReply r.tag .timeout [] else s
    | none => s)

/-! ### Timers (R166, R167) -/

/-- The feeder has not answered DISPENSE (R167). -/
def State.feedUnanswered (s : State) : State :=
  ((s.endFeed .idle .noAnswer 0 none).report (.occur .feederSilent none)).returnReserve 1

/-- The feeder has gone quiet in FEEDING (R167). -/
def State.feedUnconfirmed (s : State) : State :=
  let held := s.feeder.count.getD 0
  let s := match s.feeder.entry with
    | some seq => s.finaliseAddition seq none false true
    | none => s
  ((s.endFeed .settle .unconfirmed held none).report (.occur .feederSilent none)).enterSettle

/-- FEEDER_TIMER_EXPIRY (R167), with the feeder timer at zero: a frame taken first has reloaded it (R174; log
entry 2). -/
def execFeederTimerExpiry (s : State) : Effect :=
  .next (s.whileRunning fun s =>
    if s.feeder.timer = some 0 then
      match s.feeder.state with
      | .requested => s.feedUnanswered
      | .feeding => s.feedUnconfirmed
      | _ => s
    else s)

/-- SETTLE_TIMER_EXPIRY (R166), in SETTLE. -/
def execSettleTimerExpiry (s : State) : Effect :=
  .next (s.whileRunning fun s => if s.feeder.state = .settle then s.settleOver else s)

/-! ### FEED_SETUP and FEED_READ (R171, R172) -/

/-- The settings of FEED_SETUP (R171), on sent as 01h (log entry 79). -/
def feedSetFields (f : FeedSet) : List Field :=
  let n := f.numbers
  [fB f.auto, fN 2 n.threshold, fN 2 n.target, fN 2 n.ingotMass, fN 1 n.maximum, fN 2 n.timeout, fN 2 n.settle, fB f.relay,
   fN 1 n.hold]

/-- FEED_SETUP (R171). -/
def execFeedSetup (tag : Nat) (set : Option FeedFields) (s : State) : Effect :=
  .next (s.request .feedSetup tag fun s =>
    match set with
    | none => s.okay (feedSetFields s.kept.feed)
    | some f => if f.ok then (s.modKept fun r => { r with feed := f.toSet }).okay else s.refuse .badValue)

/-- The reply fields of FEED_READ (R172; log entry 79 for the relay outstanding). -/
def State.feedFields (s : State) : List Field :=
  let f := s.feeder
  [fN 1 f.state.code] ++ fOptN 1 (f.source.map FeedSource.code) ++ fOptN 1 f.asked ++ fOptN 4 f.entry ++ fOptN 2 f.mass ++
  fOptN 1 f.count ++ fOptN 2 f.timer ++ fOptN 2 (f.settleT.map ceilSeconds) ++ [fB f.relay.isSome] ++
  fOptN 1 (f.relay.bind Relay.hold) ++ fOutcome f.last ++ [fN 2 f.lineErrors, fN 2 f.malformed, fN 2 f.unexpected]

/-- FEED_READ (R172). -/
def execFeedRead (tag : Nat) (s : State) : Effect :=
  .next (s.request .feedRead tag fun s => s.okay s.feedFields)

end Sys2Proof.Machine
end

