-- ==== Sys2Proof/Machine/Faults.lean ====
section
/-! DEFINITION. The commands of the Fault Collector: FAULT_ACK, FAULT_SETUP, FAULT_LIST, the alarm and beacon timers
(R175 to R188). -/

namespace Sys2Proof.Machine

/-! ### Acknowledgement (R182) -/

/-- An entry in a reply: the item of FAULT_LIST, and in FAULT_ACK's reply the same (R182, R186; log entry 68). -/
def State.entryFields (s : State) (k : FaultKind) : List Field :=
  let e := s.entries[k.ix]
  let f := s.kept.faults[k.ix]
  [fN 1 k.number, fN 1 e.state.code, fN 1 f.reaction.code, fN 2 f.delay, fB f.beacon,
   fN 1 (setBits (hoists.map fun h => e.involved[h]))] ++
  [fN 4 (e.firstTime.getD 0), fN 4 (e.lastTime.getD 0), fN 1 (e.count.getD 0)] ++ fOptN 2 (e.alarmT.map ceilSeconds) ++
  fOptN 1 (if k.isCondition then some (if s.condPresent k then 1 else 0) else none)

/-- A cleared entry keeps its condition values (R176, R182). -/
def FaultEntry.clear (e : FaultEntry) : FaultEntry :=
  { FaultEntry.start with present := e.present, presentLine := e.presentLine }

/-- An accepted acknowledgement (R182). -/
def State.acknowledge (s : State) (k : FaultKind) : State :=
  let before := s.inhibit
  let s := (s.modEntry k FaultEntry.clear).markIf (s.reactionOf k).notifies .fault
  s.inhibitEnd before

/-- FAULT_ACK (R182): the reply carries the entry as it stood before the clearing. -/
def execFaultAck (tag kind : Nat) (s : State) : Effect :=
  .next (s.request .faultAck tag fun s =>
    match faultKind? kind with
    | none => s.refuse .badValue
    | some k =>
      if !s.entries[k.ix].latched then s.refuse .wrongState
      else if k.isCondition && s.condPresent k then s.refuse .stillPresent
      else (s.acknowledge k).okay (s.entryFields k))

/-! ### Settings (R183, R184) -/

/-- The settings of a kind as reply fields. -/
def faultSetFields (f : FaultSet) : List Field := [fN 1 f.reaction.code, fN 2 f.delay, fB f.beacon]

/-- New settings of a kind: a more severe reaction is applied at once to an ACTIVE entry (R184), and the INHIBIT follows
the new reaction (R177). -/
def State.setFault (s : State) (k : FaultKind) (f : FaultSet) : State :=
  let old := s.reactionOf k
  let before := s.inhibit
  let s := s.modKept fun r => { r with faults := r.faults.set k.ix f }
  let e := s.entries[k.ix]
  let s := if e.state = .active ∧ old.code < f.reaction.code then s.applyReaction f.reaction (members e.involved) else s
  s.inhibitEnd before

/-- The settings a FAULT_SETUP of a kind carries are within their ranges (R183, step 2). -/
def faultSet? (reaction delay flag : Nat) : Option FaultSet :=
  match reaction? reaction with
  | some r => if within delay 0 600 && yesNo flag then some { reaction := r, delay := delay, beacon := yes flag } else none
  | none => none

/-- The fixed reactions allow their own reaction and delay 0 only (R183, step 3). -/
def FaultKind.allows (k : FaultKind) (f : FaultSet) : Bool :=
  match k.fixedReaction? with
  | some r => f.reaction == r && f.delay == 0
  | none => true

/-- FAULT_SETUP of kind number 0 (R183, R192). -/
def State.setBeacon (s : State) (body : FaultSetupBody) : Answer :=
  match body with
  | .read => s.okay [fN 2 s.kept.beaconMin]
  | .beaconMin t => if within t 10 600 then (s.modKept fun r => { r with beaconMin := t }).okay else s.refuse .badValue
  | .settings _ _ _ => s.refuse .badValue

/-- FAULT_SETUP of kinds 1 to 14 (R183, R192). -/
def State.setKind (s : State) (k : FaultKind) (body : FaultSetupBody) : Answer :=
  match body with
  | .read => s.okay (faultSetFields s.kept.faults[k.ix])
  | .beaconMin _ => s.refuse .badValue
  | .settings reaction delay flag =>
    match faultSet? reaction delay flag with
    | some f => if k.allows f then (s.setFault k f).okay else s.refuse .notPermitted
    | none => s.refuse .badValue

/-- FAULT_SETUP (R183, R184). -/
def execFaultSetup (tag kind : Nat) (body : FaultSetupBody) (s : State) : Effect :=
  .next (s.request .faultSetup tag fun s =>
    if kind = 0 then s.setBeacon body
    else match faultKind? kind with
      | some k => s.setKind k body
      | none => s.refuse .badValue)

/-! ### FAULT_LIST (R186) -/

/-- The reply fields of FAULT_LIST from a kind number on: at most ten entries. The beacon timer remaining is sent as an
optional field (log entry 61); where no entry is returned, 0 stand above the last one (log entry 55). The beacon state
is sent with on as 01h (log entry 79). -/
def State.faultFields (s : State) (kind : Nat) : List Field :=
  let found := s.latchedKinds.filter fun k => decide (kind ≤ k.number)
  let shown := found.take 10
  [fN 1 s.latchedKinds.length, fN 1 shown.length] ++ shown.flatMap s.entryFields ++
  [fN 1 (found.length - shown.length), fB s.inhibit, fB s.beaconState] ++ fOptN 2 s.beaconT ++ [fN 2 s.kept.beaconMin]

/-- FAULT_LIST (R186). -/
def execFaultList (tag : Nat) (kind : Option Nat) (s : State) : Effect :=
  .next (s.request .faultList tag fun s =>
    match kind with
    | none => s.okay (s.faultFields 1)
    | some n => if within n 1 14 then s.okay (s.faultFields n) else s.refuse .badValue)

/-! ### Timers (R180, R185) -/

/-- The alarm timer of an ALARM entry has reached zero (R180). -/
def State.alarmExpires (s : State) (k : FaultKind) : State :=
  let set := s.entries[k.ix].involved
  let s := s.modEntry k fun e => { e with state := .active, alarmT := none }
  s.applyReaction (s.reactionOf k) (members set)

/-- ALARM_TIMER_EXPIRY (R180), for an entry in ALARM. -/
def execAlarmTimerExpiry (kind : Fin 14) (s : State) : Effect :=
  .next (s.whileRunning fun s =>
    let k := FaultKind.ofIx kind
    if s.entries[k.ix].state = .alarm then s.alarmExpires k else s)

/-- BEACON_TIMER_EXPIRY (R185): the timer stops, where it stands at zero: an occurrence taken first has reloaded it
(R188; log entry 2). -/
def execBeaconTimerExpiry (s : State) : Effect :=
  .next (s.whileRunning fun s => if s.beaconT = some 0 then { s with beaconT := none } else s)

end Sys2Proof.Machine
end

