-- ==== Sys2Proof/Machine/Received.lean ====
section
/-! DEFINITION. Received bytes on the Command Link: the fields of a request's payload both ways, the command a received
frame spells, and the rows of bytes (R189 to R192; log entries 18, 63). -/

namespace Sys2Proof.Machine

/-! ### Numbers of a payload (R189, R192) -/

/-- The number a byte string spells, least significant byte first. -/
def natOf : List Byte → Nat
  | [] => 0
  | b :: bs => b.toNat + 256 * natOf bs

/-- The number of `w` bytes from an offset of a payload on. -/
def num (p : List Byte) (start w : Nat) : Nat := natOf ((p.drop start).take w)

/-- A number of four bytes in two's complement. -/
def signed (n : Nat) : Int := if n < 2147483648 then n else (n : Int) - 4294967296

/-- The signed number of four bytes from an offset on. -/
def sint (p : List Byte) (start : Nat) : Int := signed (num p start 4)

/-- A payload without fields reads a setup; one with fields carries it. -/
def carried {α : Type} (p : List Byte) (x : α) : Option α := if p.isEmpty then none else some x

/-! ### Records from a payload, their fields in the order of the owner's rule (R192) -/

/-- R2. -/
def passAt (p : List Byte) (start : Nat) : PassRec :=
  { first := num p start 1, last := num p (start + 1) 1, target := num p (start + 2) 2, drop := num p (start + 4) 2,
    profile := num p (start + 6) 1 }

/-- R1, R4: tag, hoist, declared mass, pass count, the pass records. -/
def postOf (p : List Byte) : PostFields :=
  { orderTag := num p 0 4, hoist := num p 4 1, mass := num p 5 4, passCount := num p 9 1, pass1 := passAt p 10,
    pass2 := if p.length = 24 then some (passAt p 17) else none }

/-- R19, R20, after the index. -/
def profileOf (p : List Byte) : ProfileFields :=
  { entrySpeed := num p 1 2, dwell := num p 3 2, withdrawal := num p 5 1, drain := num p 6 2, shakes := num p 8 1,
    amplitude := num p 9 1, clean := num p 10 1 }

/-- R52. -/
def cycleOf (p : List Byte) : CycleSet :=
  { alignTimeout := num p 0 2, abortSpeed := num p 2 2, abortDrain := num p 4 2, overrun := num p 6 2 }

/-- R85. -/
def kettleOf (p : List Byte) : KettleSet :=
  { floor := num p 0 2, clearance := num p 2 2, skimLimit := num p 4 1, waitAlert := num p 5 2 }

/-- R123, the plain numbers. -/
def limitsOf (p : List Byte) : WeighLimits :=
  { window := num p 6 1, band := num p 7 2, timeout := num p 9 2, ageLimit := num p 11 2, contact := num p 13 2,
    snag := num p 15 2, slack := num p 17 2, bathLow := num p 19 2, bathHigh := num p 21 2 }

/-- R105, the zero and the scale of one hoist. -/
def calibrationAt (p : List Byte) (start : Nat) : Calibration := { zero := sint p start, scale := num p (start + 4) 4 }

/-- R123: the settings, then the calibration hoist by hoist (log entry 63). -/
def weighOf (p : List Byte) : WeighFields :=
  { mode := num p 0 1, slots := #v[num p 1 1, num p 2 1, num p 3 1, num p 4 1], followed := num p 5 1,
    limits := limitsOf p,
    calib := #v[calibrationAt p 23, calibrationAt p 31, calibrationAt p 39, calibrationAt p 47] }

/-- R136. -/
def levelOf (p : List Byte) : LevelSet :=
  { refDepth := num p 0 2, refInventory := num p 2 4, coefficient := num p 6 2, band := num p 8 2, ageLimit := num p 10 2 }

/-- R151. -/
def driveOf (p : List Byte) : DriveSet :=
  { homeSpeed := num p 0 2, travelLimit := num p 2 2, readyTimeout := num p 4 1, shakeSpeed := num p 5 2 }

/-- R153. -/
def benchOf (p : List Byte) : BenchFields :=
  { hoist := num p 0 1, dir := num p 1 1, brake := num p 2 1, permit := num p 3 1, steps := num p 4 2, rate := num p 6 2,
    beacon := num p 8 1 }

/-- R171. -/
def feedOf (p : List Byte) : FeedFields :=
  { auto := num p 0 1, relay := num p 12 1,
    numbers :=
      { threshold := num p 1 2, target := num p 3 2, ingotMass := num p 5 2, maximum := num p 7 1, timeout := num p 8 2,
        settle := num p 10 2, hold := num p 13 1 } }

/-- R183, R192: after the kind number nothing, the beacon minimum on-time, or the three settings, by the length. -/
def faultBodyOf (p : List Byte) : FaultSetupBody :=
  if p.length = 1 then .read
  else if p.length = 3 then .beaconMin (num p 1 2)
  else .settings (num p 1 1) (num p 2 2) (num p 4 1)

/-- R197: one enable a class, in the order of the classes' numbers. -/
def enablesOf (p : List Byte) : Vector Nat 6 :=
  #v[num p 0 1, num p 1 1, num p 2 1, num p 3 1, num p 4 1, num p 5 1]

/-! ### The command a request frame spells (R192) -/

/-- The command of a request of a kind, with its tag and a payload of a length the kind takes. -/
def requestOf (k : ReqKind) (tag : Nat) (p : List Byte) : Instr :=
  match k with
  | .identify => .identify tag
  | .status => .status tag
  | .restart => .restart tag
  | .noticeSetup => .noticeSetup tag (carried p (enablesOf p))
  | .inputRead => .inputRead tag
  | .orderPost => .orderPost tag (postOf p)
  | .orderCancel => .orderCancel tag (num p 0 4)
  | .orderQuery => .orderQuery tag (num p 0 4)
  | .queueList => .queueList tag
  | .profileWrite => .profileWrite tag (num p 0 1) (profileOf p)
  | .profileRead => .profileRead tag (num p 0 1)
  | .hoistStatus => .hoistStatus tag (num p 0 1)
  | .hoistRun => .hoistRun tag (num p 0 1)
  | .hoistStop => .hoistStop tag (num p 0 1)
  | .hoistHold => .hoistHold tag (num p 0 1)
  | .hoistResume => .hoistResume tag (num p 0 1)
  | .hoistAbort => .hoistAbort tag (num p 0 1)
  | .rehangDone => .rehangDone tag (num p 0 1)
  | .cycleSetup => .cycleSetup tag (carried p (cycleOf p))
  | .bookOpen => .bookOpen tag (num p 0 4)
  | .bookPost => .bookPost tag (num p 0 1) (sint p 1) (num p 5 1)
  | .bookRead => .bookRead tag (num p 0 4)
  | .bookTrim => .bookTrim tag (num p 0 4)
  | .bookSummary => .bookSummary tag
  | .kettleSetup => .kettleSetup tag (carried p (kettleOf p))
  | .skimDone => .skimDone tag (num p 0 1) (num p 1 1)
  | .zoneStatus => .zoneStatus tag
  | .weighNow => .weighNow tag (num p 0 1)
  | .weighRead => .weighRead tag
  | .weighSetup => .weighSetup tag (carried p (weighOf p))
  | .levelSetup => .levelSetup tag (carried p (levelOf p))
  | .levelRead => .levelRead tag (carried p (num p 0 1))
  | .driveSetup => .driveSetup tag (carried p (driveOf p))
  | .benchEnter => .benchEnter tag
  | .benchDrive => .benchDrive tag (benchOf p)
  | .benchNotices => .benchNotices tag
  | .benchExit => .benchExit tag
  | .feed => .feed tag (num p 0 1)
  | .feederRelay => .feederRelay tag (num p 0 1) (p.drop 1)
  | .feedSetup => .feedSetup tag (carried p (feedOf p))
  | .feedRead => .feedRead tag
  | .faultAck => .faultAck tag (num p 0 1)
  | .faultSetup => .faultSetup tag (num p 0 1) (faultBodyOf p)
  | .faultList => .faultList tag (carried p (num p 0 1))

/-! ### The payload of a request (R192): the fields of `requestOf`, back to bytes -/

/-- The fields of a FAULT_SETUP after its kind number (R183). -/
def faultBodyFields : FaultSetupBody → List Field
  | .read => []
  | .beaconMin t => [fN 2 t]
  | .settings r d f => [fN 1 r, fN 2 d, fN 1 f]

/-- The kind of a request and its fields after the tag; a command that is no request has none. -/
def requestFields : Instr → Option (ReqKind × List Field)
  | .identify _ => some (.identify, [])
  | .status _ => some (.status, [])
  | .restart _ => some (.restart, [])
  | .noticeSetup _ v => some (.noticeSetup, (v.map fun x => x.toList.map (fN 1)).getD [])
  | .inputRead _ => some (.inputRead, [])
  | .orderPost _ p => some (.orderPost,
      [fN 4 p.orderTag, fN 1 p.hoist, fN 4 p.mass, fN 1 p.passCount] ++ passFields p.pass1 ++
      (p.pass2.map passFields).getD [])
  | .orderCancel _ t => some (.orderCancel, [fN 4 t])
  | .orderQuery _ t => some (.orderQuery, [fN 4 t])
  | .queueList _ => some (.queueList, [])
  | .profileWrite _ i f => some (.profileWrite,
      [fN 1 i, fN 2 f.entrySpeed, fN 2 f.dwell, fN 1 f.withdrawal, fN 2 f.drain, fN 1 f.shakes, fN 1 f.amplitude,
       fN 1 f.clean])
  | .profileRead _ i => some (.profileRead, [fN 1 i])
  | .hoistStatus _ h => some (.hoistStatus, [fN 1 h])
  | .hoistRun _ h => some (.hoistRun, [fN 1 h])
  | .hoistStop _ h => some (.hoistStop, [fN 1 h])
  | .hoistHold _ h => some (.hoistHold, [fN 1 h])
  | .hoistResume _ h => some (.hoistResume, [fN 1 h])
  | .hoistAbort _ h => some (.hoistAbort, [fN 1 h])
  | .rehangDone _ h => some (.rehangDone, [fN 1 h])
  | .cycleSetup _ v => some (.cycleSetup, (v.map cycleFields).getD [])
  | .bookOpen _ n => some (.bookOpen, [fN 4 n])
  | .bookPost _ k m n => some (.bookPost, [fN 1 k, (4, m), fN 1 n])
  | .bookRead _ n => some (.bookRead, [fN 4 n])
  | .bookTrim _ n => some (.bookTrim, [fN 4 n])
  | .bookSummary _ => some (.bookSummary, [])
  | .kettleSetup _ v => some (.kettleSetup, (v.map kettleFields).getD [])
  | .skimDone _ a b => some (.skimDone, [fN 1 a, fN 1 b])
  | .zoneStatus _ => some (.zoneStatus, [])
  | .weighNow _ h => some (.weighNow, [fN 1 h])
  | .weighRead _ => some (.weighRead, [])
  | .weighSetup _ v => some (.weighSetup, (v.map fun f =>
      weighSetFields f.mode f.followed f.slots f.limits f.calib).getD [])
  | .levelSetup _ v => some (.levelSetup, (v.map levelSetFields).getD [])
  | .levelRead _ h => some (.levelRead, (h.map fun n => [fN 1 n]).getD [])
  | .driveSetup _ v => some (.driveSetup, (v.map driveFields).getD [])
  | .benchEnter _ => some (.benchEnter, [])
  | .benchDrive _ f => some (.benchDrive,
      [fN 1 f.hoist, fN 1 f.dir, fN 1 f.brake, fN 1 f.permit, fN 2 f.steps, fN 2 f.rate, fN 1 f.beacon])
  | .benchNotices _ => some (.benchNotices, [])
  | .benchExit _ => some (.benchExit, [])
  | .feed _ n => some (.feed, [fN 1 n])
  | .feederRelay _ k p => some (.feederRelay, fN 1 k :: fBytes p)
  | .feedSetup _ v => some (.feedSetup, (v.map fun f =>
      [fN 1 f.auto, fN 2 f.numbers.threshold, fN 2 f.numbers.target, fN 2 f.numbers.ingotMass, fN 1 f.numbers.maximum,
       fN 2 f.numbers.timeout, fN 2 f.numbers.settle, fN 1 f.relay, fN 1 f.numbers.hold]).getD [])
  | .feedRead _ => some (.feedRead, [])
  | .faultAck _ k => some (.faultAck, [fN 1 k])
  | .faultSetup _ k b => some (.faultSetup, fN 1 k :: faultBodyFields b)
  | .faultList _ k => some (.faultList, (k.map fun n => [fN 1 n]).getD [])
  | _ => none

/-- The payload of a request. -/
def requestPayload (fields : List Field) : List Byte := fields.flatMap Field.bytes

/-- The frame of a request (R189). -/
def requestFrame (k : ReqKind) (tag : Nat) (p : List Byte) : List Byte :=
  frameBytes Config.linkStart (bytesOf 1 k.code ++ bytesOf 1 tag ++ bytesOf 1 p.length) p

/-! ### A received request carried out (R191) -/

/-- The outcome of the row of a request, by the block that owns its matter. -/
def ownerOutcome (i : Instr) (s : State) : Effect :=
  match i with
  | .identify t => execIdentify t s
  | .status t => execStatus t s
  | .restart t => execRestart t s
  | .noticeSetup t v => execNoticeSetup t v s
  | .inputRead t => execInputRead t s
  | .orderPost t p => execOrderPost t p s
  | .orderCancel t n => execOrderCancel t n s
  | .orderQuery t n => execOrderQuery t n s
  | .queueList t => execQueueList t s
  | .profileWrite t i f => execProfileWrite t i f s
  | .profileRead t i => execProfileRead t i s
  | .hoistStatus t h => execHoistStatus t h s
  | .hoistRun t h => execHoistRun t h s
  | .hoistStop t h => execHoistStop t h s
  | .hoistHold t h => execHoistHold t h s
  | .hoistResume t h => execHoistResume t h s
  | .hoistAbort t h => execHoistAbort t h s
  | .rehangDone t h => execRehangDone t h s
  | .cycleSetup t v => execCycleSetup t v s
  | .bookOpen t n => execBookOpen t n s
  | .bookPost t k m n => execBookPost t k m n s
  | .bookRead t n => execBookRead t n s
  | .bookTrim t n => execBookTrim t n s
  | .bookSummary t => execBookSummary t s
  | .kettleSetup t v => execKettleSetup t v s
  | .skimDone t a b => execSkimDone t a b s
  | .zoneStatus t => execZoneStatus t s
  | .weighNow t h => execWeighNow t h s
  | .weighRead t => execWeighRead t s
  | .weighSetup t v => execWeighSetup t v s
  | .levelSetup t v => execLevelSetup t v s
  | .levelRead t h => execLevelRead t h s
  | .driveSetup t v => execDriveSetup t v s
  | .benchEnter t => execBenchEnter t s
  | .benchDrive t f => execBenchDrive t f s
  | .benchNotices t => execBenchNotices t s
  | .benchExit t => execBenchExit t s
  | .feed t n => execFeed t n s
  | .feederRelay t k p => execFeederRelay t k p s
  | .feedSetup t v => execFeedSetup t v s
  | .feedRead t => execFeedRead t s
  | .faultAck t k => execFaultAck t k s
  | .faultSetup t k b => execFaultSetup t k b s
  | .faultList t k => execFaultList t k s
  | _ => .next s

/-- The state after a request carried out. -/
def State.carryOut (s : State) (i : Instr) : State :=
  match ownerOutcome i s with
  | .next t => t
  | _ => s

/-! ### Received bytes (R190, R191) -/

/-- A received frame judged at its receipt (R191): the reply queue, the kind, the length; one that passes is carried out
as the row of its request is (log entry 18). -/
def State.judgeFrame (s : State) (code tag : Nat) (payload : List Byte) : State :=
  if s.linkFull then s.countQueueFull
  else match reqKind? code with
    | none => (s.addReply code tag .unknownKind []).finish
    | some k =>
      if k.lengthOk payload.length then s.carryOut (requestOf k tag payload)
      else (s.addReply code tag .badLength []).finish

/-- One byte on CL_RX (R190). -/
def State.linkByte (s : State) (b : Byte) : State :=
  let r := receive Config.linkStart 3 s.link.rx b
  let s := s.modLink fun l => { l with rx := r.1 }
  match r.2 with
  | .nothing => s
  | .overLength => s.modLink fun l => { l with overLength := bump16 l.overLength }
  | .badCheck => s.modLink fun l => { l with badChecks := bump16 l.badChecks }
  | .frame header payload => s.judgeFrame (header.getD 0 0).toNat (header.getD 1 0).toNat payload

/-- CL_FRAME_REJECTED (R190, R191): the bytes are received one by one (log entry 18). -/
def execClFrameRejected (bytes : List Byte) (s : State) : Effect :=
  .next (s.whileRunning fun s => bytes.foldl State.linkByte s)

/-- A gap of more than 10 ms discards the frame being built and is counted (R190). -/
def Link.gap (l : Link) : Link := if l.rx.isEmpty then l else { l with rx := [], gaps := bump16 l.gaps }

/-- CL_FRAME_GAP (R190). -/
def execClFrameGap (bytes : List Byte) (s : State) : Effect :=
  .next (s.whileRunning fun s => (bytes.foldl State.linkByte s).modLink Link.gap)

end Sys2Proof.Machine
end

