-- ==== Sys2Proof/Machine/Clock.lean ====
section
/-! DEFINITION. A tenth of a second passes (log entry 1): running clocks rise and timers fall, none below 0; the expiry
of each timer is a command of its own (log entry 2). -/

namespace Sys2Proof.Machine

/-- A timer a tenth later. -/
def tickTimer (t : Option Nat) : Option Nat := t.map fun n => n - 1

/-- The timers and the clock of a dip context (R24, R42). -/
def DipCtx.tick (c : DipCtx) : DipCtx :=
  { c with alignT := tickTimer c.alignT, dwellT := tickTimer c.dwellT, drainT := tickTimer c.drainT,
           clock := if c.clock.run = .running then { c.clock with tenths := c.clock.tenths + 1 } else c.clock }

/-- The ready-wait timer (R145). -/
def DriveIf.tick (d : DriveIf) : DriveIf := { d with readyT := tickTimer d.readyT }

/-- The weigh timer (R111). -/
def WeighUnit.tick (w : WeighUnit) : WeighUnit :=
  { w with service := w.service.map fun v => { v with timer := v.timer - 1 } }

/-- The timers of the Feeder Line (R160). -/
def FeederLine.tick (f : FeederLine) : FeederLine :=
  { f with timer := tickTimer f.timer, settleT := tickTimer f.settleT,
           relay := f.relay.map fun r => { r with hold := tickTimer r.hold } }

/-- An alarm timer (R179). -/
def FaultEntry.tick (e : FaultEntry) : FaultEntry := { e with alarmT := tickTimer e.alarmT }

/-- A tenth of a second of the running part; nothing moves in any other power condition (R80). -/
def State.tick (s : State) : State :=
  if s.power = .running then
    { s with tenths := min 9 (s.tenths + 1), ctxs := s.ctxs.map DipCtx.tick, drives := s.drives.map DriveIf.tick,
             wu := s.wu.tick, feeder := s.feeder.tick, entries := s.entries.map FaultEntry.tick,
             beaconT := tickTimer s.beaconT }
  else s

end Sys2Proof.Machine
end

