-- ==== Sys2Proof/Machine/Dispatch.lean ====
section
/-! DEFINITION. Every command runs its meaning: one arm a constructor of Instr. -/

namespace Sys2Proof.Machine

def exec (i : Instr) (s : State) : Host.Outcome State Fault Refusal :=
  match i with
  | .powerOn pins => Sys2Proof.Machine.execPowerOn pins s
  | .powerLoss supply => Sys2Proof.Machine.execPowerLoss supply s
  | .clFrameRejected bytes => Sys2Proof.Machine.execClFrameRejected bytes s
  | .clFrameGap bytes => Sys2Proof.Machine.execClFrameGap bytes s
  | .txFrameEnd => Sys2Proof.Machine.execTxFrameEnd s
  | .identify tag => Sys2Proof.Machine.execIdentify tag s
  | .status tag => Sys2Proof.Machine.execStatus tag s
  | .restart tag => Sys2Proof.Machine.execRestart tag s
  | .noticeSetup tag enables => Sys2Proof.Machine.execNoticeSetup tag enables s
  | .inputRead tag => Sys2Proof.Machine.execInputRead tag s
  | .orderPost tag post => Sys2Proof.Machine.execOrderPost tag post s
  | .orderCancel tag orderTag => Sys2Proof.Machine.execOrderCancel tag orderTag s
  | .orderQuery tag orderTag => Sys2Proof.Machine.execOrderQuery tag orderTag s
  | .queueList tag => Sys2Proof.Machine.execQueueList tag s
  | .profileWrite tag index fields => Sys2Proof.Machine.execProfileWrite tag index fields s
  | .profileRead tag index => Sys2Proof.Machine.execProfileRead tag index s
  | .hoistStatus tag hoist => Sys2Proof.Machine.execHoistStatus tag hoist s
  | .hoistRun tag hoist => Sys2Proof.Machine.execHoistRun tag hoist s
  | .hoistStop tag hoist => Sys2Proof.Machine.execHoistStop tag hoist s
  | .hoistHold tag hoist => Sys2Proof.Machine.execHoistHold tag hoist s
  | .hoistResume tag hoist => Sys2Proof.Machine.execHoistResume tag hoist s
  | .hoistAbort tag hoist => Sys2Proof.Machine.execHoistAbort tag hoist s
  | .rehangDone tag hoist => Sys2Proof.Machine.execRehangDone tag hoist s
  | .cycleSetup tag set => Sys2Proof.Machine.execCycleSetup tag set s
  | .bookOpen tag inventory => Sys2Proof.Machine.execBookOpen tag inventory s
  | .bookPost tag kind mass note => Sys2Proof.Machine.execBookPost tag kind mass note s
  | .bookRead tag seq => Sys2Proof.Machine.execBookRead tag seq s
  | .bookTrim tag seq => Sys2Proof.Machine.execBookTrim tag seq s
  | .bookSummary tag => Sys2Proof.Machine.execBookSummary tag s
  | .kettleSetup tag set => Sys2Proof.Machine.execKettleSetup tag set s
  | .skimDone tag first last => Sys2Proof.Machine.execSkimDone tag first last s
  | .zoneStatus tag => Sys2Proof.Machine.execZoneStatus tag s
  | .weighNow tag hoist => Sys2Proof.Machine.execWeighNow tag hoist s
  | .weighRead tag => Sys2Proof.Machine.execWeighRead tag s
  | .weighSetup tag set => Sys2Proof.Machine.execWeighSetup tag set s
  | .levelSetup tag set => Sys2Proof.Machine.execLevelSetup tag set s
  | .levelRead tag hoist => Sys2Proof.Machine.execLevelRead tag hoist s
  | .driveSetup tag set => Sys2Proof.Machine.execDriveSetup tag set s
  | .benchEnter tag => Sys2Proof.Machine.execBenchEnter tag s
  | .benchDrive tag fields => Sys2Proof.Machine.execBenchDrive tag fields s
  | .benchNotices tag => Sys2Proof.Machine.execBenchNotices tag s
  | .benchExit tag => Sys2Proof.Machine.execBenchExit tag s
  | .feed tag count => Sys2Proof.Machine.execFeed tag count s
  | .feederRelay tag kind payload => Sys2Proof.Machine.execFeederRelay tag kind payload s
  | .feedSetup tag set => Sys2Proof.Machine.execFeedSetup tag set s
  | .feedRead tag => Sys2Proof.Machine.execFeedRead tag s
  | .faultAck tag kind => Sys2Proof.Machine.execFaultAck tag kind s
  | .faultSetup tag kind body => Sys2Proof.Machine.execFaultSetup tag kind body s
  | .faultList tag kind => Sys2Proof.Machine.execFaultList tag kind s
  | .readyChange h level => Sys2Proof.Machine.execReadyChange h level s
  | .driveFaultChange h level => Sys2Proof.Machine.execDriveFaultChange h level s
  | .topChange h level => Sys2Proof.Machine.execTopChange h level s
  | .alignedChange h level => Sys2Proof.Machine.execAlignedChange h level s
  | .areaClearChange h level => Sys2Proof.Machine.execAreaClearChange h level s
  | .rehangInputChange h level => Sys2Proof.Machine.execRehangInputChange h level s
  | .drivePowerChange level => Sys2Proof.Machine.execDrivePowerChange level s
  | .stepPulse h => Sys2Proof.Machine.execStepPulse h s
  | .readyTimeout h => Sys2Proof.Machine.execReadyTimeout h s
  | .motionReached h => Sys2Proof.Machine.execMotionReached h s
  | .motionFailed h => Sys2Proof.Machine.execMotionFailed h s
  | .claimGrant h => Sys2Proof.Machine.execClaimGrant h s
  | .alignTimeout h => Sys2Proof.Machine.execAlignTimeout h s
  | .dwellTimerExpiry h => Sys2Proof.Machine.execDwellTimerExpiry h s
  | .drainTimerExpiry h => Sys2Proof.Machine.execDrainTimerExpiry h s
  | .dwellOverrun h => Sys2Proof.Machine.execDwellOverrun h s
  | .samplePeriodEnd count => Sys2Proof.Machine.execSamplePeriodEnd count s
  | .weighTimerExpiry => Sys2Proof.Machine.execWeighTimerExpiry s
  | .weighResult h => Sys2Proof.Machine.execWeighResult h s
  | .captureArrival h => Sys2Proof.Machine.execCaptureArrival h s
  | .hoistViewReport h => Sys2Proof.Machine.execHoistViewReport h s
  | .captureProcessStep => Sys2Proof.Machine.execCaptureProcessStep s
  | .autoFeedRequest => Sys2Proof.Machine.execAutoFeedRequest s
  | .dispenseSent => Sys2Proof.Machine.execDispenseSent s
  | .relayFrameSent => Sys2Proof.Machine.execRelayFrameSent s
  | .feederFrameDiscarded bytes => Sys2Proof.Machine.execFeederFrameDiscarded bytes s
  | .feederFrameGap bytes => Sys2Proof.Machine.execFeederFrameGap bytes s
  | .accept payload => Sys2Proof.Machine.execAccept payload s
  | .decline payload => Sys2Proof.Machine.execDecline payload s
  | .drop payload => Sys2Proof.Machine.execDrop payload s
  | .done payload => Sys2Proof.Machine.execDone payload s
  | .feederOtherFrame kind payload => Sys2Proof.Machine.execFeederOtherFrame kind payload s
  | .feederTimerExpiry => Sys2Proof.Machine.execFeederTimerExpiry s
  | .settleTimerExpiry => Sys2Proof.Machine.execSettleTimerExpiry s
  | .relayHoldExpiry => Sys2Proof.Machine.execRelayHoldExpiry s
  | .alarmTimerExpiry kind => Sys2Proof.Machine.execAlarmTimerExpiry kind s
  | .beaconTimerExpiry => Sys2Proof.Machine.execBeaconTimerExpiry s
  | .claimWaitAlert h => Sys2Proof.Machine.execClaimWaitAlert h s
  | .runtimeTick => Sys2Proof.Machine.execRuntimeTick s
  | .retentionSupplyLoss => Sys2Proof.Machine.execRetentionSupplyLoss s

end Sys2Proof.Machine
end

