-- ==== Sys2Proof/Safety.lean ====
section
/-! DEFINITION. What stays true of the part at every step: the balance of the book (R62, R63), the places of the reply
queue (R194), the runway order of the held zones (R90), the order table (R1, R6). And the words the statements use: when
the part takes a request, what a reply does to the link, when nothing else acts at the same moment, what a claim and the
examination of the waiting claims do (R89 to R92), the mark and the report of a plant input (R198, R38), an abort (R45),
the end of the INHIBIT (R177), a frame of the feeder, a latch that reaches no dip context, an occurrence taken (R181), a weighing asked for, a load
out and its drain begun or ended, a hook sent to a height, a resumed state, a BATH_TEMP evaluated. -/

namespace Sys2Proof.Machine

/-- The six amount sums added together (R63). -/
def Retained.sumTotals (r : Retained) : Int := (entryKinds.map fun k => r.totals[k.ix].sum).sum

/-- The inventory equals the base plus the amounts in the journal (R62), and the six sums (R63). -/
def Retained.balanced (r : Retained) : Prop :=
  r.inventory = r.base + amounts r.journal ∧ r.sumTotals = r.inventory

/-- The reply queue and the place held for a relay take at most four places, and an outstanding relay holds one
(R194). -/
def State.placesOk (s : State) : Prop :=
  s.link.places ≤ Config.replyPlaces ∧ (s.feeder.relay.isSome = true → s.link.held = true)

/-- Where hoists i < j both hold zones, every zone of i is numbered lower than every zone of j (R90). -/
def runwayOrdered (holders : Vector (Option Hoist) 12) : Prop :=
  ∀ (y z : Fin 12) (i j : Hoist), holders[y] = some i → holders[z] = some j → i.val < j.val → zoneNo y < zoneNo z

/-- At most 24 orders, no two with the same tag (R1). -/
def ordersOk (orders : List Order) : Prop :=
  orders.length ≤ Config.orderSlots ∧ (orders.map Order.tag).Nodup

/-- The part runs, with nothing left over from an earlier step (log entries 4, 14). -/
abbrev State.ready (s : State) : Prop := s.power = .running ∧ s.agenda = Agenda.empty

/-- The part takes a request: it runs and the reply queue has a free place (R191, R194). -/
abbrev State.listening (s : State) : Prop := s.ready ∧ s.linkFull = false

/-- The link after a reply has joined its queue at the newest end: an idle transmitter begins the oldest reply (R194,
R195). A frame being received is gone with the request (log entry 19). -/
def Link.withReply (l : Link) (r : Reply) : Link :=
  match l.tx, l.replies with
  | none, [] => { l with rx := [], tx := some (.reply r) }
  | none, q :: qs => { l with rx := [], replies := qs ++ [r], tx := some (.reply q) }
  | some _, qs => { l with rx := [], replies := qs ++ [r] }

/-- The state after a request whose only further effect is its reply. -/
def State.replied (s : State) (k : ReqKind) (tag : Nat) (r : Result) (fields : List Field := []) : State :=
  { s with link := s.link.withReply { kind := replyKind k.code, tag := tag, result := r, fields := fields } }

/-- The replies the part still owes the host, oldest first, the one being sent included. -/
def Link.owed (l : Link) : List Reply :=
  (match l.tx with
   | some (.reply r) => [r]
   | _ => []) ++ l.replies

/-- From `s` to `t` one reply has joined at the newest end, and nothing else of the replies has changed. -/
abbrev Replies (s t : State) (k : ReqKind) (tag : Nat) (r : Result) (fields : List Field := []) : Prop :=
  t.link.owed = s.link.owed ++ [{ kind := replyKind k.code, tag := tag, result := r, fields := fields }]

/-- A claim is grantable over the zones as they are held and their surfaces: its span free or its own, the runway order,
a clean surface where it asks one (R90). -/
abbrev mayGrant (holders : Vector (Option Hoist) 12) (surfaces : Vector Surface 12) (c : Claim) : Prop :=
  (∀ z : Fin 12, c.first ≤ zoneNo z → zoneNo z ≤ c.last → holders[z] = none ∨ holders[z] = some c.hoist) ∧
  (∀ (z : Fin 12) (j : Hoist), holders[z] = some j →
    (j.val < c.hoist.val → zoneNo z < c.first) ∧ (c.hoist.val < j.val → c.last < zoneNo z)) ∧
  (c.clean = true → ∀ z : Fin 12, c.first ≤ zoneNo z → zoneNo z ≤ c.last → surfaces[z].ashed = false)

/-- Two claims ask for a zone in common (R89). -/
abbrev Claim.meets (c d : Claim) : Prop := c.first ≤ d.last ∧ d.first ≤ c.last

/-- The grant that answers a claim (R93). -/
abbrev Claim.answer (c : Claim) : Grant := ⟨c.tag, c.pass, c.serial⟩

/-- From `s` to `t` a claim has arrived at the Zone Arbiter: granted where it is grantable and overlaps no waiting claim,
else at the newest end of the wait list (R89). -/
abbrev ClaimArrives (s t : State) (c : Claim) : Prop :=
  (mayGrant s.holders s.kept.surfaces c ∧ (∀ w ∈ s.waits, ¬w.meets c) →
    t.waits = s.waits ∧ t.mail[c.hoist].grants = s.mail[c.hoist].grants ++ [c.answer] ∧
    ∀ z : Fin 12, t.holders[z] = if c.first ≤ zoneNo z ∧ zoneNo z ≤ c.last then some c.hoist else s.holders[z]) ∧
  (¬(mayGrant s.holders s.kept.surfaces c ∧ ∀ w ∈ s.waits, ¬w.meets c) →
    t.waits = s.waits ++ [c] ∧ t.mail[c.hoist].grants = s.mail[c.hoist].grants ∧ t.holders = s.holders)

/-- From `s` to `t` the wait list has been examined over the surfaces of `t` (R92): oldest first, a claim is granted where
it is grantable over the zones as the earlier grants leave them and overlaps no older claim that stays; the others stay in
their order. `held k` are the holders before the claim in place `k` is judged, `granted k` whether it is granted. -/
def Examined (s t : State) : Prop :=
  ∃ (held : Nat → Vector (Option Hoist) 12) (granted : Nat → Bool), held 0 = s.holders ∧
    (∀ k c, s.waits[k]? = some c →
      (granted k = true ↔ mayGrant (held k) t.kept.surfaces c ∧
        ∀ j d, j < k → s.waits[j]? = some d → granted j = false → ¬d.meets c) ∧
      ∀ z : Fin 12, (held (k + 1))[z] =
        if granted k = true ∧ c.first ≤ zoneNo z ∧ zoneNo z ≤ c.last then some c.hoist else (held k)[z]) ∧
    t.holders = held s.waits.length ∧ t.waits = (s.waits.zipIdx.filter fun x => !granted x.2).map Prod.fst ∧
    ∀ h : Hoist, t.mail[h] = { s.mail[h] with
      grants := s.mail[h].grants ++ (s.waits.zipIdx.filter fun x => granted x.2 && x.1.hoist == h).map fun x => x.1.answer }

/-- No QUEUED order waits, so that no event of R9 brings a take. -/
abbrev State.noneQueued (s : State) : Prop := ∀ o ∈ s.orders, o.state ≠ .queued

/-- The event of a line of a station standing at a level (R198). -/
abbrev InputLine.change (line : InputLine) (h : Hoist) (level : Bool) : Instr :=
  match line with
  | .ready => .readyChange h level
  | .driveFault => .driveFaultChange h level
  | .top => .topChange h level
  | .aligned => .alignedChange h level
  | .areaClear => .areaClearChange h level
  | .rehang => .rehangInputChange h level

/-- From `s` to `t` a class is marked where `now` says so and the class is enabled, besides a mark it had; an idle
transmitter may begin its notice at once (R195). -/
abbrev NoticeMarked (s t : State) (c : NoticeClass) (now : Bool) : Prop :=
  (s.link.tx.isSome = true ∨ s.link.replies ≠ [] →
    t.link.marks[c.ix] = (s.link.marks[c.ix] || (now && s.kept.notices[c.ix]))) ∧
  (s.link.tx = none → s.link.replies = [] → s.link.marks[c.ix] = true ∨ (now = true ∧ s.kept.notices[c.ix] = true) →
    t.link.marks[c.ix] = true ∨ ∃ fields, t.link.tx = some (.notice c fields))

/-- From `s` to `t` a latch that was `was` is set: the INPUT class is marked where the latch was clear (R198). -/
abbrev InputMarked (s t : State) (was : Bool) : Prop := NoticeMarked s t .input (!was)

/-- The row of a whole frame received from the feeder, by its kind (R159). -/
abbrev frameRow (kind : Nat) (payload : List Byte) : Instr :=
  match kind with
  | 2 => .accept payload
  | 3 => .decline payload
  | 4 => .drop payload
  | 5 => .done payload
  | k => .feederOtherFrame k payload

/-- A received frame fits the row of its kind (R159): ACCEPT without a payload, DECLINE and DONE with one byte, DROP with
one byte of 1 to 20. -/
abbrev frameFits (kind : Nat) (payload : List Byte) : Prop :=
  (kind = 2 → payload.length = 0) ∧ (kind = 3 ∨ kind = 4 ∨ kind = 5 → payload.length = 1) ∧
  (kind = 4 → ∀ b ∈ payload, 1 ≤ b.toNat ∧ b.toNat ≤ 20)

/-- From `s` to `t` the order of a hoist is turned onto the abort path: its dip context is `c`, its reservations are
returned, and besides the drive, the mail and the fault entries nothing else changes (R45). -/
abbrev TurnedAborted (s t : State) (h : Hoist) (o : Order) (c : DipCtx) : Prop :=
  t = { s with ctxs := t.ctxs, orders := t.orders, reserved := s.reserved - s.ctxs[h].resv, nearlyFull := t.nearlyFull,
               drives := t.drives, mail := t.mail, entries := t.entries, link := t.link } ∧
  t.ctxs[h] = c ∧ (∀ i : Hoist, i ≠ h → t.ctxs[i] = s.ctxs[i]) ∧
  t.orders = s.orders.map fun x => if x.slot = o.slot then { x with closePending := true } else x

/-- An occurrence of the kind finds its entry CLEAR, and its reaction reaches no dip context or waits for its alarm delay
(R177, R179). -/
abbrev State.latchesAlone (s : State) (k : FaultKind) : Prop :=
  s.entries[k.ix].state = .clear ∧ ((s.reactionOf k).code ≤ 2 ∨ s.kept.faults[k.ix].delay ≠ 0)

/-- The entry of a kind is latched by one occurrence that names a hoist, or none (R179). -/
abbrev State.latchedOnce (t : State) (k : FaultKind) (who : Option Hoist) : Prop :=
  t.entries[k.ix].state ≠ .clear ∧ t.entries[k.ix].count = some 1 ∧
  ∀ i : Fin 4, t.entries[k.ix].involved[i] = decide (who = some i)

/-- An occurrence that names an installed hoist applies the kind's reaction: it latches an entry with no alarm delay, or
joins the hoist to an ACTIVE entry (R177, R179, R181). -/
abbrev State.applies (s : State) (k : FaultKind) (h : Hoist) : Prop :=
  (s.entries[k.ix].state = .clear ∧ s.kept.faults[k.ix].delay = 0) ∨
  (s.entries[k.ix].state = .active ∧ s.entries[k.ix].involved[h] = false)

/-- An occurrence that names an installed hoist reaches no dip context: no reaction is applied, or one below HOLD, or a
STOP_ALL that is not applied again (R177, R181). -/
abbrev State.reachesNone (s : State) (k : FaultKind) (h : Hoist) : Prop :=
  ¬s.applies k h ∨ (s.reactionOf k).code ≤ 2 ∨ (s.entries[k.ix].state = .active ∧ s.reactionOf k = .stopAll)

/-- From `s` to `t` an occurrence of the kind that names a hoist has been taken: it latches a CLEAR entry; a latched one
keeps its state, first time and alarm timer, counts it up to 255 and adds the hoist. The beacon minimum is restarted by a
beacon flag, and the FAULT notice marked for a reaction from NOTIFY up unless the entry is in ALARM (R179, R181, R185,
R186). -/
abbrev Occurred (s t : State) (k : FaultKind) (h : Hoist) : Prop :=
  (s.entries[k.ix].state = .clear → t.latchedOnce k (some h)) ∧
  (s.entries[k.ix].state ≠ .clear →
    t.entries[k.ix] = { s.entries[k.ix] with
      involved := t.entries[k.ix].involved, lastTime := some s.kept.runtime, count := t.entries[k.ix].count,
      present := t.entries[k.ix].present } ∧
    (∀ n, s.entries[k.ix].count = some n → t.entries[k.ix].count = some (min 255 (n + 1))) ∧
    ∀ i : Fin 4, t.entries[k.ix].involved[i] = (s.entries[k.ix].involved[i] || decide (i = h))) ∧
  t.beaconT = (if s.kept.faults[k.ix].beacon = true then some s.kept.beaconMin else s.beaconT) ∧
  NoticeMarked s t .fault (s.reactionOf k != .record &&
    (s.entries[k.ix].state == .active || (s.entries[k.ix].state == .clear && s.kept.faults[k.ix].delay == 0)))

/-- From `s` to `t` a dip context has asked for a weighing: its request joins the queue at the newest end, or waits while
its hoist's place is taken (R28, R110). -/
abbrev WeighAsked (s t : State) (h : Hoist) : Prop :=
  (∀ r p, s.ctxs[h].order = some r → s.ctxs[h].pass = some p → (∀ q ∈ s.wu.queue, q.hoist ≠ h) →
    t.wu = { s.wu with queue := s.wu.queue ++ [⟨h, some (r.tag, p)⟩] } ∧ t.ctxs[h].asked = .placed) ∧
  ((∃ q ∈ s.wu.queue, q.hoist = h) →
    t.wu = { s.wu with waiting := s.wu.waiting.set h true } ∧ t.ctxs[h].asked = .unplaced)

/-- From `s` to `t` a DRAIN with dip context `c` has ended: the zones are released and WEIGH_OUT asks for its weighing
(R35). -/
abbrev DrainEnded (s t : State) (h : Hoist) (c : DipCtx) : Prop :=
  t.ctxs[h] = { c with
    state := .weighOut, drainT := none, drainExpired := false, starved := false, asked := t.ctxs[h].asked } ∧
  WeighAsked s t h ∧ t.orders = s.orders ∧ t.reserved = s.reserved ∧
  ((∀ w ∈ s.waits, w.hoist ≠ h) → ∀ z : Fin 12, t.holders[z] ≠ some h) ∧
  ∀ i : Hoist, i ≠ h → t.ctxs[i] = s.ctxs[i] ∧ t.drives[i] = s.drives[i]

/-- From `s` to `t` the withdrawal of a pass has been reported, where it had entered: each zone of its span ASHED, its
count up to 255 (R34, R97). -/
abbrev WithdrawalReported (s t : State) (h : Hoist) (p : PassRec) : Prop :=
  t.kept = { s.kept with surfaces := t.kept.surfaces } ∧
  ∀ z : Fin 12, t.kept.surfaces[z] =
    if s.ctxs[h].entered = true ∧ p.first ≤ zoneNo z ∧ zoneNo z ≤ p.last
    then ⟨true, min 255 (s.kept.surfaces[z].withdrawals + 1)⟩ else s.kept.surfaces[z]

/-- The dip context `c` on entry to DRAIN: the immersion clock stopped, the drain timer loaded, the withdrawal no longer to
be reported (R34). -/
abbrev DipCtx.inDrain (c : DipCtx) (timer : Nat) (shakeDone : Bool) : DipCtx :=
  { c with
    state := .drain, heldFrom := none, ret := none, entered := false, drainT := some timer, drainExpired := false,
    shakeDone := shakeDone, returning := false, recalAbort := false, starved := false,
    clock := if c.clock.run = .running then ⟨.stopped, c.clock.tenths⟩ else c.clock }

/-- From `s` to `t` the load of dip context `c` has come out and DRAIN has begun without a shake, with the timer given; with a
timer of zero it ends at once (R34, R35, R47, R50). -/
abbrev DrainBegun (s t : State) (h : Hoist) (p : PassRec) (c : DipCtx) (timer : Nat) : Prop :=
  WithdrawalReported s t h p ∧
  (timer ≠ 0 → t.ctxs[h] = c.inDrain timer true ∧ t.holders = s.holders ∧ t.wu = s.wu ∧ t.orders = s.orders ∧
    (s.bench = false → t.drives[h] = { s.drives[h] with permit := false }) ∧
    ∀ i : Hoist, i ≠ h → t.ctxs[i] = s.ctxs[i] ∧ t.drives[i] = s.drives[i]) ∧
  (timer = 0 → DrainEnded s t h (c.inDrain timer true))

/-- From `s` to `t` the load of dip context `c` has come out and DRAIN has begun with the shake of the latched profile,
at the shake speed (R34). -/
abbrev ShakeBegun (s t : State) (h : Hoist) (p : PassRec) (c : DipCtx) (l : Latched) : Prop :=
  WithdrawalReported s t h p ∧ t.ctxs[h] = c.inDrain l.profile.drain false ∧
  t.drives[h].motion = some ⟨.shake l.profile.shakes l.profile.amplitude true
    (min 8000 (s.drives[h].count + l.profile.amplitude)), s.kept.drive.shakeSpeed⟩ ∧
  t.drives[h].brakeRel = true ∧ t.drives[h].dir = false ∧ t.drives[h].count = s.drives[h].count ∧
  t.holders = s.holders ∧ ∀ i : Hoist, i ≠ h → t.ctxs[i] = s.ctxs[i] ∧ t.drives[i] = s.drives[i]

/-- From `s` to `t` the hook is sent from where it stands to a count at a rate (R142); where `there` says that it is there
already, it is reported there at once (R44, R47, R142; log entries 10, 25). -/
abbrev HookSent (s t : State) (h : Hoist) (target rate : Nat) (there : Prop) : Prop :=
  t.drives[h].count = s.drives[h].count ∧ t.drives[h].known = s.drives[h].known ∧
  (¬there → t.drives[h].motion = some ⟨.move target, rate⟩ ∧ t.drives[h].brakeRel = true ∧
    t.drives[h].dir = decide (target < s.drives[h].count) ∧ t.mail[h].motions = s.mail[h].motions) ∧
  (there → t.drives[h].motion = none ∧ t.mail[h].motions = s.mail[h].motions ++ [⟨.move, none⟩])

/-- From `s` to `t` the reply of a resume carries the state entered, the dip context is `c`, and besides its drive, its
messages and the conditions reported nothing else changes (R44). -/
abbrev Resumed (s t : State) (h : Hoist) (tag : Nat) (c : DipCtx) : Prop :=
  Replies s t .hoistResume tag .ok [fN 1 c.state.code] ∧
  t = { s with ctxs := t.ctxs, drives := t.drives, mail := t.mail, entries := t.entries, link := t.link } ∧
  t.ctxs[h] = c ∧ ∀ i : Hoist, i ≠ h → t.ctxs[i] = s.ctxs[i] ∧ t.drives[i] = s.drives[i]

/-- From `s` to `t` BATH_TEMP has been evaluated to a value (R122): reported where it changes and at the first evaluation, a
report of present latching the kind with no hoist involved (R176), one of absent leaving the entry as it is. -/
abbrev BathEvaluated (s t : State) (now : BathCond) : Prop :=
  t.wu.bath = some now ∧
  (now ≠ .absent → s.wu.bath = none ∨ s.wu.bath = some .absent →
    s.entries[FaultKind.bathTemp.ix].presentLine = false → s.latchesAlone .bathTemp →
    t.latchedOnce .bathTemp none ∧ t.entries[FaultKind.bathTemp.ix].presentLine = true) ∧
  (now = .absent → s.wu.bath ≠ some .absent → t.entries =
    s.entries.set FaultKind.bathTemp.ix { s.entries[FaultKind.bathTemp.ix] with presentLine := false }) ∧
  (∀ b, s.wu.bath = some b → (b = .absent ↔ now = .absent) → t.entries = s.entries)

/-- The entry of a kind imposes the INHIBIT (R177). -/
abbrev State.imposes (s : State) (k : FaultKind) : Prop :=
  s.entries[k.ix].state = .active ∧ (s.reactionOf k = .inhibit ∨ s.reactionOf k = .stopAll)

/-- A REHANG_DONE is remembered in REHANG (R37). -/
abbrev State.remembers (s : State) (h : Hoist) : Prop := s.ctxs[h].state = .rehang ∧ s.ctxs[h].rehangKept = true

/-- From `s` to `t` the INHIBIT has ended (R177): nothing follows where no order waits and no REHANG_DONE is remembered; a
REHANG_DONE remembered by one hoist alone begins its pass 2 (R26, R37); where the orders that wait name one hoist, its
offered order is taken where the take condition holds (R8, R10). -/
abbrev InhibitEnded (s t : State) : Prop :=
  t.inhibit = false ∧
  (s.noneQueued → (∀ i, ¬s.remembers i) → t.ctxs = s.ctxs ∧ t.drives = s.drives ∧ t.orders = s.orders ∧
    t.reserved = s.reserved ∧ t.waits = s.waits ∧ t.holders = s.holders) ∧
  (∀ h o, s.noneQueued → s.remembers h → (∀ i, i ≠ h → ¬s.remembers i) → s.installed h = true →
    s.orderOf h = some o →
    t.ctxs[h].state = .staged ∧ t.ctxs[h].pass = some .two ∧ t.ctxs[h].resv = s.ctxs[h].resv ∧
    t.reserved = s.reserved ∧
    ClaimArrives s t { hoist := h, tag := o.tag, pass := .two, first := (o.passRec .two).first,
                       last := (o.passRec .two).last, clean := (s.kept.profileOf (o.passRec .two)).clean,
                       arrival := s.kept.runtime, alerted := false, serial := s.nextSerial } ∧
    ∀ i : Hoist, i ≠ h → t.ctxs[i] = s.ctxs[i] ∧ t.drives[i] = s.drives[i]) ∧
  ∀ h o, (∀ x ∈ s.orders, x.state = .queued → x.hoist = h) → (∀ i, ¬s.remembers i) → s.offered h = some o →
    s.installed h = true → s.ctxs[h].state = .parked → s.ctxs[h].runEnable = true → s.drives[h].known = true →
    s.bench = false → s.canReserve o.passCount = true →
    t.ctxs[h].state = .staged ∧ t.ctxs[h].order = some ⟨o.slot, o.tag⟩ ∧ t.ctxs[h].pass = some .one ∧
    t.ctxs[h].resv = o.passCount ∧ t.reserved = s.reserved + o.passCount ∧
    ClaimArrives s t { hoist := h, tag := o.tag, pass := .one, first := o.pass1.first, last := o.pass1.last,
                       clean := (s.kept.profileOf o.pass1).clean, arrival := s.kept.runtime, alerted := false,
                       serial := s.nextSerial } ∧
    ∀ i : Hoist, i ≠ h → t.ctxs[i] = s.ctxs[i] ∧ t.drives[i] = s.drives[i]

/-- ALIGNED and AREA_CLEAR of the station are present, so that neither condition of R38 is. -/
abbrev State.stationClear (s : State) (h : Hoist) : Prop := s.inputs[h].aligned = true ∧ s.inputs[h].areaClear = true

/-- The drive of the station is free to move: READY present, DRIVE_FAULT and TOP absent (R142, R145, R147). -/
abbrev State.driveClear (s : State) (h : Hoist) : Prop :=
  s.inputs[h].ready = true ∧ s.inputs[h].driveFault = false ∧ s.inputs[h].top = false

end Sys2Proof.Machine
end

