-- ==== Sys2Proof/WellFormed.lean ====
section
/-! DEFINITION. Which commands the wire can carry: every number of a request fits the width R192 gives its field, every
payload its length limit, every count of the converter its 24 bits (R104, R158, R189, R192). -/

namespace Sys2Proof

/-- Widths of one, two and four bytes, and a signed one of four. -/
def u8 (n : Nat) : Bool := decide (n < 256)
def u16 (n : Nat) : Bool := decide (n < 65536)
def u32 (n : Nat) : Bool := decide (n < 4294967296)
def i32 (n : Int) : Bool := decide (-2147483648 ≤ n ∧ n ≤ 2147483647)

/-- A pass record (R2, R192). -/
def PassRec.wf (p : PassRec) : Bool := u8 p.first && u8 p.last && u16 p.target && u16 p.drop && u8 p.profile

/-- ORDER_POST (R192). -/
def PostFields.wf (p : PostFields) : Bool :=
  u32 p.orderTag && u8 p.hoist && u32 p.mass && u8 p.passCount && p.pass1.wf && (p.pass2.map PassRec.wf).getD true

/-- PROFILE_WRITE (R192). -/
def ProfileFields.wf (f : ProfileFields) : Bool :=
  u16 f.entrySpeed && u16 f.dwell && u8 f.withdrawal && u16 f.drain && u8 f.shakes && u8 f.amplitude && u8 f.clean

/-- CYCLE_SETUP, KETTLE_SETUP, LEVEL_SETUP and DRIVE_SETUP (R192). -/
def CycleSet.wf (c : CycleSet) : Bool := u16 c.alignTimeout && u16 c.abortSpeed && u16 c.abortDrain && u16 c.overrun
def KettleSet.wf (k : KettleSet) : Bool := u16 k.floor && u16 k.clearance && u8 k.skimLimit && u16 k.waitAlert
def LevelSet.wf (l : LevelSet) : Bool :=
  u16 l.refDepth && u32 l.refInventory && u16 l.coefficient && u16 l.band && u16 l.ageLimit
def DriveSet.wf (d : DriveSet) : Bool := u16 d.homeSpeed && u16 d.travelLimit && u8 d.readyTimeout && u16 d.shakeSpeed

/-- WEIGH_SETUP (R192). -/
def WeighLimits.wf (l : WeighLimits) : Bool :=
  u8 l.window && u16 l.band && u16 l.timeout && u16 l.ageLimit && u16 l.contact && u16 l.snag && u16 l.slack &&
  u16 l.bathLow && u16 l.bathHigh
def WeighFields.wf (f : WeighFields) : Bool :=
  u8 f.mode && f.slots.toList.all u8 && u8 f.followed && f.limits.wf &&
  f.calib.toList.all fun c => i32 c.zero && u32 c.scale

/-- FEED_SETUP (R192). -/
def FeedFields.wf (f : FeedFields) : Bool :=
  u8 f.auto && u16 f.numbers.threshold && u16 f.numbers.target && u16 f.numbers.ingotMass && u8 f.numbers.maximum &&
  u16 f.numbers.timeout && u16 f.numbers.settle && u8 f.relay && u8 f.numbers.hold

/-- BENCH_DRIVE (R192). -/
def BenchFields.wf (f : BenchFields) : Bool :=
  u8 f.hoist && u8 f.dir && u8 f.brake && u8 f.permit && u16 f.steps && u16 f.rate && u8 f.beacon

/-- FAULT_SETUP after its kind number (R192). -/
def FaultSetupBody.wf : FaultSetupBody → Bool
  | .read => true
  | .beaconMin t => u16 t
  | .settings reaction delay flag => u8 reaction && u16 delay && u8 flag

/-- A payload on either line (R158, R189). -/
def payloadOk (p : List Byte) (limit : Nat) : Bool := decide (p.length ≤ limit)

/-- A count of the converter (R104). -/
def countOk (n : Int) : Bool := decide (-8388608 ≤ n ∧ n ≤ 8388607)

/-- The request tag of a request (R189). -/
def Instr.linkTag? : Instr → Option Nat
  | .identify t | .status t | .restart t | .noticeSetup t _ | .inputRead t | .orderPost t _ | .orderCancel t _
  | .orderQuery t _ | .queueList t | .profileWrite t _ _ | .profileRead t _ | .hoistStatus t _ | .hoistRun t _
  | .hoistStop t _ | .hoistHold t _ | .hoistResume t _ | .hoistAbort t _ | .rehangDone t _ | .cycleSetup t _
  | .bookOpen t _ | .bookPost t _ _ _ | .bookRead t _ | .bookTrim t _ | .bookSummary t | .kettleSetup t _
  | .skimDone t _ _ | .zoneStatus t | .weighNow t _ | .weighRead t | .weighSetup t _ | .levelSetup t _ | .levelRead t _
  | .driveSetup t _ | .benchEnter t | .benchDrive t _ | .benchNotices t | .benchExit t | .feed t _ | .feederRelay t _ _
  | .feedSetup t _ | .feedRead t | .faultAck t _ | .faultSetup t _ _ | .faultList t _ => some t
  | _ => none

/-- The operands of a command after its request tag fit their widths. -/
def Instr.operandsOk : Instr → Bool
  | .noticeSetup _ v => (v.map fun x => x.toList.all u8).getD true
  | .orderPost _ p => p.wf
  | .orderCancel _ t | .orderQuery _ t => u32 t
  | .profileWrite _ i f => u8 i && f.wf
  | .profileRead _ i => u8 i
  | .hoistStatus _ h | .hoistRun _ h | .hoistStop _ h | .hoistHold _ h | .hoistResume _ h | .hoistAbort _ h
  | .rehangDone _ h | .weighNow _ h => u8 h
  | .cycleSetup _ v => (v.map CycleSet.wf).getD true
  | .bookOpen _ n => u32 n
  | .bookPost _ k m n => u8 k && i32 m && u8 n
  | .bookRead _ n | .bookTrim _ n => u32 n
  | .kettleSetup _ v => (v.map KettleSet.wf).getD true
  | .skimDone _ a b => u8 a && u8 b
  | .weighSetup _ v => (v.map WeighFields.wf).getD true
  | .levelSetup _ v => (v.map LevelSet.wf).getD true
  | .levelRead _ h => (h.map u8).getD true
  | .driveSetup _ v => (v.map DriveSet.wf).getD true
  | .benchDrive _ f => f.wf
  | .feed _ n => u8 n
  | .feederRelay _ k p => u8 k && payloadOk p 239
  | .feedSetup _ v => (v.map FeedFields.wf).getD true
  | .faultAck _ k => u8 k
  | .faultSetup _ k b => u8 k && b.wf
  | .faultList _ k => (k.map u8).getD true
  | .samplePeriodEnd c => (c.map countOk).getD true
  | .accept p | .decline p | .drop p | .done p => payloadOk p 240
  | .feederOtherFrame k p => u8 k && !decide (2 ≤ k ∧ k ≤ 5) && payloadOk p 240
  | _ => true

/-- A command the wire can carry. -/
def Instr.wf (i : Instr) : Bool := (i.linkTag?.map u8).getD true && i.operandsOk

end Sys2Proof
end

