-- ==== Sys2Proof/Certificates/Slice0/Obligations.lean ====
section
/-! DEFINITION. The statements for the provers. Each docstring names the rules it rests on, and the log entry where it
rests on a choice of the model. -/

open Sys2Proof Sys2Proof.Machine

/-! ### The machine -/

/-- A step takes the front command and runs it with the queue's rest. The queue is the model's own (log entry 1). -/
def Obligations.StepRunsFront : Prop :=
  ∀ (s : State) (c : Instr) (rest : List Instr), s.pending = c :: rest → step s = exec c { s with pending := rest }

/-- The model's choice (log entry 1): on an empty queue a tenth of a second passes. Timers fall and stop at 0, a running
immersion clock rises, and nothing else moves. -/
def Obligations.EmptyQueueLetsATenthPass : Prop :=
  ∀ s : State, s.pending = [] → s.power = .running → ∃ t, step s = .next t ∧
    t = { s with tenths := t.tenths, ctxs := t.ctxs, drives := t.drives, wu := t.wu, feeder := t.feeder,
                 entries := t.entries, beaconT := t.beaconT } ∧
    t.tenths = min 9 (s.tenths + 1) ∧ t.beaconT = s.beaconT.map (· - 1) ∧
    (∀ h : Hoist,
      t.ctxs[h] = { s.ctxs[h] with
        alignT := s.ctxs[h].alignT.map (· - 1), dwellT := s.ctxs[h].dwellT.map (· - 1),
        drainT := s.ctxs[h].drainT.map (· - 1), clock := t.ctxs[h].clock } ∧
      t.ctxs[h].clock.run = s.ctxs[h].clock.run ∧
      t.ctxs[h].clock.tenths = s.ctxs[h].clock.tenths + (if s.ctxs[h].clock.run = .running then 1 else 0) ∧
      t.drives[h] = { s.drives[h] with readyT := s.drives[h].readyT.map (· - 1) }) ∧
    t.wu = { s.wu with service := s.wu.service.map fun v => { v with timer := v.timer - 1 } } ∧
    t.feeder = { s.feeder with
      timer := s.feeder.timer.map (· - 1), settleT := s.feeder.settleT.map (· - 1),
      relay := s.feeder.relay.map fun r => { r with hold := r.hold.map (· - 1) } } ∧
    ∀ k : Fin 14, t.entries[k] = { s.entries[k] with alarmT := s.entries[k].alarmT.map (· - 1) }

/-- Held in reset or without supply the part does nothing but keep its retained area, which is lost when both supplies are
absent, in whichever order they fail (R80, R81, R202; log entries 4, 5). -/
def Obligations.PowerConditionsKept : Prop :=
  (∀ (s : State) (c : Instr), s.power ≠ .running → (∀ p, c ≠ .powerOn p) → (∀ b, c ≠ .powerLoss b) →
    c ≠ .retentionSupplyLoss → exec c s = .next s) ∧
  ∀ s : State,
    exec (.powerLoss true) s = .next { s with power := .unpowered, checkGood := s.checkGood && s.vbak } ∧
    (s.power = .running → exec (.powerLoss false) s = .next { s with power := .inReset }) ∧
    (s.power ≠ .running → exec (.powerLoss false) s = .next s) ∧
    (s.power = .unpowered → exec .retentionSupplyLoss s = .next { s with vbak := false, checkGood := false }) ∧
    (s.power ≠ .unpowered → exec .retentionSupplyLoss s = .next { s with vbak := false })

/-- The part right after reset has made a cold start (R83); its pins are the model's choice (log entry 6). What a cold start
leaves in the book (R83), the zones (R102) and the profile table (R19). -/
def Obligations.ResetIsColdStart : Prop :=
  (State.reset.power = .running ∧ State.reset.vbak = true ∧ State.reset.kept = Retained.cold ∧ State.reset.reserved = 0 ∧
  State.reset.nearlyFull = false ∧ State.reset.link.coldStart = true ∧ State.reset.orders = [] ∧
  State.reset.waits = [] ∧ State.reset.pending = [] ∧
  (∀ h : Hoist, State.reset.ctxs[h] = DipCtx.parked ∧ State.reset.drives[h].known = false) ∧
  ∀ k : FaultKind, State.reset.entries[k.ix].state = (if k = .retainedLost then .active else .clear)) ∧
  Retained.cold.bookOpen = false ∧ Retained.cold.journal = [] ∧ Retained.cold.base = 0 ∧ Retained.cold.inventory = 0 ∧
  (∀ k : Fin 6, Retained.cold.totals[k] = ⟨0, 0⟩) ∧ Retained.cold.nextSeq = 1 ∧ Retained.cold.runtime = 0 ∧
  (∀ z : Fin 12, Retained.cold.surfaces[z] = ⟨false, 0⟩) ∧
  ∀ i : Fin 16, Retained.cold.profiles[i].defined = decide (i = 0)

/-- What every power-on leaves, in the fields named here: the pins read, the link, the order table, the waiting claims
and holders, the Level Unit, the Feeder Line, and each dip context and drive (R23, R54, R102, R138, R156, R173, R202).
That POWER_ON is taken in every power condition is log entry 5. -/
def Obligations.PowerOnStartValues : Prop :=
  ∀ (s : State) (pins : PowerOnPins), ∃ t, exec (.powerOn pins) s = .next t ∧
    t.power = .running ∧ t.vbak = pins.vbak ∧ t.inputs = pins.stations ∧ t.drivePower = pins.drivePower ∧ t.link.straps = pins.straps ∧
    t.link.coldStart = !s.checkGood ∧ t.link.replies = [] ∧ t.link.rx = [] ∧
    t.link.latches = Vector.replicate 4 absentInputs ∧ t.orders = [] ∧ t.waits = [] ∧ t.reserved = 0 ∧ t.bench = false ∧
    (∀ z : Fin 12, t.holders[z] = none) ∧ t.lu = LevelUnit.start ∧ t.feeder = FeederLine.start ∧
    (∀ h : Hoist, t.ctxs[h].state = .parked ∧ t.ctxs[h].runEnable = false ∧ t.ctxs[h].order = none ∧
      t.drives[h].known = false ∧ t.drives[h].motion = none ∧ t.drives[h].permit = t.installed h ∧
      t.drives[h].step = false ∧ t.drives[h].dir = false ∧ t.drives[h].brakeRel = false)

/-- A bad check makes a cold start, and RETAINED_LOST is latched; a good one keeps the area and finalises what was cut
short (R82, R83). -/
def Obligations.PowerOnRetainedArea : Prop :=
  ∀ (s : State) (pins : PowerOnPins), ∃ t, exec (.powerOn pins) s = .next t ∧
    (s.checkGood = false → t.kept = Retained.cold ∧ t.entries[FaultKind.retainedLost.ix].state = .active ∧
      t.checkGood = true) ∧
    (s.checkGood = true → t.kept = { s.kept with journal := t.kept.journal } ∧
      t.kept.journal = s.kept.journal.map fun e =>
        if e.final then e
        else { e with final := true, finalised := some s.kept.runtime, flags := { e.flags with interrupted := true } })

/-- RESTART (R203, R55, R23, R84, R102, R138, R173): the replies that waited are gone and its own follows the frame
being sent; the order table, the claims and holders, the Level Unit, the weighings, the feed and the relay, the dip
contexts and the motions are as after a restart; of the retained area only PROVISIONAL entries change, each finalised
INTERRUPTED; the straps, the latches, the link's counts and the position counts are kept. -/
def Obligations.RestartClears : Prop :=
  ∀ (s : State) (tag : Nat), s.listening → ∃ t, exec (.restart tag) s = .next t ∧
    t.link.owed = (match s.link.tx with
      | some (.reply r) => [r]
      | _ => []) ++ [{ kind := replyKind 3, tag := tag, result := .ok, fields := [] }] ∧
    t.link.held = false ∧ t.link.straps = s.link.straps ∧ t.link.latches = s.link.latches ∧
    t.link.coldStart = s.link.coldStart ∧ t.link.overLength = s.link.overLength ∧ t.link.gaps = s.link.gaps ∧
    t.link.badChecks = s.link.badChecks ∧ t.link.queueFull = s.link.queueFull ∧
    t.kept = { s.kept with journal := s.kept.journal.map (Entry.interrupt s.kept.runtime) } ∧
    t.orders = [] ∧ t.waits = [] ∧ t.reserved = 0 ∧ t.bench = false ∧ (∀ z : Fin 12, t.holders[z] = none) ∧
    t.lu = LevelUnit.start ∧ t.wu.queue = [] ∧ t.wu.service = none ∧ t.wu.record = none ∧ t.feeder.state = .idle ∧
    t.feeder.relay = none ∧
    ∀ h : Hoist, t.ctxs[h] = { DipCtx.parked with last := s.ctxs[h].last } ∧ t.drives[h].motion = none ∧
      t.drives[h].count = s.drives[h].count ∧ t.drives[h].brakeRel = false ∧ t.drives[h].permit = s.installed h ∧
      t.drives[h].step = false

/-! ### The Command Link -/

/-- A request that finds the reply queue full is discarded without a reply and counted, whatever its kind (R191,
step 1). -/
def Obligations.FullQueueDiscardsRequests : Prop :=
  ∀ (s : State) (c : Instr) (tag : Nat), c.linkTag? = some tag → s.ready → s.linkFull = true → ∃ t, exec c s = .next t ∧
    t = { s with link := t.link } ∧ t.link.owed = s.link.owed ∧ t.link.marks = s.link.marks ∧
    t.link.queueFull = (if s.link.queueFull < 65535 then s.link.queueFull + 1 else s.link.queueFull)

/-- Reads without operands, and a setup with an empty payload, change nothing but the link, and carry the values as they
stand (R18, R52, R78, R86, R100, R118, R123, R136, R151, R171, R172, R183, R197, R200, R201). The model's choices are
the layout and widths (log entries 20 and 63 to 67), the seconds shown rounded up (log entry 8), the cause of BATH_TEMP shown
(log entry 33), the scan position shown before the next period and its count in SCAN (log entries 56 and 73), the present
spread while the window fills (log entry 78), and the bytes of on and off and of marks and states of two values (log entry
79). -/
def Obligations.ReadsAnswered : Prop :=
  (∀ (s : State) (tag : Nat), s.listening →
    exec (.identify tag) s = .next (s.replied .identify tag .ok
      [(2, 0x2A71), (2, 0x00D4), (1, 1), fN 1 s.link.straps.baud.val, fN 1 s.link.straps.hoists.val,
       fB s.link.straps.benchPermit, fB s.kept.bookOpen, fB s.link.coldStart]) ∧
    exec (.status tag) s = .next (s.replied .status tag .ok s.statusFields) ∧
    exec (.queueList tag) s = .next (s.replied .queueList tag .ok
      (fN 1 s.orders.length :: s.orders.flatMap Order.listItem)) ∧
    exec (.bookSummary tag) s = .next (s.replied .bookSummary tag .ok s.summaryFields) ∧
    exec (.zoneStatus tag) s = .next (s.replied .zoneStatus tag .ok s.zoneFields) ∧
    exec (.weighRead tag) s = .next (s.replied .weighRead tag .ok s.weighFields) ∧
    exec (.feedRead tag) s = .next (s.replied .feedRead tag .ok s.feedFields)) ∧
  ∀ (s : State) (tag : Nat), s.listening →
    exec (.cycleSetup tag none) s = .next (s.replied .cycleSetup tag .ok (cycleFields s.kept.cycle)) ∧
    exec (.kettleSetup tag none) s = .next (s.replied .kettleSetup tag .ok (kettleFields s.kept.kettle)) ∧
    exec (.weighSetup tag none) s = .next (s.replied .weighSetup tag .ok s.kept.weigh.fields) ∧
    exec (.levelSetup tag none) s = .next (s.replied .levelSetup tag .ok (levelSetFields s.kept.level)) ∧
    exec (.driveSetup tag none) s = .next (s.replied .driveSetup tag .ok (driveFields s.kept.drive)) ∧
    exec (.feedSetup tag none) s = .next (s.replied .feedSetup tag .ok (feedSetFields s.kept.feed)) ∧
    exec (.faultSetup tag 0 .read) s = .next (s.replied .faultSetup tag .ok [fN 2 s.kept.beaconMin]) ∧
    (∀ k : FaultKind, exec (.faultSetup tag k.number .read) s =
      .next (s.replied .faultSetup tag .ok (faultSetFields s.kept.faults[k.ix]))) ∧
    exec (.noticeSetup tag none) s = .next (s.replied .noticeSetup tag .ok
      (noticeClasses.map fun c => fB s.kept.notices[c.ix]))

/-- Reads that name an order, profile, hoist, entry, kind or number change nothing but the link (R17, R21, R53, R75,
R137, R186), and refuse what they cannot find; a request naming a hoist that is not installed is refused NOT_INSTALLED
before any other check (R24, R117). The layout of the fields is log entries 20, 53, 61, 64, 68, 69, 74, 76 and 79; that BOOK_READ and
FAULT_LIST send 0 entries after the last one where they return none is log entry 55, the seconds shown log entry 8. -/
def Obligations.NamedReadsAnswered : Prop :=
  (∀ (s : State) (tag : Nat), s.listening →
    (∀ n, exec (.orderQuery tag n) s = .next (match s.orderByTag n with
      | some o => s.replied .orderQuery tag .ok (s.orderFields o)
      | none => s.replied .orderQuery tag .noSuchOrder)) ∧
    (∀ i, exec (.profileRead tag i) s = .next (match s.kept.profile? i with
      | some p => s.replied .profileRead tag .ok p.fields
      | none => s.replied .profileRead tag .badValue)) ∧
    (∀ n, exec (.hoistStatus tag n) s = .next (match s.hoist? n with
      | some h => s.replied .hoistStatus tag .ok (s.hoistFields h)
      | none => s.replied .hoistStatus tag .notInstalled)) ∧
    (∀ n, exec (.bookRead tag n) s = .next (s.replied .bookRead tag .ok
      (fN 1 (min 3 (s.kept.readFrom n).length) :: ((s.kept.readFrom n).take 3).flatMap Entry.fields ++
       [fN 2 ((s.kept.readFrom n).length - min 3 (s.kept.readFrom n).length), fN 4 s.oldestSeq,
        fN 4 s.kept.nextSeq]))) ∧
    exec (.levelRead tag none) s = .next (s.replied .levelRead tag .ok (s.levelFields none)) ∧
    (∀ n, exec (.levelRead tag (some n)) s = .next (match hoistNumber? n with
      | some h => s.replied .levelRead tag .ok (s.levelFields (some h))
      | none => s.replied .levelRead tag .badValue)) ∧
    exec (.faultList tag none) s = .next (s.replied .faultList tag .ok (s.faultFields 1)) ∧
    ∀ n, exec (.faultList tag (some n)) s = .next (if 1 ≤ n ∧ n ≤ 14 then
      s.replied .faultList tag .ok (s.faultFields n) else s.replied .faultList tag .badValue)) ∧
  ∀ (s : State) (tag n : Nat), s.listening → n = 0 ∨ s.link.straps.hoists.val + 1 < n →
    exec (.hoistStatus tag n) s = .next (s.replied .hoistStatus tag .notInstalled) ∧
    exec (.hoistRun tag n) s = .next (s.replied .hoistRun tag .notInstalled) ∧
    exec (.hoistStop tag n) s = .next (s.replied .hoistStop tag .notInstalled) ∧
    exec (.hoistHold tag n) s = .next (s.replied .hoistHold tag .notInstalled) ∧
    exec (.hoistResume tag n) s = .next (s.replied .hoistResume tag .notInstalled) ∧
    exec (.hoistAbort tag n) s = .next (s.replied .hoistAbort tag .notInstalled) ∧
    exec (.rehangDone tag n) s = .next (s.replied .rehangDone tag .notInstalled) ∧
    exec (.weighNow tag n) s = .next (s.replied .weighNow tag .notInstalled)

/-- CYCLE_SETUP, LEVEL_SETUP, DRIVE_SETUP and FEED_SETUP replace all their settings, or none where a field is outside its
range (R52, R136, R151, R171). That auto-feed and relay are bytes with 01h as on is the model's choice, log entry 79. -/
def Obligations.SettingsReplaced : Prop :=
  ∀ (s : State) (tag : Nat), s.listening →
    (∀ c : CycleSet, exec (.cycleSetup tag (some c)) s = .next (
      if (10 ≤ c.alignTimeout ∧ c.alignTimeout ≤ 600) ∧ (50 ≤ c.abortSpeed ∧ c.abortSpeed ≤ 300) ∧
         c.abortDrain ≤ 1200 ∧ c.overrun ≤ 6000
      then { s with kept := { s.kept with cycle := c } }.replied .cycleSetup tag .ok
      else s.replied .cycleSetup tag .badValue)) ∧
    (∀ l : LevelSet, exec (.levelSetup tag (some l)) s = .next (
      if l.refDepth ≤ 8000 ∧ l.refInventory ≤ 20000000 ∧ (10 ≤ l.coefficient ∧ l.coefficient ≤ 10000) ∧
         (5 ≤ l.band ∧ l.band ≤ 500) ∧ (30 ≤ l.ageLimit ∧ l.ageLimit ≤ 600)
      then { s with kept := { s.kept with level := l } }.replied .levelSetup tag .ok
      else s.replied .levelSetup tag .badValue)) ∧
    (∀ d : DriveSet, exec (.driveSetup tag (some d)) s = .next (
      if (20 ≤ d.homeSpeed ∧ d.homeSpeed ≤ 300) ∧ (100 ≤ d.travelLimit ∧ d.travelLimit ≤ 8000) ∧
         (5 ≤ d.readyTimeout ∧ d.readyTimeout ≤ 100) ∧ (50 ≤ d.shakeSpeed ∧ d.shakeSpeed ≤ 500)
      then { s with kept := { s.kept with drive := d } }.replied .driveSetup tag .ok
      else s.replied .driveSetup tag .badValue)) ∧
    ∀ f : FeedFields, exec (.feedSetup tag (some f)) s = .next (
      if f.ok then { s with kept := { s.kept with feed := f.toSet } }.replied .feedSetup tag .ok
      else s.replied .feedSetup tag .badValue)

/-- WEIGH_SETUP replaces every setting and the calibration, or nothing, whatever follows a new bath band, which is judged at
once; a new mode makes the scan start afresh (R109, R122, R123). KETTLE_SETUP replaces its four settings in any state, or
none where a field is outside its range or the clearance is not less than the floor, and alerts the claims that wait
longer than its new alert (R86, R96). -/
def Obligations.WeighAndKettleSettingsReplaced : Prop :=
  (∀ (s : State) (tag : Nat) (f : WeighFields), s.listening →
    (s.weighSet? f = none → exec (.weighSetup tag (some f)) s = .next (s.replied .weighSetup tag .badValue)) ∧
    ∀ w, s.weighSet? f = some w → ∃ t, exec (.weighSetup tag (some f)) s = .next t ∧ Replies s t .weighSetup tag .ok ∧
      t.kept.weigh = w ∧
      (w.limits.bathLow = s.kept.weigh.limits.bathLow ∧ w.limits.bathHigh = s.kept.weigh.limits.bathHigh →
        t = { s with kept := { s.kept with weigh := w }, wu := { s.wu with fresh := t.wu.fresh }, link := t.link } ∧
        (w.mode ≠ s.kept.weigh.mode → t.wu.fresh = true)) ∧
      (s.reactionOf .bathTemp ≠ .stopAll ∨ s.kept.faults[FaultKind.bathTemp.ix].delay ≠ 0 ∨
          s.entries[FaultKind.bathTemp.ix].state ≠ .clear →
        t = { s with kept := { s.kept with weigh := w }, wu := { s.wu with fresh := t.wu.fresh, bath := t.wu.bath },
                     entries := t.entries, beaconT := t.beaconT, link := t.link } ∧
        (w.mode ≠ s.kept.weigh.mode → t.wu.fresh = true))) ∧
  ∀ (s : State) (tag : Nat) (k : KettleSet), s.listening → ∃ t, exec (.kettleSetup tag (some k)) s = .next t ∧
    (if (500 ≤ k.floor ∧ k.floor ≤ 8000) ∧ k.clearance ≤ 4000 ∧ (1 ≤ k.skimLimit ∧ k.skimLimit ≤ 255) ∧
        (10 ≤ k.waitAlert ∧ k.waitAlert ≤ 3600) ∧ k.clearance < k.floor
     then t = { s with kept := { s.kept with kettle := k }, waits := t.waits, link := t.link } ∧
       Replies s t .kettleSetup tag .ok ∧
       t.waits = s.waits.map fun c => if k.waitAlert < s.kept.runtime - c.arrival then { c with alerted := true } else c
     else t = s.replied .kettleSetup tag .badValue)

/-- NOTICE_SETUP replaces the six enables, and a class it disables loses its mark (R197). At the end of a frame the
transmitter sends the oldest reply, else the notice of the marked class of highest priority with its mark cleared, else
nothing (R195, R196). -/
def Obligations.NoticesEnabledAndSent : Prop :=
  (∀ (s : State) (tag : Nat) (v : Vector Nat 6), s.listening →
    ((∀ c : Fin 6, v[c] ≤ 1) → ∃ t, exec (.noticeSetup tag (some v)) s = .next t ∧
      t = { s with kept := { s.kept with notices := t.kept.notices }, link := t.link } ∧
      (∀ c : Fin 6, t.kept.notices[c] = decide (v[c] = 1) ∧
        t.link.marks[c] = (s.link.marks[c] && decide (v[c] = 1))) ∧
      Replies s t .noticeSetup tag .ok (noticeClasses.map fun c => fN 1 v[c.ix])) ∧
    ((∃ c : Fin 6, 1 < v[c]) → exec (.noticeSetup tag (some v)) s = .next (s.replied .noticeSetup tag .badValue))) ∧
  ∀ s : State, s.ready → ∃ t, exec .txFrameEnd s = .next t ∧ t = { s with link := t.link } ∧
    (∀ r rs, s.link.replies = r :: rs → t.link = { s.link with replies := rs, tx := some (.reply r) }) ∧
    (∀ c : NoticeClass, s.link.replies = [] → s.link.marks[c.ix] = true →
      (∀ d : NoticeClass, d.number < c.number → s.link.marks[d.ix] = false) →
      t.link = { s.link with marks := s.link.marks.set c.ix false, tx := some (.notice c (s.snapshot c)) }) ∧
    (s.link.replies = [] → (∀ c : NoticeClass, s.link.marks[c.ix] = false) → t.link = { s.link with tx := none })

/-- PROFILE_WRITE replaces one profile whole and makes it defined, or changes nothing (R20); the ranges are those of
R19. -/
def Obligations.ProfileReplaced : Prop :=
  ∀ (s : State) (tag i : Nat) (f : ProfileFields), s.listening → ∃ t, exec (.profileWrite tag i f) s = .next t ∧
    (if i ≤ 15 ∧ (10 ≤ f.entrySpeed ∧ f.entrySpeed ≤ 300) ∧ (10 ≤ f.dwell ∧ f.dwell ≤ 36000) ∧
        (5 ≤ f.withdrawal ∧ f.withdrawal ≤ 100) ∧ f.drain ≤ 6000 ∧ f.shakes ≤ 15 ∧
        (20 ≤ f.amplitude ∧ f.amplitude ≤ 200) ∧ f.clean ≤ 1
     then t = { s with kept := { s.kept with profiles := t.kept.profiles }, link := t.link } ∧
       Replies s t .profileWrite tag .ok ∧
       t.kept.profile? i = some { defined := true, entrySpeed := f.entrySpeed, dwell := f.dwell,
                                  withdrawal := f.withdrawal, drain := f.drain, shakes := f.shakes,
                                  amplitude := f.amplitude, clean := decide (f.clean = 1) } ∧
       ∀ j, j ≠ i → t.kept.profile? j = s.kept.profile? j
     else t = s.replied .profileWrite tag .badValue)

/-- INPUT_READ carries the levels and latches as they stand, then clears every latch and the INPUT mark (R199). That each
set is sent as one four-byte number is log entry 20, and that a level present or asserted is a set bit log entry 79. -/
def Obligations.InputReadClearsLatches : Prop :=
  ∀ (s : State) (tag : Nat), s.listening → ∃ t, exec (.inputRead tag) s = .next t ∧ t = { s with link := t.link } ∧
    Replies s t .inputRead tag .ok [fInputs s.inputs s.drivePower, fInputs s.link.latches s.link.powerLatch] ∧
    (∀ h : Hoist, t.link.latches[h] = absentInputs) ∧ t.link.powerLatch = false ∧
    t.link.marks[NoticeClass.input.ix] = false ∧
    ∀ c : NoticeClass, c ≠ .input → t.link.marks[c.ix] = s.link.marks[c.ix]

/-- A frame whose length byte is above 240 is discarded at that byte, and one cut by a gap at the gap; each is counted
(R190), and neither reaches a block. -/
def Obligations.BrokenFramesDiscarded : Prop :=
  ∀ (s : State), s.ready → s.link.rx = [] →
    (∀ kind tag len : Byte, 240 < len.toNat → ∃ t, exec (.clFrameRejected [0xC3, kind, tag, len]) s = .next t ∧
      t = { s with link := t.link } ∧ t.link.rx = [] ∧ t.link.owed = s.link.owed ∧
      t.link.overLength = (if s.link.overLength < 65535 then s.link.overLength + 1 else s.link.overLength)) ∧
    ∀ bytes : List Byte, bytes.length ≤ 2 → ∃ t, exec (.clFrameGap (0xC3 :: bytes)) s = .next t ∧
      t = { s with link := t.link } ∧ t.link.rx = [] ∧ t.link.owed = s.link.owed ∧
      t.link.gaps = (if s.link.gaps < 65535 then s.link.gaps + 1 else s.link.gaps)

/-- A frame with a good check is answered UNKNOWN_KIND where its kind is no request kind, and BAD_LENGTH where its length
is none the kind takes; no block sees it (R191, steps 2 and 3). The frame of a request, its fields in their order and
least significant byte first, is carried out as that request with those operands (R189, R192; log entry 18, and log entry
63 for the layouts). -/
def Obligations.UnknownKindAndBadLengthAnswered : Prop :=
  (∀ (s : State) (kind tag : Byte) (payload : List Byte), s.listening → s.link.rx = [] → payload.length ≤ 240 →
    (reqKind? kind.toNat = none →
      exec (.clFrameRejected (frameBytes 0xC3 [kind, tag, BitVec.ofNat 8 payload.length] payload)) s =
        .next (s.modLink fun l => l.withReply
          { kind := (kind.toNat + 128) % 256, tag := tag.toNat, result := .unknownKind, fields := [] })) ∧
    ∀ k : ReqKind, reqKind? kind.toNat = some k → k.lengthOk payload.length = false →
      exec (.clFrameRejected (frameBytes 0xC3 [kind, tag, BitVec.ofNat 8 payload.length] payload)) s =
        .next (s.modLink fun l => l.withReply
          { kind := (kind.toNat + 128) % 256, tag := tag.toNat, result := .badLength, fields := [] })) ∧
  ∀ (s : State) (i : Instr) (k : ReqKind) (fields : List Field) (tag : Nat), s.listening → s.link.rx = [] →
    i.wf = true → requestFields i = some (k, fields) → i.linkTag? = some tag →
    ∃ t, exec i s = .next t ∧ (t.agenda = Agenda.empty →
      exec (.clFrameRejected (requestFrame k tag (requestPayload fields))) s = .next t)

/-! ### Orders -/

/-- ORDER_POST is judged in the order of R4; the first check that fails gives the result, and nothing changes. -/
def Obligations.PostJudgedInOrder : Prop :=
  ∀ (s : State) (tag : Nat) (p : PostFields) (r : Result), s.listening →
    (if 24 ≤ s.orders.length then some Result.queueFull
     else if p.orderTag = 0 then some .badValue
     else if ∃ o ∈ s.orders, o.tag = p.orderTag then some .duplicateTag
     else if p.hoist = 0 ∨ s.link.straps.hoists.val + 1 < p.hoist then some .notInstalled
     else if p.passCount ≠ (if p.pass2.isSome then 2 else 1) then some .badValue
     else if ∃ x ∈ p.passes, x.first = 0 ∨ 12 < x.last ∨ x.last < x.first then some .badValue
     else if ∃ x ∈ p.passes, s.kept.profileOk x.profile = false then some .badValue
     else if ∃ x ∈ p.passes, s.kept.kettle.floor < x.target + x.drop ∨ x.target + x.drop ≤ s.kept.kettle.clearance
       then some .badValue
     else none) = some r →
    exec (.orderPost tag p) s = .next (s.replied .orderPost tag r)

/-- An accepted order whose hoist is busy or stopped joins the collection at the newest end, QUEUED, and nothing else
changes (R5, R6, R8; log entry 16 for the slot). ORDER_CANCEL of a tag no order bears, of an order on its way to its
close, and of a QUEUED order, which leaves the table at once with no outcome recorded and nothing returned (R11). -/
def Obligations.QueuedOrdersPostedAndCancelled : Prop :=
  (∀ (s : State) (tag : Nat) (p : PostFields) (h : Hoist), s.listening → s.postCheck p = none →
    s.hoist? p.hoist = some h → s.ctxs[h].state ≠ .parked ∨ s.ctxs[h].runEnable = false →
    ∃ o : Order, o = { slot := s.freeSlot, tag := p.orderTag, hoist := h, mass := p.mass, pass1 := p.pass1,
                       pass2 := p.pass2, state := .queued, pass := none, closePending := false,
                       posted := s.kept.runtime } ∧
      exec (.orderPost tag p) s = .next ({ s with orders := s.orders ++ [o] }.replied .orderPost tag .ok
        [fN 1 (s.orders.length + 1)])) ∧
  ∀ (s : State) (tag n : Nat), s.listening →
    (s.orderByTag n = none → exec (.orderCancel tag n) s = .next (s.replied .orderCancel tag .noSuchOrder)) ∧
    ∀ o, s.orderByTag n = some o →
      (o.closePending = true → exec (.orderCancel tag n) s = .next (s.replied .orderCancel tag .tooLate)) ∧
      (o.closePending = false → o.state = .queued → exec (.orderCancel tag n) s =
        .next ({ s with orders := s.orders.filter fun x => x.slot != o.slot }.replied .orderCancel tag .ok
          [fN 1 0, fN 1 s.ctxs[o.hoist].state.code]))

/-- An accepted order whose hoist's take condition holds is taken at once: as many reservations as it has passes, the
order ACTIVE in pass 1, the dip context STAGED, and its claim with the arbiter, which grants it where it is grantable
and overlaps no waiting claim, and keeps it waiting else (R5, R8, R10, R26, R89, R90). The slot is log entry 16, the
claim's serial number log entry 12, the order inside the step log entry 13, the grant still in transit log entry 10. -/
def Obligations.PostedOrderTaken : Prop :=
  ∀ (s : State) (tag : Nat) (p : PostFields) (h : Hoist), s.listening → s.postCheck p = none →
    s.hoist? p.hoist = some h → s.noneQueued → s.ctxs[h].state = .parked → s.ctxs[h].runEnable = true →
    s.drives[h].known = true → s.inhibit = false → s.bench = false → s.canReserve p.passes.length = true →
    ∃ t, exec (.orderPost tag p) s = .next t ∧ Replies s t .orderPost tag .ok [fN 1 (s.orders.length + 1)] ∧
      t = { s with link := t.link, orders := t.orders, ctxs := t.ctxs, drives := t.drives, mail := t.mail,
                   entries := t.entries, holders := t.holders, waits := t.waits, nextSerial := t.nextSerial,
                   reserved := t.reserved, nearlyFull := t.nearlyFull } ∧
      t.reserved = s.reserved + p.passes.length ∧
      t.orders = s.orders ++ [{ slot := s.freeSlot, tag := p.orderTag, hoist := h, mass := p.mass, pass1 := p.pass1,
                                pass2 := p.pass2, state := .active, pass := some .one, closePending := false,
                                posted := s.kept.runtime }] ∧
      t.ctxs[h].state = .staged ∧ t.ctxs[h].order = some ⟨s.freeSlot, p.orderTag⟩ ∧ t.ctxs[h].pass = some .one ∧
      t.ctxs[h].resv = p.passes.length ∧ t.drives[h].permit = false ∧
      t.ctxs[h].claim = some s.nextSerial ∧
      ClaimArrives s t { hoist := h, tag := p.orderTag, pass := .one, first := p.pass1.first, last := p.pass1.last,
                         clean := (s.kept.profileOf p.pass1).clean, arrival := s.kept.runtime, alerted := false,
                         serial := s.nextSerial } ∧
      ∀ i : Hoist, i ≠ h → t.ctxs[i] = s.ctxs[i] ∧ t.drives[i] = s.drives[i] ∧ t.mail[i] = s.mail[i]

/-- ORDER_CANCEL of an order with nothing lowered, and the align timer at zero, close it CANCELLED: the reservations
are returned, the claim or the zones given up, the slot freed, and the dip context is PARKED; no journal entry is
written (R12, R29). That the expiry acts whenever its timer is present is log entry 2. A cancel that finds the load in the
zinc, a hold or a recalibration is handled as HOIST_ABORT and replies on its own account (R13); between the passes it closes
the order PARTIAL (R14); in DRAIN and WEIGH_OUT it drops pass 2, or comes too late for the last pass (R15). -/
def Obligations.ClosedBeforeLowering : Prop :=
  (∀ (s : State) (tag : Nat) (o : Order), s.listening → s.noneQueued → s.orderByTag o.tag = some o →
    o.closePending = false → s.ctxs[o.hoist].order = some ⟨o.slot, o.tag⟩ →
    s.ctxs[o.hoist].state = .staged ∨ s.ctxs[o.hoist].state = .aligning ∨ s.ctxs[o.hoist].state = .weighIn →
    ∃ t, exec (.orderCancel tag o.tag) s = .next t ∧
      Replies s t .orderCancel tag .ok [fN 1 o.state.code, fN 1 s.ctxs[o.hoist].state.code] ∧
      t.ctxs[o.hoist] = { DipCtx.parked with
        runEnable := s.ctxs[o.hoist].runEnable, last := some ⟨o.tag, .cancelled, some .request⟩ } ∧
      t.orders = s.orders.filter (fun x => x.slot != o.slot) ∧ t.reserved = s.reserved - s.ctxs[o.hoist].resv ∧
      t.kept = s.kept ∧ (∀ q ∈ t.wu.queue, q.hoist = o.hoist → q.dc = none) ∧
      (s.ctxs[o.hoist].state = .staged → ∀ c ∈ t.waits, c.hoist ≠ o.hoist) ∧
      (s.ctxs[o.hoist].state ≠ .staged → (∀ c ∈ s.waits, c.hoist ≠ o.hoist) →
        ∀ z : Fin 12, t.holders[z] ≠ some o.hoist) ∧
      ∀ i : Hoist, i ≠ o.hoist → t.ctxs[i] = s.ctxs[i] ∧ t.drives[i] = s.drives[i]) ∧
  (∀ (s : State) (h : Hoist) (r : OrderRef), s.ready → s.noneQueued → s.ctxs[h].alignT.isSome = true →
    s.ctxs[h].state = .aligning ∨ (s.ctxs[h].state = .held ∧ s.ctxs[h].heldFrom = some .aligning) →
    s.ctxs[h].order = some r → ∃ t, exec (.alignTimeout h) s = .next t ∧
      t.ctxs[h] = { DipCtx.parked with
        runEnable := s.ctxs[h].runEnable, last := some ⟨r.tag, .cancelled, some .alignTimeout⟩ } ∧
      t.orders = s.orders.filter (fun x => x.slot != r.slot) ∧ t.reserved = s.reserved - s.ctxs[h].resv ∧
      t.kept = s.kept ∧ ((∀ c ∈ s.waits, c.hoist ≠ h) → ∀ z : Fin 12, t.holders[z] ≠ some h) ∧
      ∀ i : Hoist, i ≠ h → t.ctxs[i] = s.ctxs[i] ∧ t.drives[i] = s.drives[i]) ∧
  ∀ (s : State) (tag : Nat) (o : Order), s.listening → s.orderByTag o.tag = some o → o.closePending = false →
    o.state ≠ .queued →
    (∀ n, s.hoist? n = some o.hoist → s.ctxs[o.hoist].state = .lowering ∨ s.ctxs[o.hoist].state = .dwell ∨
        s.ctxs[o.hoist].state = .lifting ∨ s.ctxs[o.hoist].state = .held ∨ s.ctxs[o.hoist].state = .recal →
      ∃ t, exec (.orderCancel tag o.tag) s = .next t ∧ ∃ u, exec (.hoistAbort tag n) s = .next u ∧
        t = { u with link := { u.link with tx := t.link.tx, replies := t.link.replies } } ∧
        Replies s t .orderCancel tag .ok [fN 1 o.state.code, fN 1 s.ctxs[o.hoist].state.code]) ∧
    (s.noneQueued → s.ctxs[o.hoist].order = some ⟨o.slot, o.tag⟩ → s.ctxs[o.hoist].state = .rehang →
      ∃ t, exec (.orderCancel tag o.tag) s = .next t ∧
        Replies s t .orderCancel tag .ok [fN 1 o.state.code, fN 1 DipState.rehang.code] ∧
        t.ctxs[o.hoist] = { DipCtx.parked with
          runEnable := s.ctxs[o.hoist].runEnable, last := some ⟨o.tag, .partialDone, some .request⟩ } ∧
        t.orders = s.orders.filter (fun x => x.slot != o.slot) ∧ t.reserved = s.reserved - s.ctxs[o.hoist].resv ∧
        t.kept = s.kept ∧ t.holders = s.holders ∧ t.waits = s.waits ∧
        ∀ i : Hoist, i ≠ o.hoist → t.ctxs[i] = s.ctxs[i] ∧ t.drives[i] = s.drives[i]) ∧
    (s.ctxs[o.hoist].state = .drain ∨ s.ctxs[o.hoist].state = .weighOut →
      (s.noneQueued → s.ctxs[o.hoist].order = some ⟨o.slot, o.tag⟩ → s.ctxs[o.hoist].pass = some .one →
        o.pass2.isSome = true →
        ∃ t, exec (.orderCancel tag o.tag) s = .next t ∧
          Replies s t .orderCancel tag .ok [fN 1 o.state.code, fN 1 s.ctxs[o.hoist].state.code] ∧
          t = { s with ctxs := t.ctxs, orders := t.orders, reserved := s.reserved - s.ctxs[o.hoist].resv,
                       nearlyFull := t.nearlyFull, link := t.link } ∧
          t.ctxs = s.ctxs.set o.hoist { s.ctxs[o.hoist] with closeReason := some .request, resv := 0 } ∧
          t.orders = s.orders.map fun x => if x.slot = o.slot then { x with closePending := true } else x) ∧
      (s.ctxs[o.hoist].pass ≠ some .one ∨ o.pass2 = none →
        exec (.orderCancel tag o.tag) s = .next (s.replied .orderCancel tag .tooLate)))

/-! ### The dip cycle: requests -/

/-- HOIST_STOP sets run enable off in every state; HOIST_RUN sets it on, and recalibrates a PARKED hoist whose position is
unknown outside bench mode (R51, R142). That RECAL is sent without a presence byte is log entry 69, the state the reply
carries log entry 27. -/
def Obligations.RunAndStop : Prop :=
  ∀ (s : State) (tag n : Nat) (h : Hoist), s.listening → s.hoist? n = some h →
    exec (.hoistStop tag n) s = .next
      ({ s with ctxs := s.ctxs.set h { s.ctxs[h] with runEnable := false } }.replied .hoistStop tag .ok) ∧
    (s.noneQueued → s.ctxs[h].state ≠ .parked ∨ s.drives[h].known = true ∨ s.bench = true →
      exec (.hoistRun tag n) s = .next
        ({ s with ctxs := s.ctxs.set h { s.ctxs[h] with runEnable := true } }.replied .hoistRun tag .ok)) ∧
    (s.ctxs[h].state = .parked → s.drives[h].known = false → s.bench = false → s.stopAll = false → s.driveClear h →
      s.inputs[h].areaClear = true → ∃ t, exec (.hoistRun tag n) s = .next t ∧
        Replies s t .hoistRun tag .ok [fN 1 12] ∧
        t = { s with link := t.link, ctxs := t.ctxs, drives := t.drives, mail := t.mail, entries := t.entries } ∧
        t.ctxs[h].state = .recal ∧ t.ctxs[h].ret = some .parked ∧ t.ctxs[h].runEnable = true ∧
        t.drives[h].motion = some ⟨.recal s.kept.drive.travelLimit, s.kept.drive.homeSpeed⟩ ∧
        t.drives[h].travel = 0 ∧ t.drives[h].known = false ∧ t.drives[h].dir = true ∧ t.drives[h].brakeRel = true ∧
        t.drives[h].permit = false ∧ t.drives[h].count = s.drives[h].count ∧
        ∀ i : Hoist, i ≠ h → t.ctxs[i] = s.ctxs[i] ∧ t.drives[i] = s.drives[i])

/-- HOIST_HOLD: refused in PARKED, without effect in HELD, else the dip context enters HELD with its state kept as
held-from, its motion cancelled at the count it has, its weigh request gone and TRAVEL_PERMIT off; zones, claims and
timers stay (R41). A failed motion takes it into HELD likewise, whatever the reaction of its fault (R40). Reports in
transit are log entry 10; that those of failed motions are gone at the entry to HELD is log entry 24, the state the reply
carries log entry 27. -/
def Obligations.HoldEntersHeld : Prop :=
  (∀ (s : State) (tag n : Nat) (h : Hoist), s.listening → s.hoist? n = some h →
    (s.ctxs[h].state = .parked → exec (.hoistHold tag n) s = .next (s.replied .hoistHold tag .wrongState)) ∧
    (s.ctxs[h].state = .held → exec (.hoistHold tag n) s =
      .next (s.replied .hoistHold tag .ok [fN 1 ((s.ctxs[h].heldFrom.map DipState.code).getD 0)])) ∧
    (s.ctxs[h].state ≠ .parked → s.ctxs[h].state ≠ .held → s.stationClear h →
      (∀ l, s.ctxs[h].latched = some l → s.ctxs[h].clock.tenths ≤ l.profile.dwell + l.overrun) →
      ∃ t, exec (.hoistHold tag n) s = .next t ∧ Replies s t .hoistHold tag .ok [fN 1 s.ctxs[h].state.code] ∧
        t = { s with link := t.link, ctxs := t.ctxs, drives := t.drives, wu := t.wu, mail := t.mail,
                     entries := t.entries } ∧
        t.ctxs[h] = { s.ctxs[h] with
          state := .held, heldFrom := some s.ctxs[h].state, asked := .none, snag := false, lost := false,
          starved := false, returning := false } ∧
        t.drives[h].motion = none ∧ t.drives[h].count = s.drives[h].count ∧ t.drives[h].known = s.drives[h].known ∧
        (s.drives[h].motion.isSome = true → t.drives[h].brakeRel = false) ∧
        (s.bench = false → t.drives[h].permit = false) ∧
        (∀ q ∈ t.wu.queue, q.hoist = h → q.dc = none) ∧
        t.mail[h].motions = s.mail[h].motions.filter (fun r => r.cause.isNone) ∧
        ∀ i : Hoist, i ≠ h → t.ctxs[i] = s.ctxs[i] ∧ t.drives[i] = s.drives[i])) ∧
  ∀ (s : State) (h : Hoist) (m : Moved) (c : FailCause) (rest : List MotionReport), s.ready → s.stationClear h →
    s.mail[h].motions = ⟨m, some c⟩ :: rest → s.ctxs[h].state ≠ .parked → s.ctxs[h].state ≠ .held →
    (∀ l, s.ctxs[h].latched = some l → s.ctxs[h].clock.tenths ≤ l.profile.dwell + l.overrun) →
    ∃ t, exec (.motionFailed h) s = .next t ∧ t.ctxs[h].state = .held ∧
      t.ctxs[h].heldFrom = some s.ctxs[h].state ∧ t.drives[h].motion = none ∧
      t.mail[h].motions = rest.filter (fun r => r.cause.isNone) ∧ t.drives[h].known = s.drives[h].known ∧ t.kept = s.kept ∧ t.orders = s.orders ∧ t.holders = s.holders ∧
      ∀ i : Hoist, i ≠ h → t.ctxs[i] = s.ctxs[i] ∧ t.drives[i] = s.drives[i]

/-- HOIST_RESUME: refused unless HELD, refused while a latched fault of HOLD, ABORT or STOP_ALL involves the hoist; with
the position known the held-from state is entered again, from DWELL with its timer at zero LIFTING, with its motion or its
new weigh request where it has one, a drain that has run out ended, a remembered REHANG_DONE acted on; with the position
unknown and no load in the zinc it enters RECAL with the held-from state as return state, with a load RECAL with the load
in the zinc, the order turned onto the abort path (R26, R35, R37, R44, R48, R50). A hook already there is reported at once
(log entry 25); the state the reply carries is log entry 27; that it is away in DRAIN where its count is above the drain position is log entry 42, NO_CONTACT at a
recalibration log entry 28, messages in transit log entry 10, the claim's serial number log entry 12. -/
def Obligations.ResumeReturns : Prop :=
  (∀ (s : State) (tag n : Nat) (h : Hoist), s.listening → s.hoist? n = some h →
    (s.ctxs[h].state ≠ .held → exec (.hoistResume tag n) s = .next (s.replied .hoistResume tag .wrongState)) ∧
    ∀ st, s.ctxs[h].state = .held → s.ctxs[h].heldFrom = some st →
      (s.resumeBarred h = true → exec (.hoistResume tag n) s = .next (s.replied .hoistResume tag .stillPresent)) ∧
      (s.resumeBarred h = false → s.stationClear h → s.drives[h].known = true →
        st = .staged ∨ st = .weighIn ∨ st = .weighOut ∨ (st = .rehang ∧ s.ctxs[h].rehangKept = false) ∨
          (st = .dwell ∧ s.ctxs[h].dwellT ≠ some 0) →
        ∃ t, exec (.hoistResume tag n) s = .next t ∧ Replies s t .hoistResume tag .ok [fN 1 st.code] ∧
          t.ctxs[h].state = st ∧ t.ctxs[h].heldFrom = none ∧ t.kept = s.kept ∧ t.orders = s.orders ∧
          t.holders = s.holders ∧ t.waits = s.waits ∧
          ∀ i : Hoist, i ≠ h → t.ctxs[i] = s.ctxs[i] ∧ t.drives[i] = s.drives[i]) ∧
      (s.resumeBarred h = false → s.stationClear h → s.driveClear h → s.drives[h].known = true → st = .lowering →
        ∀ p l, s.passOf h = some p → s.ctxs[h].latched = some l → s.drives[h].count ≠ p.target →
        ∃ t, exec (.hoistResume tag n) s = .next t ∧ Replies s t .hoistResume tag .ok [fN 1 4] ∧
          t.ctxs[h].state = .lowering ∧ t.ctxs[h].heldFrom = none ∧
          t.drives[h].motion = some ⟨.move p.target, l.profile.entrySpeed⟩ ∧ t.drives[h].brakeRel = true ∧
          t.drives[h].dir = decide (p.target < s.drives[h].count) ∧ t.drives[h].count = s.drives[h].count ∧
          ∀ i : Hoist, i ≠ h → t.ctxs[i] = s.ctxs[i] ∧ t.drives[i] = s.drives[i]) ∧
      (s.resumeBarred h = false → s.stationClear h → s.driveClear h → s.drives[h].known = false →
        st.loadBelow = false → st ≠ .recal →
        ∃ t, exec (.hoistResume tag n) s = .next t ∧ Replies s t .hoistResume tag .ok [fN 1 12] ∧
          t.ctxs[h].state = .recal ∧ t.ctxs[h].ret = some st ∧ t.ctxs[h].heldFrom = none ∧
          t.drives[h].motion = some ⟨.recal s.kept.drive.travelLimit, s.kept.drive.homeSpeed⟩ ∧
          ∀ i : Hoist, i ≠ h → t.ctxs[i] = s.ctxs[i] ∧ t.drives[i] = s.drives[i])) ∧
  ∀ (s : State) (tag n : Nat) (h : Hoist) (st : DipState) (c : DipCtx), s.listening → s.hoist? n = some h →
    s.ctxs[h].state = .held → s.ctxs[h].heldFrom = some st → s.resumeBarred h = false →
    c = { s.ctxs[h] with state := st, heldFrom := none, ret := none, starved := false } →
    (s.drives[h].known = true →
      (st = .staged ∨ (st = .rehang ∧ (s.ctxs[h].rehangKept = false ∨ s.inhibit = true)) ∨
          (st = .dwell ∧ s.ctxs[h].dwellT ≠ some 0 ∧ s.stationClear h) →
        ∃ t, exec (.hoistResume tag n) s = .next t ∧ Resumed s t h tag c ∧
          (s.bench = false → t.drives[h] = { s.drives[h] with permit := decide (st = .rehang) })) ∧
      (∀ o, st = .rehang → s.ctxs[h].rehangKept = true → s.inhibit = false → s.orderOf h = some o →
        ∃ t, exec (.hoistResume tag n) s = .next t ∧ Replies s t .hoistResume tag .ok [fN 1 DipState.staged.code] ∧
          t.ctxs[h].state = .staged ∧ t.ctxs[h].pass = some .two ∧ t.ctxs[h].resv = s.ctxs[h].resv ∧
          t.ctxs[h].rehangKept = false ∧ t.ctxs[h].claim = some s.nextSerial ∧ t.reserved = s.reserved ∧
          (∃ o', t.orderOf h = some o' ∧ o'.state = .active ∧ o'.pass = some .two ∧ o'.tag = o.tag) ∧
          ClaimArrives s t { hoist := h, tag := o.tag, pass := .two, first := (o.passRec .two).first,
                             last := (o.passRec .two).last, clean := (s.kept.profileOf (o.passRec .two)).clean,
                             arrival := s.kept.runtime, alerted := false, serial := s.nextSerial } ∧
          ∀ i : Hoist, i ≠ h → t.ctxs[i] = s.ctxs[i] ∧ t.drives[i] = s.drives[i]) ∧
      (st = .aligning → s.inputs[h].aligned = false → ∃ t, exec (.hoistResume tag n) s = .next t ∧
        Resumed s t h tag c ∧ (s.bench = false → t.drives[h] = { s.drives[h] with permit := true })) ∧
      ((st = .aligning ∧ s.inputs[h].aligned = true) ∨ ((st = .weighIn ∨ st = .weighOut) ∧ s.stationClear h) →
        ∃ t, exec (.hoistResume tag n) s = .next t ∧
          t = { s with ctxs := t.ctxs, drives := t.drives, wu := t.wu, mail := t.mail, entries := t.entries,
                       link := t.link } ∧
          t.ctxs[h] = { c with
            state := if st = .weighOut then .weighOut else .weighIn, asked := t.ctxs[h].asked,
            alignT := if st = .aligning then none else s.ctxs[h].alignT } ∧
          WeighAsked s t h ∧ Replies s t .hoistResume tag .ok [fN 1 t.ctxs[h].state.code] ∧
          (s.bench = false → t.drives[h] = { s.drives[h] with permit := false }) ∧
          ∀ i : Hoist, i ≠ h → t.ctxs[i] = s.ctxs[i] ∧ t.drives[i] = s.drives[i]) ∧
      ∀ l, s.ctxs[h].latched = some l → s.stationClear h → s.driveClear h →
        (∀ p, st = .lowering → s.passOf h = some p → ∃ t, exec (.hoistResume tag n) s = .next t ∧
          Resumed s t h tag { c with starved := s.ctxs[h].starved } ∧
          HookSent s t h p.target l.profile.entrySpeed (s.drives[h].count = p.target)) ∧
        (st = .lifting ∨ (st = .dwell ∧ s.ctxs[h].dwellT = some 0) → ∃ t, exec (.hoistResume tag n) s = .next t ∧
          Resumed s t h tag { s.ctxs[h] with state := .lifting, heldFrom := none, dwellT := none } ∧
          HookSent s t h l.drainPos l.profile.withdrawal (s.drives[h].count ≤ l.drainPos)) ∧
        (st = .abortLift → ∃ t, exec (.hoistResume tag n) s = .next t ∧
          Resumed s t h tag { s.ctxs[h] with state := .abortLift, heldFrom := none, dwellT := none } ∧
          HookSent s t h l.drainPos s.kept.cycle.abortSpeed (s.drives[h].count ≤ l.drainPos)) ∧
        (st = .drain → l.drainPos < s.drives[h].count → ∃ t, exec (.hoistResume tag n) s = .next t ∧
          Resumed s t h tag { c with shakeDone := true, returning := true } ∧
          HookSent s t h l.drainPos s.kept.drive.shakeSpeed False) ∧
        (st = .drain → s.drives[h].count ≤ l.drainPos → s.ctxs[h].drainExpired = false → s.ctxs[h].drainT ≠ some 0 →
          ∃ t, exec (.hoistResume tag n) s = .next t ∧
            Resumed s t h tag { c with shakeDone := true, returning := false } ∧
            (s.bench = false → t.drives[h] = { s.drives[h] with permit := false })) ∧
        (st = .drain → s.drives[h].count ≤ l.drainPos → s.ctxs[h].drainExpired = true ∨ s.ctxs[h].drainT = some 0 →
          ∃ t, exec (.hoistResume tag n) s = .next t ∧
            Replies s t .hoistResume tag .ok [fN 1 DipState.weighOut.code] ∧
            t.ctxs[h] = { c with
              state := .weighOut, shakeDone := true, returning := false, drainT := none, drainExpired := false,
              asked := t.ctxs[h].asked } ∧
            WeighAsked s t h ∧ t.kept = s.kept ∧ t.orders = s.orders ∧ t.reserved = s.reserved ∧
            ((∀ c ∈ s.waits, c.hoist ≠ h) → ∀ z : Fin 12, t.holders[z] ≠ some h) ∧
            ∀ i : Hoist, i ≠ h → t.ctxs[i] = s.ctxs[i] ∧ t.drives[i] = s.drives[i])) ∧
    (s.stationClear h → s.driveClear h →
      (st = .recal → ∃ t, exec (.hoistResume tag n) s = .next t ∧
        Resumed s t h tag { s.ctxs[h] with state := .recal, heldFrom := none } ∧
        t.drives[h].motion = some ⟨.recal s.kept.drive.travelLimit, s.kept.drive.homeSpeed⟩ ∧
        t.drives[h].brakeRel = true ∧ t.drives[h].dir = true ∧ t.drives[h].travel = 0 ∧ t.drives[h].known = false ∧
        t.drives[h].count = s.drives[h].count) ∧
      ∀ o, s.noneQueued → s.drives[h].known = false → st.loadBelow = true → s.orderOf h = some o →
        ∃ t, exec (.hoistResume tag n) s = .next t ∧
          Replies s t .hoistResume tag .ok [fN 1 DipState.recal.code] ∧
          t = { s with ctxs := t.ctxs, orders := t.orders, reserved := t.reserved, nearlyFull := t.nearlyFull,
                       drives := t.drives, mail := t.mail, entries := t.entries, link := t.link } ∧
          t.ctxs[h] = { s.ctxs[h] with
            state := .recal, heldFrom := none, ret := none, dwellT := none,
            closeReason := if o.closePending then s.ctxs[h].closeReason else some .recal,
            resv := if o.closePending then s.ctxs[h].resv else 0,
            flags := { s.ctxs[h].flags with
              recalExit := true,
              aborted := s.ctxs[h].flags.aborted || (!o.closePending && s.ctxs[h].entrySeq.isSome),
              noContact := s.ctxs[h].flags.noContact || (decide (st = .lowering) && !s.ctxs[h].contact) } } ∧
          t.reserved = (if o.closePending then s.reserved else s.reserved - s.ctxs[h].resv) ∧
          (∃ o', t.orderOf h = some o' ∧ o'.closePending = true ∧ o'.state = o.state ∧ o'.tag = o.tag) ∧
          t.drives[h].motion = some ⟨.recal s.kept.drive.travelLimit, s.kept.drive.homeSpeed⟩ ∧
          t.drives[h].brakeRel = true ∧ t.drives[h].dir = true ∧ t.drives[h].known = false ∧
          t.drives[h].count = s.drives[h].count ∧
          ∀ i : Hoist, i ≠ h → t.ctxs[i] = s.ctxs[i] ∧ t.drives[i] = s.drives[i])

/-- HOIST_ABORT, by the state it finds, in HELD by the held-from state: refused in PARKED, without effect where the order
is already on the abort path; with nothing lowered the order closes ABORTED, between its passes PARTIAL; with a load in the
zinc the hook is brought up to the drain position at the abort speed, from HELD at the resume; a drain is cut short, after a
return of the hook where it is away; a weighing goes on; a recalibration without an order is given up. Wherever the order
is turned onto the abort path its reservations are returned (R45, R46, R47). That the hook is away where its count is above
the drain position is log entry 42, that an abort in RECAL with return state DRAIN is remembered in a mark log entry 30, that
a pass leaving LOWERING without contact by an abort of its hold carries NO_CONTACT log entry 28, the state the reply carries
log entry 27. -/
def Obligations.AbortInZinc : Prop :=
  (∀ (s : State) (tag n : Nat) (h : Hoist), s.listening → s.hoist? n = some h →
    (s.ctxs[h].state = .parked → exec (.hoistAbort tag n) s = .next (s.replied .hoistAbort tag .wrongState)) ∧
    (∀ o, s.ctxs[h].state ≠ .parked → s.orderOf h = some o → o.closePending = true → exec (.hoistAbort tag n) s =
      .next (s.replied .hoistAbort tag .ok [fN 1 s.ctxs[h].state.code])) ∧
    (∀ (o : Order) (l : Latched), s.noneQueued → s.orderOf h = some o → o.closePending = false →
      s.ctxs[h].latched = some l →
      s.ctxs[h].state = .lowering ∨ s.ctxs[h].state = .dwell ∨ s.ctxs[h].state = .lifting →
      s.stationClear h → s.driveClear h → s.drives[h].known = true → l.drainPos < s.drives[h].count →
      ∃ t, exec (.hoistAbort tag n) s = .next t ∧ Replies s t .hoistAbort tag .ok [fN 1 s.ctxs[h].state.code] ∧
        t.ctxs[h].state = .abortLift ∧ t.ctxs[h].closeReason = some .request ∧ t.ctxs[h].dwellT = none ∧
        t.ctxs[h].resv = 0 ∧ t.reserved = s.reserved - s.ctxs[h].resv ∧
        t.ctxs[h].flags.aborted = (s.ctxs[h].flags.aborted || s.ctxs[h].entrySeq.isSome) ∧
        (∃ o', t.orderOf h = some o' ∧ o'.closePending = true ∧ o'.state = o.state ∧ o'.tag = o.tag) ∧
        t.drives[h].motion = some ⟨.move l.drainPos, s.kept.cycle.abortSpeed⟩ ∧ t.drives[h].dir = true ∧
        t.drives[h].brakeRel = true ∧ t.drives[h].count = s.drives[h].count ∧ t.kept = s.kept ∧
        t.holders = s.holders ∧ t.waits = s.waits ∧
        ∀ i : Hoist, i ≠ h → t.ctxs[i] = s.ctxs[i] ∧ t.drives[i] = s.drives[i]) ∧
    (s.noneQueued → s.stationClear h → s.ctxs[h].order = none → s.ctxs[h].effective = .recal →
      s.ctxs[h].ret = some .parked →
      ∃ t, exec (.hoistAbort tag n) s = .next t ∧ Replies s t .hoistAbort tag .ok [fN 1 s.ctxs[h].state.code] ∧
        t.ctxs[h] = { s.ctxs[h] with state := .parked, heldFrom := none, ret := none, starved := false } ∧
        t.drives[h].motion = none ∧ t.drives[h].known = s.drives[h].known ∧ t.drives[h].count = s.drives[h].count ∧
        (s.bench = false → t.drives[h].permit = true) ∧ t.kept = s.kept ∧ t.orders = s.orders ∧
        ∀ i : Hoist, i ≠ h → t.ctxs[i] = s.ctxs[i] ∧ t.drives[i] = s.drives[i])) ∧
  ∀ (s : State) (tag n : Nat) (h : Hoist) (o : Order), s.listening → s.hoist? n = some h → s.noneQueued →
    s.ctxs[h].order = some ⟨o.slot, o.tag⟩ → s.orderOf h = some o → o.closePending = false →
    (s.ctxs[h].effective = .staged ∨ s.ctxs[h].effective = .aligning ∨ s.ctxs[h].effective = .weighIn →
      ∃ t, exec (.hoistAbort tag n) s = .next t ∧ Replies s t .hoistAbort tag .ok [fN 1 s.ctxs[h].state.code] ∧
        t.ctxs[h] = { DipCtx.parked with
          runEnable := s.ctxs[h].runEnable, last := some ⟨o.tag, .aborted, some .request⟩ } ∧
        t.orders = s.orders.filter (fun x => x.slot != o.slot) ∧ t.reserved = s.reserved - s.ctxs[h].resv ∧
        t.kept = s.kept ∧ (∀ q ∈ t.wu.queue, q.hoist = h → q.dc = none) ∧
        (s.ctxs[h].effective = .staged → ∀ c ∈ t.waits, c.hoist ≠ h) ∧
        ((∀ c ∈ s.waits, c.hoist ≠ h) → ∀ z : Fin 12, t.holders[z] ≠ some h) ∧
        ∀ i : Hoist, i ≠ h → t.ctxs[i] = s.ctxs[i] ∧ t.drives[i] = s.drives[i]) ∧
    (s.ctxs[h].effective = .rehang →
      ∃ t, exec (.hoistAbort tag n) s = .next t ∧ Replies s t .hoistAbort tag .ok [fN 1 s.ctxs[h].state.code] ∧
        t.ctxs[h] = { DipCtx.parked with
          runEnable := s.ctxs[h].runEnable, last := some ⟨o.tag, .partialDone, some .request⟩ } ∧
        t.orders = s.orders.filter (fun x => x.slot != o.slot) ∧ t.reserved = s.reserved - s.ctxs[h].resv ∧
        t.kept = s.kept ∧ t.holders = s.holders ∧ t.waits = s.waits ∧
        ∀ i : Hoist, i ≠ h → t.ctxs[i] = s.ctxs[i] ∧ t.drives[i] = s.drives[i]) ∧
    (∀ c : DipCtx, c = { s.ctxs[h] with
          closeReason := some .request, resv := 0,
          flags := { s.ctxs[h].flags with aborted := s.ctxs[h].flags.aborted || s.ctxs[h].entrySeq.isSome } } →
      (s.ctxs[h].effective = .weighOut →
        ∃ t, exec (.hoistAbort tag n) s = .next t ∧ TurnedAborted s t h o c ∧ t.drives = s.drives ∧
          t.mail = s.mail ∧ t.entries = s.entries ∧
          Replies s t .hoistAbort tag .ok [fN 1 s.ctxs[h].state.code]) ∧
      (s.ctxs[h].effective = .recal → s.ctxs[h].ret = some .drain →
        ∃ t, exec (.hoistAbort tag n) s = .next t ∧ TurnedAborted s t h o { c with recalAbort := true } ∧
          t.drives = s.drives ∧ t.mail = s.mail ∧ t.entries = s.entries ∧
          Replies s t .hoistAbort tag .ok [fN 1 s.ctxs[h].state.code]) ∧
      (s.ctxs[h].state = .held → s.ctxs[h].heldFrom = some .drain →
        ∃ t, exec (.hoistAbort tag n) s = .next t ∧
          TurnedAborted s t h o { c with drainExpired := true, shakeDone := true } ∧ t.drives = s.drives ∧
          t.mail = s.mail ∧ t.entries = s.entries ∧ Replies s t .hoistAbort tag .ok [fN 1 DipState.held.code]) ∧
      (∀ st, s.ctxs[h].state = .held → s.ctxs[h].heldFrom = some st → s.stationClear h →
        st = .lowering ∨ st = .dwell ∨ st = .lifting →
        ∃ t, exec (.hoistAbort tag n) s = .next t ∧ Replies s t .hoistAbort tag .ok [fN 1 DipState.held.code] ∧
          TurnedAborted s t h o { c with
            heldFrom := some .abortLift, dwellT := none, starved := false,
            flags := { c.flags with
              noContact := c.flags.noContact || (decide (st = .lowering) && !s.ctxs[h].contact) } } ∧
          (s.bench = false → t.drives[h] = { s.drives[h] with permit := false }) ∧
          ∀ i : Hoist, i ≠ h → t.drives[i] = s.drives[i])) ∧
    ∀ l, s.ctxs[h].state = .drain → s.ctxs[h].latched = some l → s.stationClear h →
      (s.drives[h].count ≤ l.drainPos →
        ∃ t, exec (.hoistAbort tag n) s = .next t ∧ Replies s t .hoistAbort tag .ok [fN 1 DipState.drain.code] ∧
          t.ctxs[h].state = .weighOut ∧ t.ctxs[h].drainT = none ∧ t.ctxs[h].closeReason = some .request ∧
          t.ctxs[h].flags = { s.ctxs[h].flags with
            aborted := s.ctxs[h].flags.aborted || s.ctxs[h].entrySeq.isSome } ∧
          t.orders = s.orders.map (fun x => if x.slot = o.slot then { x with closePending := true } else x) ∧
          t.reserved = s.reserved - s.ctxs[h].resv ∧ t.drives[h].motion = none ∧ t.kept = s.kept ∧
          ((∀ q ∈ s.wu.queue, q.hoist ≠ h) → ∀ p, s.ctxs[h].pass = some p →
            t.wu.queue = s.wu.queue ++ [⟨h, some (o.tag, p)⟩] ∧ t.ctxs[h].asked = .placed) ∧
          ((∀ c ∈ s.waits, c.hoist ≠ h) → ∀ z : Fin 12, t.holders[z] ≠ some h) ∧
          ∀ i : Hoist, i ≠ h → t.ctxs[i] = s.ctxs[i] ∧ t.drives[i] = s.drives[i]) ∧
      (l.drainPos < s.drives[h].count → s.driveClear h → s.drives[h].known = true →
        ∃ t, exec (.hoistAbort tag n) s = .next t ∧ Replies s t .hoistAbort tag .ok [fN 1 DipState.drain.code] ∧
          TurnedAborted s t h o { s.ctxs[h] with
            closeReason := some .request, resv := 0, shakeDone := true, drainT := some 0, returning := true,
            flags := { s.ctxs[h].flags with
              aborted := s.ctxs[h].flags.aborted || s.ctxs[h].entrySeq.isSome } } ∧
          t.drives[h].motion = some ⟨.move l.drainPos, s.kept.drive.shakeSpeed⟩ ∧ t.drives[h].dir = true ∧
          t.drives[h].brakeRel = true ∧ t.drives[h].count = s.drives[h].count ∧
          ∀ i : Hoist, i ≠ h → t.drives[i] = s.drives[i])

/-- REHANG_DONE: refused outside REHANG; begins pass 2 with the reservation kept and its claim with the arbiter, or is
remembered while an INHIBIT is in force and in HELD from REHANG (R26, R37, R89, R90). The claim's serial number is log
entry 12, the grant still in transit log entry 10. -/
def Obligations.RehangStartsPass2 : Prop :=
  ∀ (s : State) (tag n : Nat) (h : Hoist), s.listening → s.hoist? n = some h →
    (s.ctxs[h].effective ≠ .rehang → exec (.rehangDone tag n) s = .next (s.replied .rehangDone tag .wrongState)) ∧
    (s.ctxs[h].state = .rehang → s.inhibit = true → exec (.rehangDone tag n) s = .next
      ({ s with ctxs := s.ctxs.set h { s.ctxs[h] with rehangKept := true } }.replied .rehangDone tag .ok)) ∧
    (s.ctxs[h].state = .held → s.ctxs[h].heldFrom = some .rehang → exec (.rehangDone tag n) s = .next
      ({ s with ctxs := s.ctxs.set h { s.ctxs[h] with rehangKept := true } }.replied .rehangDone tag .ok)) ∧
    ∀ o, s.ctxs[h].state = .rehang → s.inhibit = false → s.orderOf h = some o →
      ∃ t, exec (.rehangDone tag n) s = .next t ∧ Replies s t .rehangDone tag .ok ∧
        t.ctxs[h].state = .staged ∧ t.ctxs[h].pass = some .two ∧ t.ctxs[h].resv = s.ctxs[h].resv ∧
        t.ctxs[h].contact = false ∧ t.ctxs[h].clock = ⟨.notStarted, 0⟩ ∧ t.ctxs[h].flags = EntryFlags.empty ∧
        t.reserved = s.reserved ∧ t.kept = s.kept ∧
        (∃ o', t.orderOf h = some o' ∧ o'.state = .active ∧ o'.pass = some .two ∧ o'.tag = o.tag) ∧
        t.ctxs[h].claim = some s.nextSerial ∧
        ClaimArrives s t { hoist := h, tag := o.tag, pass := .two, first := (o.passRec .two).first,
                           last := (o.passRec .two).last, clean := (s.kept.profileOf (o.passRec .two)).clean,
                           arrival := s.kept.runtime, alerted := false, serial := s.nextSerial } ∧
        ∀ i : Hoist, i ≠ h → t.ctxs[i] = s.ctxs[i] ∧ t.drives[i] = s.drives[i]

/-! ### The Zinc Book -/

/-- BOOK_OPEN: refused outside its range, and in OPEN while an entry or a reservation stands; else the journal holds the
OPENING entry alone, base 0, the inventory the opening inventory, and every total afresh (R73). -/
def Obligations.BookOpens : Prop :=
  ∀ (s : State) (tag n : Nat), s.listening →
    (20000000 < n → exec (.bookOpen tag n) s = .next (s.replied .bookOpen tag .badValue)) ∧
    (n ≤ 20000000 → s.kept.bookOpen = true → s.kept.journal ≠ [] ∨ s.reserved ≠ 0 ∨ s.kept.seqSpent = true →
      exec (.bookOpen tag n) s = .next (s.replied .bookOpen tag .busy)) ∧
    (n ≤ 20000000 → s.noneQueued →
      s.kept.bookOpen = false ∨ (s.kept.journal = [] ∧ s.reserved = 0 ∧ s.kept.seqSpent = false) →
      ∃ t, exec (.bookOpen tag n) s = .next t ∧ Replies s t .bookOpen tag .ok [fN 4 s.kept.nextSeq] ∧
        t = { s with kept := t.kept, nearlyFull := t.nearlyFull, link := t.link } ∧
        t.kept = { s.kept with bookOpen := true, journal := t.kept.journal, base := 0, inventory := n,
                               totals := t.kept.totals, nextSeq := t.kept.nextSeq, seqSpent := t.kept.seqSpent } ∧
        (∃ e, t.kept.journal = [e] ∧ e.seq = s.kept.nextSeq ∧ e.kind = .opening ∧ e.final = true ∧ e.amount = n ∧
          e.written = s.kept.runtime ∧ e.finalised = some s.kept.runtime) ∧
        t.kept.totals[EntryKind.opening.ix] = ⟨1, n⟩ ∧
        (∀ k : EntryKind, k ≠ .opening → t.kept.totals[k.ix] = ⟨0, 0⟩) ∧
        t.kept.nextSeq = min 4294967295 (s.kept.nextSeq + 1))

/-- BOOK_POST: judged in the order of R74; a post that passes writes one FINAL entry at the newest end, and the inventory
and the kind's totals move by its amount. -/
def Obligations.PostBooked : Prop :=
  ∀ (s : State) (tag code note : Nat) (mass : Int), s.listening →
    (code ≠ 3 ∧ code ≠ 4 ∧ code ≠ 5 → exec (.bookPost tag code mass note) s =
      .next (s.replied .bookPost tag .badValue)) ∧
    ∀ k : EntryKind, k = .dross ∨ k = .ash ∨ k = .correction → code = k.code →
      if (k = .correction ∧ (mass = 0 ∨ mass < -1000000 ∨ 1000000 < mass)) ∨
         (k ≠ .correction ∧ (mass < 1 ∨ 1000000 < mass))
      then exec (.bookPost tag code mass note) s = .next (s.replied .bookPost tag .badValue)
      else if s.kept.bookOpen = false then exec (.bookPost tag code mass note) s =
        .next (s.replied .bookPost tag .bookClosed)
      else if s.free = 0 ∨ s.kept.seqLeft ≤ s.reserved then exec (.bookPost tag code mass note) s =
        .next (s.replied .bookPost tag .bookFull)
      else ∃ t, exec (.bookPost tag code mass note) s = .next t ∧
        (let amount := if k = .correction then mass else -mass
         Replies s t .bookPost tag .ok [fN 4 s.kept.nextSeq, (8, s.kept.inventory + amount)] ∧
         t = { s with kept := t.kept, nearlyFull := t.nearlyFull, link := t.link } ∧
         (∃ e, t.kept.journal = s.kept.journal ++ [e] ∧ e.seq = s.kept.nextSeq ∧ e.kind = k ∧ e.final = true ∧
           e.amount = amount ∧ e.note = some note ∧ e.written = s.kept.runtime ∧
           e.finalised = some s.kept.runtime) ∧
         t.kept.inventory = s.kept.inventory + amount ∧ t.kept.base = s.kept.base ∧
         t.kept.totals[k.ix] = ⟨min 4294967295 (s.kept.totals[k.ix].count + 1), s.kept.totals[k.ix].sum + amount⟩ ∧
         ∀ j : EntryKind, j ≠ k → t.kept.totals[j.ix] = s.kept.totals[j.ix])

/-- BOOK_TRIM: refused in UNOPENED; else FINAL entries at or below the number leave the oldest end one by one, their
amounts go into the base, and inventory and totals do not move (R76). -/
def Obligations.TrimMovesToBase : Prop :=
  ∀ (s : State) (tag n : Nat), s.listening →
    (s.kept.bookOpen = false → exec (.bookTrim tag n) s = .next (s.replied .bookTrim tag .bookClosed)) ∧
    (s.kept.bookOpen = true → s.noneQueued → ∃ t, exec (.bookTrim tag n) s = .next t ∧
      t = { s with kept := { s.kept with journal := t.kept.journal, base := t.kept.base }, nearlyFull := t.nearlyFull,
                   link := t.link } ∧
      t.kept.journal = s.kept.journal.dropWhile (fun e => decide (e.seq ≤ n) && e.final) ∧
      t.kept.base = s.kept.base +
        ((s.kept.journal.takeWhile fun e => decide (e.seq ≤ n) && e.final).map Entry.amount).sum ∧
      ∃ fields, Replies s t .bookTrim tag .ok fields)

/-- A second of running time: the counter rises and stops at its end, and the tenths of the second start again (R80; log
entry 9). A waiting claim of the hoist whose waiting time is beyond the alert is marked alerted once, and nothing else of
it changes (R96). -/
def Obligations.RuntimeCountsAndAlerts : Prop :=
  (∀ s : State, s.ready → ∃ t, exec .runtimeTick s = .next t ∧
    t = { s with kept := { s.kept with runtime := min 4294967295 (s.kept.runtime + 1) }, tenths := 0, link := t.link }) ∧
  ∀ (s : State) (h : Hoist), s.ready → ∃ t, exec (.claimWaitAlert h) s = .next t ∧
    t = { s with waits := t.waits, link := t.link } ∧
    t.waits = s.waits.map fun c =>
      if c.hoist = h ∧ s.kept.kettle.waitAlert < s.kept.runtime - c.arrival then { c with alerted := true } else c

/-! ### The Zone Arbiter -/

/-- SKIM_DONE: refused for a span that is none, and for one with a held zone; else every zone of the span is CLEAN with
count 0 and the others keep theirs, and the wait list is examined: oldest first, a claim is granted where it is grantable
and overlaps no older claim that stays (R90, R92, R93, R99). Grants in transit are log entry 10. -/
def Obligations.SkimCleansZones : Prop :=
  ∀ (s : State) (tag a b : Nat), s.listening →
    (¬(1 ≤ a ∧ a ≤ b ∧ b ≤ 12) → exec (.skimDone tag a b) s = .next (s.replied .skimDone tag .badValue)) ∧
    (∀ (z : Fin 12) (h : Hoist), 1 ≤ a ∧ a ≤ b ∧ b ≤ 12 → a ≤ zoneNo z ∧ zoneNo z ≤ b → s.holders[z] = some h →
      (∀ y : Fin 12, y < z → a ≤ zoneNo y → s.holders[y] = none) →
      exec (.skimDone tag a b) s = .next (s.replied .skimDone tag .zoneHeld [fN 1 (zoneNo z), fN 1 (hoistNo h)])) ∧
    (1 ≤ a ∧ a ≤ b ∧ b ≤ 12 → (∀ z : Fin 12, a ≤ zoneNo z → zoneNo z ≤ b → s.holders[z] = none) →
      ∃ t, exec (.skimDone tag a b) s = .next t ∧ Replies s t .skimDone tag .ok ∧
        t = { s with kept := { s.kept with surfaces := t.kept.surfaces }, holders := t.holders, waits := t.waits,
                     mail := t.mail, link := t.link } ∧
        (∀ z : Fin 12, t.kept.surfaces[z] = if a ≤ zoneNo z ∧ zoneNo z ≤ b then ⟨false, 0⟩ else s.kept.surfaces[z]) ∧
        Examined s t)

/-- A grant that answers the dip context's own outstanding claim, taken in STAGED, brings ALIGNING with the align
timer loaded and TRAVEL_PERMIT on, or WEIGH_IN at once where ALIGNED is present; taken in HELD from STAGED it makes the
held-from state ALIGNING and loads the timer, TRAVEL_PERMIT staying off; a grant for another order, pass or claim, or in
any other state, is discarded (R27, R28, R93). Grants in transit are log entry 10, the serial number of a claim log entry 12. -/
def Obligations.GrantTaken : Prop :=
  ∀ (s : State) (h : Hoist) (g : Grant) (gs : List Grant), s.ready → s.mail[h].grants = g :: gs →
    (s.ctxs[h].claim ≠ some g.serial ∨ s.ctxs[h].order.map OrderRef.tag ≠ some g.tag ∨ s.ctxs[h].pass ≠ some g.pass ∨
        (s.ctxs[h].state ≠ .staged ∧ ¬(s.ctxs[h].state = .held ∧ s.ctxs[h].heldFrom = some .staged)) →
      ∃ t, exec (.claimGrant h) s = .next t ∧ t = { s with mail := t.mail, link := t.link } ∧
        t.mail[h] = { s.mail[h] with grants := gs }) ∧
    (s.ctxs[h].claim = some g.serial → s.ctxs[h].order.map OrderRef.tag = some g.tag → s.ctxs[h].pass = some g.pass →
      s.ctxs[h].state = .held → s.ctxs[h].heldFrom = some .staged → ∃ t, exec (.claimGrant h) s = .next t ∧
        t = { s with ctxs := t.ctxs, drives := t.drives, mail := t.mail, entries := t.entries, link := t.link } ∧
        t.mail[h].grants = gs ∧
        t.ctxs[h] = { s.ctxs[h] with
          claim := none, alignT := some (s.kept.cycle.alignTimeout * 10), heldFrom := some .aligning,
          starved := false } ∧
        (s.bench = false → t.drives[h] = { s.drives[h] with permit := false }) ∧
        ∀ i : Hoist, i ≠ h → t.ctxs[i] = s.ctxs[i] ∧ t.drives[i] = s.drives[i]) ∧
    (s.ctxs[h].claim = some g.serial → s.ctxs[h].order.map OrderRef.tag = some g.tag → s.ctxs[h].pass = some g.pass →
      s.ctxs[h].state = .staged → ∃ t, exec (.claimGrant h) s = .next t ∧
        t = { s with ctxs := t.ctxs, drives := t.drives, mail := t.mail, wu := t.wu, entries := t.entries,
                     link := t.link } ∧
        t.mail[h].grants = gs ∧ t.ctxs[h].claim = none ∧
        (s.inputs[h].aligned = false → t.ctxs[h].state = .aligning ∧
          t.ctxs[h].alignT = some (s.kept.cycle.alignTimeout * 10) ∧ (s.bench = false → t.drives[h].permit = true)) ∧
        (s.inputs[h].aligned = true → t.ctxs[h].state = .weighIn ∧ t.ctxs[h].alignT = none ∧
          (s.bench = false → t.drives[h].permit = false) ∧
          ((∀ q ∈ s.wu.queue, q.hoist ≠ h) → t.ctxs[h].asked = .placed ∧
            t.wu.queue = s.wu.queue ++ [⟨h, some (g.tag, g.pass)⟩]) ∧
          ((∃ q ∈ s.wu.queue, q.hoist = h) → t.ctxs[h].asked = .unplaced ∧ t.wu.queue = s.wu.queue ∧
            t.wu.waiting[h] = true)) ∧
        ∀ i : Hoist, i ≠ h → t.ctxs[i] = s.ctxs[i] ∧ t.drives[i] = s.drives[i])

/-! ### The Weighing Unit -/

/-- WEIGH_NOW: refused unless the hoist is PARKED, and while it has a request in the queue; else a HOST request joins
at the newest end (R117). The weigh timer of a service ends it UNSTABLE: a dip context is handed the result, a host
weighing is written into the weigh-result record with the spread of the last window judged; the request leaves the
queue (R114). An expiry that finds the timer of a service above zero, the next one's where a stabilising sample was taken
first, changes nothing (R125; log entry 2). The result in transit is log entry 10. -/
def Obligations.WeighingAskedAndTimedOut : Prop :=
  (∀ (s : State) (tag n : Nat) (h : Hoist), s.listening → s.hoist? n = some h →
    (s.ctxs[h].state ≠ .parked → exec (.weighNow tag n) s = .next (s.replied .weighNow tag .wrongState)) ∧
    (s.ctxs[h].state = .parked → (∃ q ∈ s.wu.queue, q.hoist = h) →
      exec (.weighNow tag n) s = .next (s.replied .weighNow tag .busy)) ∧
    (s.ctxs[h].state = .parked → (∀ q ∈ s.wu.queue, q.hoist ≠ h) → exec (.weighNow tag n) s = .next
      (({ s with wu := { s.wu with queue := s.wu.queue ++ [⟨h, none⟩] } } : State).replied .weighNow tag .ok
        [fN 1 s.wu.queue.length]))) ∧
  (∀ s : State, s.ready → (∀ v, s.wu.service = some v → v.timer ≠ 0) →
    ∃ t, exec .weighTimerExpiry s = .next t ∧ t = { s with link := t.link }) ∧
  ∀ (s : State) (v : Service), s.ready → s.wu.service = some v → v.timer = 0 → s.wu.waiting[v.req.hoist] = false →
    ∃ t, exec .weighTimerExpiry s = .next t ∧
      t = { s with wu := { s.wu with service := none, queue := t.wu.queue, record := t.wu.record }, mail := t.mail,
                   link := t.link } ∧
      t.wu.queue = s.wu.queue.filter (fun q => q != v.req) ∧
      (∀ a p, v.req.dc = some (a, p) → t.wu.record = s.wu.record ∧
        t.mail[v.req.hoist] = { s.mail[v.req.hoist] with results := s.mail[v.req.hoist].results ++
          [⟨a, p, none, (v.judged.map Prod.fst).getD 0, v.judged.map Prod.snd⟩] }) ∧
      (v.req.dc = none → t.mail = s.mail ∧ ∃ r, t.wu.record = some r ∧ r.hoist = v.req.hoist ∧ r.value = none ∧
        r.samples = (v.judged.map Prod.fst).getD 0 ∧ r.spread = v.judged.map Prod.snd)

/-- What a sample period leaves of the readings while no load moves and the temperature is not just going stale: every age
rises by 10 ms; a missed period is counted and keeps the channel; the count of a switch period is discarded; an accepted
sample becomes the channel's latest value with age 0 (R104, R105, R106). A weighing that is due begins also after a missed
period (R111; log entry 35). A sample of a load over the kettle: the contact with its capture and its surface depth, the
snag and load-lost marks with their faults (R32, R39, R119, R120). A reading beyond the age limit starves a moving hoist
once (R121). A sample of the hoist being weighed joins the window, which ends the weighing OK with its mean where it is
full and within the band (R113). A temperature is judged against the bath band, and goes stale beyond 5 s (R122). The faults
raised are such that they reach no dip context: a BATH_TEMP that is latched at once does not carry STOP_ALL, and involves
no hoist. Messages in transit are log entry 10, the values after a WEIGH_SETUP or during a weighing log entries 56 and 72. -/
def Obligations.SamplePeriodReads : Prop :=
  (∀ s : State, s.ready → (∀ h : Hoist, s.ctxs[h].state = .parked) → s.wu.service = none →
    ¬(4990 < s.wu.chans[tempChannel].age ∧ s.wu.chans[tempChannel].age ≤ 5000) →
    (∃ t, exec (.samplePeriodEnd none) s = .next t ∧ t.wu.chan = s.wu.chan ∧ t.wu.settled = s.wu.settled ∧
      (s.wu.queue = [] → t.wu.service = none) ∧
      (∀ q rest, s.wu.queue = q :: rest → t.wu.service = some
        { req := q, window := [], since := 0, visits := [], timer := s.kept.weigh.limits.timeout, judged := none }) ∧
      ∀ c : Channel, t.wu.chans[c] = { s.wu.chans[c] with
        age := min 65535 (s.wu.chans[c].age + 10),
        missed := if c = s.wu.chan ∧ s.wu.chans[c].missed < 65535 then s.wu.chans[c].missed + 1
          else s.wu.chans[c].missed }) ∧
    (∀ n : Int, s.wu.settled ≠ some s.wu.chan → ∃ t, exec (.samplePeriodEnd (some n)) s = .next t ∧
      t.wu.settled = some s.wu.chan ∧
      ∀ c : Channel, t.wu.chans[c] = { s.wu.chans[c] with age := min 65535 (s.wu.chans[c].age + 10) }) ∧
    ∀ (n : Int) (h : Hoist), s.wu.settled = some s.wu.chan → s.wu.chan = loadChannel h →
      ∃ t, exec (.samplePeriodEnd (some n)) s = .next t ∧ t.wu.settled = s.wu.settled ∧
        ∀ c : Channel, t.wu.chans[c] = if c = loadChannel h
          then { s.wu.chans[c] with
            value := some (toLoad s.kept.weigh.calib[h] n), raw := some n, age := 0 }
          else { s.wu.chans[c] with age := min 65535 (s.wu.chans[c].age + 10) }) ∧
  (∀ (s : State) (h : Hoist), s.ready → s.installed h = true →
    ¬(4990 < s.wu.chans[tempChannel].age ∧ s.wu.chans[tempChannel].age ≤ 5000) →
    (∀ i : Hoist, i ≠ h → s.ctxs[i].state.moving = false) →
    (∀ (n x w : Int) (l : Latched) (o : OrderRef) (p : Pass) (rec_ : PassRec) (touch : Bool),
      s.wu.settled = some s.wu.chan → s.wu.chan = loadChannel h → x = toLoad s.kept.weigh.calib[h] n →
      (∀ v, s.wu.service = some v → v.req.hoist ≠ h) → s.ctxs[h].state.monitored = true →
      s.ctxs[h].weighIn = some w → s.ctxs[h].latched = some l → s.ctxs[h].order = some o → s.ctxs[h].pass = some p →
      s.passOf h = some rec_ →
      touch = (s.ctxs[h].state == .lowering && !s.ctxs[h].contact && decide (s.kept.weigh.limits.contact < w - x)) →
      (touch = true → s.stationClear h) →
      (w + s.kept.weigh.limits.snag < x → s.ctxs[h].snag = false → s.latchesAlone .snag) →
      (x < s.kept.weigh.limits.slack → s.ctxs[h].lost = false → s.latchesAlone .loadLost) →
      ∃ t, exec (.samplePeriodEnd (some n)) s = .next t ∧
        t = { s with kept := t.kept, ctxs := t.ctxs, drives := t.drives, wu := t.wu, mail := t.mail, entries := t.entries,
                     beaconT := t.beaconT, link := t.link } ∧
        t.ctxs[h] = { s.ctxs[h] with
          contact := s.ctxs[h].contact || touch, clock := if touch then ⟨.running, 0⟩ else s.ctxs[h].clock,
          snag := decide (w + s.kept.weigh.limits.snag < x), lost := decide (x < s.kept.weigh.limits.slack),
          starved := false } ∧
        (w + s.kept.weigh.limits.snag < x → s.ctxs[h].snag = false → t.latchedOnce .snag (some h)) ∧
        (x < s.kept.weigh.limits.slack → s.ctxs[h].lost = false → t.latchedOnce .loadLost (some h)) ∧
        (s.ctxs[h].snag = true ∨ x ≤ w + s.kept.weigh.limits.snag →
          t.entries[FaultKind.snag.ix] = s.entries[FaultKind.snag.ix]) ∧
        (s.ctxs[h].lost = true ∨ s.kept.weigh.limits.slack ≤ x →
          t.entries[FaultKind.loadLost.ix] = s.entries[FaultKind.loadLost.ix]) ∧
        (touch = false → t.kept = s.kept ∧ t.mail = s.mail ∧ t.drives = s.drives) ∧
        (touch = true → t.mail[h] = { s.mail[h] with level := s.mail[h].level ++
            [.view { state := .lowering, heldFrom := s.ctxs[h].heldFrom, contact := true, recalLoad := false },
             .capture { hoist := h, tag := o.tag, pass := p, position := s.drives[h].count, drop := rec_.drop,
                        depth := s.drives[h].count + rec_.drop, time := s.kept.runtime * 10 + s.tenths,
                        displaced := false }] } ∧
          t.kept = { s.kept with journal := t.kept.journal, totals := t.kept.totals } ∧
          ∀ (pre post : List Entry) (e : Entry), s.ctxs[h].entrySeq = some e.seq → s.kept.journal = pre ++ e :: post →
            (∀ y ∈ pre, y.seq ≠ e.seq) → e.kind = .pickup → e.final = false →
            t.kept.journal = pre ++ { e with surface := some (s.drives[h].count + rec_.drop) } :: post) ∧
        ∀ i : Hoist, i ≠ h → t.ctxs[i] = s.ctxs[i] ∧ t.drives[i] = s.drives[i]) ∧
    (s.ctxs[h].state.moving = true →
      (s.kept.weigh.limits.ageLimit < min 65535 (s.wu.chans[loadChannel h].age + 10) → s.ctxs[h].starved = false →
        s.latchesAlone .scanStarved → ∃ t, exec (.samplePeriodEnd none) s = .next t ∧
          t = { s with ctxs := t.ctxs, wu := t.wu, entries := t.entries, beaconT := t.beaconT, link := t.link } ∧
          t.ctxs = s.ctxs.set h { s.ctxs[h] with starved := true } ∧ t.latchedOnce .scanStarved (some h)) ∧
      (min 65535 (s.wu.chans[loadChannel h].age + 10) ≤ s.kept.weigh.limits.ageLimit ∨ s.ctxs[h].starved = true →
        ∃ t, exec (.samplePeriodEnd none) s = .next t ∧ t = { s with wu := t.wu, link := t.link })) ∧
    ∀ (n x : Int) (v : Service) (w : List Int), s.wu.settled = some s.wu.chan → s.wu.chan = loadChannel h →
      x = toLoad s.kept.weigh.calib[h] n → s.wu.service = some v → v.req.hoist = h → s.wu.forService = true →
      s.ctxs[h].state.monitored = false → s.wu.waiting[h] = false → 0 < s.kept.weigh.limits.window →
      w = (v.window ++ [x]).drop ((v.window ++ [x]).length - s.kept.weigh.limits.window) →
      ∃ t, exec (.samplePeriodEnd (some n)) s = .next t ∧
        t = { s with ctxs := t.ctxs, wu := t.wu, mail := t.mail, link := t.link } ∧
        t.ctxs = s.ctxs.set h { s.ctxs[h] with starved := false } ∧
        (w.length < s.kept.weigh.limits.window → t.mail = s.mail ∧ t.wu.record = s.wu.record ∧
          t.wu.queue = s.wu.queue ∧ ∃ u, t.wu.service = some u ∧
          u = { v with window := w, since := u.since, visits := u.visits }) ∧
        ∀ d : Nat, s.kept.weigh.limits.window ≤ w.length → (∃ a ∈ w, ∃ b ∈ w, a - b = d) → (∀ a ∈ w, ∀ b ∈ w, a - b ≤ d) →
          (s.kept.weigh.limits.band < d → t.mail = s.mail ∧ t.wu.record = s.wu.record ∧ t.wu.queue = s.wu.queue ∧
            ∃ u, t.wu.service = some u ∧
              u = { v with window := w, since := u.since, visits := u.visits, judged := some (w.length, d) }) ∧
          (d ≤ s.kept.weigh.limits.band → t.wu.queue = s.wu.queue.filter (fun q => q != v.req) ∧
            t.wu.service.map Service.req = t.wu.queue.head? ∧ ∃ m : Int,
            2 * (m * w.length - w.sum).natAbs ≤ w.length ∧
            (2 * (m * w.length - w.sum).natAbs = w.length → w.sum.natAbs ≤ (m * w.length).natAbs) ∧
            (∀ a p, v.req.dc = some (a, p) → t.wu.record = s.wu.record ∧
              t.mail[h] = { s.mail[h] with
                results := s.mail[h].results ++ [⟨a, p, some m, w.length, some d⟩] }) ∧
            (v.req.dc = none → t.mail = s.mail ∧
              t.wu.record = some ⟨h, some m, w.length, some d, s.kept.runtime⟩))) ∧
  ∀ s : State, s.ready → (∀ h : Hoist, s.ctxs[h].state.moving = false) →
    (s.reactionOf .bathTemp ≠ .stopAll ∨ s.kept.faults[FaultKind.bathTemp.ix].delay ≠ 0 ∨
      s.entries[FaultKind.bathTemp.ix].state ≠ .clear) →
    (∀ n : Int, s.wu.settled = some s.wu.chan → s.wu.chan = tempChannel →
      ∃ t, exec (.samplePeriodEnd (some n)) s = .next t ∧
        t = { s with wu := t.wu, entries := t.entries, beaconT := t.beaconT, link := t.link } ∧
        t.wu.chans[tempChannel] = { s.wu.chans[tempChannel] with value := some n, raw := some n, age := 0 } ∧
        BathEvaluated s t (if n < s.kept.weigh.limits.bathLow ∨ s.kept.weigh.limits.bathHigh < n then .outOfBand
          else .absent)) ∧
    (4990 < s.wu.chans[tempChannel].age → s.wu.chans[tempChannel].age ≤ 5000 →
      (∀ v, s.wu.chans[tempChannel].value = some v →
        s.kept.weigh.limits.bathLow ≤ v ∧ v ≤ s.kept.weigh.limits.bathHigh) →
      ∃ t, exec (.samplePeriodEnd none) s = .next t ∧
        t = { s with wu := t.wu, entries := t.entries, beaconT := t.beaconT, link := t.link } ∧
        BathEvaluated s t .stale)

/-- A weigh-in of OK begins the immersion: the weigh-in and the pass parameters are kept, one PROVISIONAL PICKUP entry
is written with one reservation, and the hook is sent down to its target (R30, R65, R68). Results in transit are log
entry 10. -/
def Obligations.WeighInLowers : Prop :=
  ∀ (s : State) (h : Hoist) (o : Order) (p : Pass) (w : Int) (n : Nat) (d : Option Nat) (rest : List WeighAnswer), s.ready →
    s.mail[h].results = ⟨o.tag, p, some w, n, d⟩ :: rest → s.ctxs[h].state = .weighIn → s.ctxs[h].asked = .placed →
    s.ctxs[h].order = some ⟨o.slot, o.tag⟩ → s.ctxs[h].pass = some p → s.orderOf h = some o →
    s.stationClear h → s.driveClear h → s.drives[h].known = true → s.drives[h].count ≠ (o.passRec p).target →
    ∃ t, exec (.weighResult h) s = .next t ∧
      t = { s with kept := t.kept, reserved := s.reserved - 1, ctxs := t.ctxs, drives := t.drives, mail := t.mail,
                   entries := t.entries, link := t.link } ∧
      t.ctxs[h].state = .lowering ∧ t.ctxs[h].weighIn = some w ∧ t.ctxs[h].entered = true ∧
      t.ctxs[h].entrySeq = some s.kept.nextSeq ∧ t.ctxs[h].resv = s.ctxs[h].resv - 1 ∧
      t.ctxs[h].latched = some { profile := s.kept.profileOf (o.passRec p),
                                 drainPos := s.kept.kettle.clearance - (o.passRec p).drop,
                                 overrun := s.kept.cycle.overrun } ∧
      t.ctxs[h].flags.massDisagree = (o.mass != 0 && (decide (12 * (o.mass : Int) < 10 * w) ||
        decide (10 * w < 8 * (o.mass : Int)))) ∧
      (∃ e, t.kept.journal = s.kept.journal ++ [e] ∧ e.seq = s.kept.nextSeq ∧ e.kind = .pickup ∧ e.final = false ∧
        e.amount = 0 ∧ e.orderTag = some o.tag ∧ e.hoist = some h ∧ e.pass = some p ∧ e.weighIn = some w ∧
        e.weighOut = none ∧ e.surface = none ∧ e.flags = t.ctxs[h].flags) ∧
      t.kept.inventory = s.kept.inventory ∧
      t.drives[h].motion = some ⟨.move (o.passRec p).target, (s.kept.profileOf (o.passRec p)).entrySpeed⟩ ∧
      t.drives[h].brakeRel = true ∧ t.drives[h].count = s.drives[h].count ∧
      ∀ i : Hoist, i ≠ h → t.ctxs[i] = s.ctxs[i] ∧ t.drives[i] = s.drives[i]

/-- A weigh-out of OK finalises the PICKUP entry of the pass with weigh-in less weigh-out, which moves the inventory,
and closes a one-pass order DONE (R35, R36, R61, R70). An UNSTABLE one raises WEIGH_UNSTABLE and finalises the entry
UNWEIGHED with amount 0. After either, pass 1 of a two-pass order goes on to REHANG with its reservation kept, and any
other closes, ABORTED with its reason where close pending is yes. An UNSTABLE weigh-in raises WEIGH_UNSTABLE and closes the
order ABORTED with nothing booked (R31). The fault is one that reaches no dip context. Results in transit are log
entry 10. -/
def Obligations.WeighOutBooks : Prop :=
  (∀ (s : State) (h : Hoist) (o : Order) (w i : Int) (n : Nat) (d : Option Nat) (rest : List WeighAnswer)
    (pre post : List Entry) (e : Entry),
    s.ready → s.noneQueued → s.mail[h].results = ⟨o.tag, .one, some w, n, d⟩ :: rest → s.ctxs[h].state = .weighOut →
    s.ctxs[h].asked = .placed → s.ctxs[h].order = some ⟨o.slot, o.tag⟩ → s.ctxs[h].pass = some .one →
    s.orderOf h = some o → o.pass2 = none → o.closePending = false → s.ctxs[h].weighIn = some i →
    s.ctxs[h].entrySeq = some e.seq → s.kept.journal = pre ++ e :: post → (∀ x ∈ pre, x.seq ≠ e.seq) →
    e.kind = .pickup → e.final = false → e.amount = 0 → e.weighIn = some i →
    ∃ t, exec (.weighResult h) s = .next t ∧
      t.kept = { s.kept with journal := t.kept.journal, inventory := s.kept.inventory + (i - w),
                             totals := t.kept.totals } ∧
      t.kept.journal = pre ++ { e with final := true, finalised := some s.kept.runtime, weighOut := some w,
                                       immersion := some s.ctxs[h].clock.tenths, amount := i - w,
                                       flags := { s.ctxs[h].flags with
                                         negative := s.ctxs[h].flags.negative || decide (w < i) } } :: post ∧
      t.ctxs[h] = { DipCtx.parked with runEnable := s.ctxs[h].runEnable, last := some ⟨o.tag, .done, none⟩ } ∧
      t.orders = s.orders.filter (fun x => x.slot != o.slot) ∧
      ∀ j : Hoist, j ≠ h → t.ctxs[j] = s.ctxs[j] ∧ t.drives[j] = s.drives[j]) ∧
  ∀ (s : State) (h : Hoist) (o : Order) (p : Pass) (v : Option Int) (n : Nat) (d : Option Nat) (rest : List WeighAnswer),
    s.ready → s.noneQueued → s.mail[h].results = ⟨o.tag, p, v, n, d⟩ :: rest → s.ctxs[h].asked = .placed →
    s.ctxs[h].order = some ⟨o.slot, o.tag⟩ → s.ctxs[h].pass = some p → s.orderOf h = some o →
    (v = none → s.installed h = true ∧ s.latchesAlone .weighUnstable) →
    (s.ctxs[h].state = .weighIn → v = none → ∃ t, exec (.weighResult h) s = .next t ∧
      t.ctxs[h] = { DipCtx.parked with
        runEnable := s.ctxs[h].runEnable, last := some ⟨o.tag, .aborted, some .weighInFailed⟩ } ∧
      t.orders = s.orders.filter (fun x => x.slot != o.slot) ∧ t.reserved = s.reserved - s.ctxs[h].resv ∧
      t.kept = s.kept ∧ t.latchedOnce .weighUnstable (some h) ∧
      ((∀ c ∈ s.waits, c.hoist ≠ h) → ∀ z : Fin 12, t.holders[z] ≠ some h) ∧
      ∀ i : Hoist, i ≠ h → t.ctxs[i] = s.ctxs[i] ∧ t.drives[i] = s.drives[i]) ∧
    ∀ (i amount : Int) (f : EntryFlags) (pre post : List Entry) (e : Entry), s.ctxs[h].state = .weighOut →
      s.ctxs[h].weighIn = some i → s.ctxs[h].entrySeq = some e.seq → s.kept.journal = pre ++ e :: post →
      (∀ x ∈ pre, x.seq ≠ e.seq) → e.kind = .pickup → e.final = false → e.amount = 0 → e.weighIn = some i →
      amount = (match v with
        | some w => i - w
        | none => 0) →
      f = { s.ctxs[h].flags with
        negative := s.ctxs[h].flags.negative || (v.map fun w => decide (w < i)).getD false,
        unweighed := s.ctxs[h].flags.unweighed || v.isNone } →
      ∃ t, exec (.weighResult h) s = .next t ∧
        t.kept = { s.kept with journal := t.kept.journal, inventory := s.kept.inventory + amount,
                               totals := t.kept.totals } ∧
        t.kept.journal = pre ++ { e with final := true, finalised := some s.kept.runtime, weighOut := v,
                                         immersion := some s.ctxs[h].clock.tenths, amount := amount,
                                         flags := f } :: post ∧
        (v = none → t.latchedOnce .weighUnstable (some h)) ∧ t.reserved = s.reserved ∧ t.holders = s.holders ∧
        (p = .one → o.pass2.isSome = true → o.closePending = false →
          t.ctxs[h] = { s.ctxs[h] with
            state := .rehang, latched := none, weighIn := none, entrySeq := none, rehangKept := false, asked := .none,
            flags := f, starved := false } ∧
          t.orders = s.orders.map (fun x => if x.slot = o.slot then { x with state := .rehang } else x) ∧
          (s.bench = false → t.drives[h] = { s.drives[h] with permit := true })) ∧
        (p = .two ∨ o.pass2 = none ∨ o.closePending = true →
          t.ctxs[h] = { DipCtx.parked with
            runEnable := s.ctxs[h].runEnable,
            last := some (if o.closePending then ⟨o.tag, .aborted, s.ctxs[h].closeReason⟩ else ⟨o.tag, .done, none⟩) } ∧
          t.orders = s.orders.filter (fun x => x.slot != o.slot)) ∧
        ∀ j : Hoist, j ≠ h → t.ctxs[j] = s.ctxs[j] ∧ t.drives[j] = s.drives[j]

/-! ### The Level Unit -/

/-- A capture at its arrival: discarded while frozen, CAPTURE_MISSED with the FIFO full while the dip context still
runs that pass (log entry 31), else stored with its displaced mark by the hoist view (R127, R128). A state report of a
dip context becomes the Level Unit's view of it (R129). Messages in transit are log entry 10. -/
def Obligations.CaptureAndViewArrive : Prop :=
  (∀ (s : State) (h : Hoist) (c : Capture) (ms : List LevelMsg), s.ready → s.mail[h].level = .capture c :: ms →
    c.hoist = h → ∃ t, exec (.captureArrival h) s = .next t ∧
      t = { s with mail := t.mail, lu := t.lu, ctxs := t.ctxs, link := t.link } ∧
      t.mail[h] = { s.mail[h] with level := ms } ∧
      (s.lu.frozen = true → t.lu = s.lu ∧ t.ctxs = s.ctxs) ∧
      (s.lu.frozen = false → 4 ≤ s.lu.fifos[h].length → t.lu = s.lu ∧
        (s.ctxs[h].order.map OrderRef.tag = some c.tag → s.ctxs[h].pass = some c.pass →
          t.ctxs[h] = { s.ctxs[h] with flags := { s.ctxs[h].flags with captureMissed := true } })) ∧
      (s.lu.frozen = false → s.lu.fifos[h].length < 4 → t.ctxs = s.ctxs ∧
        t.lu = { s.lu with fifos := t.lu.fifos } ∧
        t.lu.fifos[h] = s.lu.fifos[h] ++ [{ c with
          displaced := hoists.any fun x => x != h && s.lu.views[x].loadInZinc }] ∧
        ∀ i : Hoist, i ≠ h → t.lu.fifos[i] = s.lu.fifos[i])) ∧
  ∀ (s : State) (h : Hoist) (v : HoistView) (ms : List LevelMsg), s.ready → s.mail[h].level = .view v :: ms →
    ∃ t, exec (.hoistViewReport h) s = .next t ∧ t = { s with mail := t.mail, lu := t.lu, link := t.link } ∧
      t.mail[h] = { s.mail[h] with level := ms } ∧ t.lu = { s.lu with views := t.lu.views } ∧ t.lu.views[h] = v ∧
      ∀ i : Hoist, i ≠ h → t.lu.views[i] = s.lu.views[i] ∧ t.mail[i] = s.mail[i]

/-- One capture alone in the FIFOs is processed while the kettle is quiet: a displaced or aged one changes no
estimate; an accepted one within the mismatch band, auto-feed off, joins the ring, which keeps the newest four (R130
to R133). An estimate beyond the band raises LEVEL_MISMATCH, here one that reaches no dip context; an estimate below the
threshold asks for a feed of the ingots missing where the line is free, the book open and an entry free (R133, R134). When
the row acts is log entry 32, the rounding of the prediction log entry 50, the request in transit log entry 10. -/
def Obligations.CaptureProcessed : Prop :=
  (∀ (s : State) (h : Hoist) (c : Capture), s.ready → s.quiet = true → s.lu.fifos[h] = [c] →
    (∀ i : Hoist, i ≠ h → s.lu.fifos[i] = []) →
    (c.displaced = true → ∃ t, exec .captureProcessStep s = .next t ∧ t = { s with lu := t.lu, link := t.link } ∧
      t.lu.fifos[h] = [] ∧ t.lu.ring = s.lu.ring ∧
      t.lu.lastProcessed = some ⟨c.hoist, c.tag, c.pass, c.time, .displaced⟩) ∧
    (c.displaced = false → 10 * s.kept.level.ageLimit < s.tenthsCount - c.time →
      ∃ t, exec .captureProcessStep s = .next t ∧ t = { s with lu := t.lu, link := t.link } ∧
      t.lu.fifos[h] = [] ∧ t.lu.ring = s.lu.ring ∧
      t.lu.lastProcessed = some ⟨c.hoist, c.tag, c.pass, c.time, .aged⟩) ∧
    (c.displaced = false → s.tenthsCount - c.time ≤ 10 * s.kept.level.ageLimit → s.kept.feed.auto = false →
      ∀ est : Nat, est = (2 * (ringAdd s.lu.ring c.depth).sum + (ringAdd s.lu.ring c.depth).length) /
          (2 * (ringAdd s.lu.ring c.depth).length) →
        ((est : Int) - s.predicted).natAbs ≤ s.kept.level.band →
        ∃ t, exec .captureProcessStep s = .next t ∧ t = { s with lu := t.lu, link := t.link } ∧
          t.lu.fifos[h] = [] ∧ t.lu.ring = (if 4 ≤ s.lu.ring.length then s.lu.ring.drop 1 else s.lu.ring) ++ [c.depth] ∧
          t.lu.lastCheck = some (s.predicted, (est : Int) - s.predicted) ∧
          t.lu.lastProcessed = some ⟨c.hoist, c.tag, c.pass, c.time, .accepted⟩)) ∧
  ∀ (s : State) (h : Hoist) (c : Capture) (ring : List Nat) (est : Nat) (asks : Bool), s.ready → s.quiet = true →
    s.lu.fifos[h] = [c] → (∀ i : Hoist, i ≠ h → s.lu.fifos[i] = []) → c.displaced = false →
    s.tenthsCount - c.time ≤ 10 * s.kept.level.ageLimit →
    ring = (if 4 ≤ s.lu.ring.length then s.lu.ring.drop 1 else s.lu.ring) ++ [c.depth] →
    est = (2 * ring.sum + ring.length) / (2 * ring.length) →
    asks = (s.kept.feed.auto && decide (s.kept.feed.numbers.threshold < est) && decide (s.feeder.state = .idle) &&
      s.feeder.relay.isNone && s.autoRequests.isEmpty && s.kept.bookOpen &&
      decide (s.kept.journal.length + s.reserved < 256)) →
    (s.kept.level.band < ((est : Int) - s.predicted).natAbs → s.latchesAlone .levelMismatch) →
    ∃ t, exec .captureProcessStep s = .next t ∧
      t = { s with lu := t.lu, autoRequests := t.autoRequests, entries := t.entries, beaconT := t.beaconT,
                   link := t.link } ∧
      t.lu = { s.lu with
        fifos := s.lu.fifos.set h [], ring := ring, lastCheck := some (s.predicted, (est : Int) - s.predicted),
        lastProcessed := some ⟨c.hoist, c.tag, c.pass, c.time, .accepted⟩, lastAuto := t.lu.lastAuto } ∧
      (s.kept.level.band < ((est : Int) - s.predicted).natAbs → t.latchedOnce .levelMismatch none) ∧
      (((est : Int) - s.predicted).natAbs ≤ s.kept.level.band → t.entries = s.entries ∧ t.beaconT = s.beaconT) ∧
      (asks = false → t.autoRequests = s.autoRequests ∧ t.lu.lastAuto = s.lu.lastAuto) ∧
      ∀ count : Nat, asks = true → count = max 1 (min s.kept.feed.numbers.maximum
          (((est - s.kept.feed.numbers.target) * s.kept.level.coefficient + s.kept.feed.numbers.ingotMass - 1) /
            s.kept.feed.numbers.ingotMass)) →
        t.autoRequests = [count] ∧ t.lu.lastAuto = some (count, s.kept.runtime)

/-! ### The Hoist Drive Interfaces -/

/-- Bench mode: entered with the strap set, every dip context PARKED and no feed in flight, with every output low; refused
NOT_PERMITTED otherwise (R152); BENCH_NOTICES marks every enabled class, in bench mode only (R154). BENCH_EXIT: refused
outside bench mode; else every burst ends REPLACED, the stations that were stepped lose their position, the outputs
return to those of PARKED, and bench mode is off (R155). -/
def Obligations.BenchEnteredAndLeft : Prop :=
  (∀ (s : State) (tag : Nat), s.listening →
    (s.bench = true → exec (.benchEnter tag) s = .next (s.replied .benchEnter tag .ok)) ∧
    (s.bench = false → s.link.straps.benchPermit = false ∨ (∃ h : Hoist, s.ctxs[h].state ≠ .parked) ∨
        s.feeder.state = .requested ∨ s.feeder.state = .feeding →
      exec (.benchEnter tag) s = .next (s.replied .benchEnter tag .notPermitted)) ∧
    (s.bench = false → s.link.straps.benchPermit = true → (∀ h : Hoist, s.ctxs[h].state = .parked) →
        s.feeder.state = .idle ∨ s.feeder.state = .settle → ∃ t, exec (.benchEnter tag) s = .next t ∧
      t = { s with bench := true, benchBeacon := false, drives := t.drives, link := t.link } ∧
      Replies s t .benchEnter tag .ok ∧
      ∀ h : Hoist, t.drives[h] = { s.drives[h] with
        step := false, dir := false, brakeRel := false, permit := false, burst := none, benchStepped := false,
        lastBurst := none }) ∧
    (s.bench = false → exec (.benchNotices tag) s = .next (s.replied .benchNotices tag .notPermitted)) ∧
    (s.bench = true → ∃ t, exec (.benchNotices tag) s = .next t ∧ t = { s with link := t.link } ∧
      Replies s t .benchNotices tag .ok ∧
      ∀ c : NoticeClass, t.link.marks[c.ix] = (s.link.marks[c.ix] || s.kept.notices[c.ix]))) ∧
  ∀ (s : State) (tag : Nat), s.listening →
    (s.bench = false → exec (.benchExit tag) s = .next (s.replied .benchExit tag .wrongState)) ∧
    (s.bench = true → s.noneQueued → ∃ t, exec (.benchExit tag) s = .next t ∧
      t = { s with bench := false, drives := t.drives, link := t.link } ∧
      (∃ set, Replies s t .benchExit tag .ok [fN 1 set]) ∧
      ∀ h : Hoist, t.drives[h].known = (s.drives[h].known && !s.drives[h].benchStepped) ∧ t.drives[h].burst = none ∧
        t.drives[h].brakeRel = false ∧ t.drives[h].step = false ∧ t.drives[h].dir = s.drives[h].dir ∧
        t.drives[h].count = s.drives[h].count ∧
        t.drives[h].permit = decide (h.val ≤ s.link.straps.hoists.val) ∧
        ∀ b, s.drives[h].burst = some b → t.drives[h].lastBurst = some (.replaced, b.issued))

/-- BENCH_DRIVE: judged in the order of R153; a request that passes sets the levels and starts a burst, or sets the
levels alone, and carries the outcome of the burst before. The layout of the outcome is log entry 20; that a level byte of
01h is high is the model's choice, log entry 79. -/
def Obligations.BenchDriven : Prop :=
  ∀ (s : State) (tag : Nat) (f : BenchFields), s.listening →
    (s.bench = false → exec (.benchDrive tag f) s = .next (s.replied .benchDrive tag .notPermitted)) ∧
    (s.bench = true → s.hoist? f.hoist = none →
      exec (.benchDrive tag f) s = .next (s.replied .benchDrive tag .notInstalled)) ∧
    ∀ h : Hoist, s.bench = true → s.hoist? f.hoist = some h →
      (f.ok = false → exec (.benchDrive tag f) s = .next (s.replied .benchDrive tag .badValue)) ∧
      (f.ok = true → s.driveClear h → s.drives[h].burst = none → ∃ t, exec (.benchDrive tag f) s = .next t ∧
        t = { s with drives := t.drives, benchBeacon := decide (f.beacon = 1), link := t.link } ∧
        Replies s t .benchDrive tag .ok s.drives[h].burstFields ∧
        t.drives[h] = { s.drives[h] with
          dir := decide (f.dir = 1), brakeRel := decide (f.brake = 1), permit := decide (f.permit = 1),
          burst := if f.steps = 0 then none else some { left := f.steps, rate := f.rate, issued := 0 },
          benchStepped := s.drives[h].benchStepped || f.steps != 0 } ∧
        ∀ i : Hoist, i ≠ h → t.drives[i] = s.drives[i])

/-- A STEP pulse of a MOVE goes out only with READY present and BRAKE_REL set in a state of R143; it moves the count
by one in the direction of DIR, and the motion that reaches its target ends with the brake on and its report made; in
RECAL only the travel count rises (R143, R144, R148). The ready-wait timer at zero: a motion fails READY_TIMEOUT with
the brake on, the position kept and DRIVE_FAULT latched for the hoist, with a reaction that reaches no dip context or
is still in its alarm delay; a bench burst ends READY_TIMEOUT (R145, R153). Reports in transit are log entry 10, the
expiry whenever its timer is present log entry 2. -/
def Obligations.PulsesAndReadyTimeout : Prop :=
  (∀ (s : State) (h : Hoist) (m : Motion), s.ready → s.drives[h].motion = some m → s.stationClear h →
    (s.inputs[h].ready = false ∨ s.drives[h].brakeRel = false ∨ s.ctxs[h].state.steps = false →
      ∃ t, exec (.stepPulse h) s = .next t ∧ t = { s with link := t.link }) ∧
    (s.inputs[h].ready = true → s.drives[h].brakeRel = true → s.ctxs[h].state.steps = true →
      (∀ target count : Nat, m.kind = .move target →
        count = (if s.drives[h].dir then s.drives[h].count - 1 else min 8000 (s.drives[h].count + 1)) →
        (count ≠ target → ∃ t, exec (.stepPulse h) s = .next t ∧ t = { s with drives := t.drives, link := t.link } ∧
          t.drives[h] = { s.drives[h] with count := count } ∧ ∀ i : Hoist, i ≠ h → t.drives[i] = s.drives[i]) ∧
        (count = target → ∃ t, exec (.stepPulse h) s = .next t ∧
          t = { s with drives := t.drives, mail := t.mail, entries := t.entries, link := t.link } ∧
          t.drives[h] = { s.drives[h] with count := count, motion := none, readyT := none, brakeRel := false } ∧
          t.mail[h] = { s.mail[h] with motions := s.mail[h].motions ++ [⟨.move, none⟩] } ∧
          ∀ i : Hoist, i ≠ h → t.drives[i] = s.drives[i] ∧ t.mail[i] = s.mail[i])) ∧
      ∀ limit : Nat, m.kind = .recal limit → s.drives[h].travel + 1 < limit →
        ∃ t, exec (.stepPulse h) s = .next t ∧ t = { s with drives := t.drives, link := t.link } ∧
          t.drives[h] = { s.drives[h] with travel := s.drives[h].travel + 1 })) ∧
  ∀ (s : State) (h : Hoist), s.ready → s.drives[h].readyT.isSome = true →
    (∀ m, s.drives[h].motion = some m → s.stationClear h → s.installed h = true →
      s.entries[FaultKind.driveFault.ix].state = .clear → (s.reactionOf .driveFault).code ≤ 2 ∨
        s.kept.faults[FaultKind.driveFault.ix].delay ≠ 0 →
      ∃ t, exec (.readyTimeout h) s = .next t ∧
        t = { s with drives := t.drives, mail := t.mail, entries := t.entries, beaconT := t.beaconT, link := t.link } ∧
        t.drives[h] = { s.drives[h] with motion := none, readyT := none, brakeRel := false } ∧
        t.mail[h] = { s.mail[h] with motions := s.mail[h].motions ++ [⟨m.kind.moved, some .readyTimeout⟩] } ∧
        t.entries[FaultKind.driveFault.ix].state ≠ .clear ∧
        t.entries[FaultKind.driveFault.ix].involved[h] = true ∧ t.entries[FaultKind.driveFault.ix].count = some 1) ∧
    ∀ b, s.drives[h].motion = none → s.drives[h].burst = some b → ∃ t, exec (.readyTimeout h) s = .next t ∧
      t = { s with drives := t.drives, link := t.link } ∧
      t.drives[h] = { s.drives[h] with burst := none, readyT := none, lastBurst := some (.readyTimeout, b.issued) }

/-- A change of READY, DRIVE_FAULT or TOP in the drives: the loss of READY loads the ready-wait timer and its return
stops it; TOP ends a RECAL with the count 0 and known; TOP at 20 mm or less ends an upward MOVE reached and an up stroke of
a SHAKE, whose next cycle starts at once, and has no effect on a downward one; above 20 mm it fails the motion
POSITION_ERROR with the count 0 and known; DRIVE_FAULT fails a motion with the position unknown. A failure is latched for
the hoist, with a reaction that reaches no dip context or is still in its alarm delay; without a motion or burst none of
them moves a drive (R145, R146, R147, R148, R149). Reports in transit are log entry 10; that a running ready-wait timer
stays as it stands at a new stroke is log entry 57. -/
def Obligations.DriveInputsActed : Prop :=
  ∀ (s : State) (h : Hoist), s.ready →
    (∀ m, s.drives[h].motion = some m → s.inputs[h].ready = true → ∃ t, exec (.readyChange h false) s = .next t ∧
      t = { s with inputs := t.inputs, drives := t.drives, link := t.link } ∧
      t.drives[h] = { s.drives[h] with readyT := some s.kept.drive.readyTimeout } ∧ t.inputs[h].ready = false) ∧
    (∀ m, s.drives[h].motion = some m → s.inputs[h].ready = false → ∃ t, exec (.readyChange h true) s = .next t ∧
      t = { s with inputs := t.inputs, drives := t.drives, link := t.link } ∧
      t.drives[h] = { s.drives[h] with readyT := none } ∧ t.inputs[h].ready = true) ∧
    (∀ limit rate, s.drives[h].motion = some ⟨.recal limit, rate⟩ → s.inputs[h].top = false → s.stationClear h →
      ∃ t, exec (.topChange h true) s = .next t ∧
        t = { s with inputs := t.inputs, drives := t.drives, mail := t.mail, entries := t.entries, link := t.link } ∧
        t.drives[h] = { s.drives[h] with count := 0, known := true, motion := none, readyT := none, brakeRel := false } ∧
        t.mail[h] = { s.mail[h] with motions := s.mail[h].motions ++ [⟨.recal, none⟩] } ∧ t.inputs[h].top = true) ∧
    (s.inputs[h].top = false → s.stationClear h →
      (∀ target rate, s.drives[h].motion = some ⟨.move target, rate⟩ → s.drives[h].count ≤ 20 →
        s.drives[h].dir = true → ∃ t, exec (.topChange h true) s = .next t ∧
          t = { s with inputs := t.inputs, drives := t.drives, mail := t.mail, entries := t.entries, link := t.link } ∧
          t.drives[h] = { s.drives[h] with count := 0, motion := none, readyT := none, brakeRel := false } ∧
          t.mail[h] = { s.mail[h] with motions := s.mail[h].motions ++ [⟨.move, none⟩] }) ∧
      (∀ left amplitude target rate, s.drives[h].motion = some ⟨.shake left amplitude false target, rate⟩ →
        s.drives[h].count ≤ 20 →
        (left ≤ 1 → ∃ t, exec (.topChange h true) s = .next t ∧
          t = { s with inputs := t.inputs, drives := t.drives, mail := t.mail, entries := t.entries, link := t.link } ∧
          t.drives[h] = { s.drives[h] with count := 0, motion := none, readyT := none, brakeRel := false } ∧
          t.mail[h] = { s.mail[h] with motions := s.mail[h].motions ++ [⟨.shake, none⟩] }) ∧
        (1 < left → ∃ t, exec (.topChange h true) s = .next t ∧
          t = { s with inputs := t.inputs, drives := t.drives, link := t.link } ∧
          t.drives[h] = { s.drives[h] with
            count := 0, dir := false,
            motion := some ⟨.shake (left - 1) amplitude true (min 8000 amplitude), rate⟩ })) ∧
      ((∃ target rate, s.drives[h].motion = some ⟨.move target, rate⟩ ∧ s.drives[h].dir = false) ∨
          (∃ left amplitude target rate, s.drives[h].motion = some ⟨.shake left amplitude true target, rate⟩) →
        s.drives[h].count ≤ 20 → ∃ t, exec (.topChange h true) s = .next t ∧
          t = { s with inputs := t.inputs, link := t.link } ∧ t.inputs[h].top = true) ∧
      ∀ m, s.drives[h].motion = some m → (∀ limit, m.kind ≠ .recal limit) → 20 < s.drives[h].count →
        s.installed h = true → s.entries[FaultKind.positionError.ix].state = .clear →
        (s.reactionOf .positionError).code ≤ 2 ∨ s.kept.faults[FaultKind.positionError.ix].delay ≠ 0 →
        ∃ t, exec (.topChange h true) s = .next t ∧
          t.drives[h] = { s.drives[h] with count := 0, known := true, motion := none, readyT := none, brakeRel := false } ∧
          t.mail[h] = { s.mail[h] with motions := s.mail[h].motions ++ [⟨m.kind.moved, some .positionError⟩] } ∧
          t.entries[FaultKind.positionError.ix].state ≠ .clear ∧
          t.entries[FaultKind.positionError.ix].involved[h] = true ∧ t.ctxs = s.ctxs ∧ t.kept = s.kept) ∧
    (∀ m, s.drives[h].motion = some m → s.inputs[h].driveFault = false → s.stationClear h → s.installed h = true →
      s.entries[FaultKind.driveFault.ix].state = .clear → (s.reactionOf .driveFault).code ≤ 2 ∨
        s.kept.faults[FaultKind.driveFault.ix].delay ≠ 0 → ∃ t, exec (.driveFaultChange h true) s = .next t ∧
        t.drives[h] = { s.drives[h] with known := false, motion := none, readyT := none, brakeRel := false } ∧
        t.mail[h] = { s.mail[h] with motions := s.mail[h].motions ++ [⟨m.kind.moved, some .driveFault⟩] } ∧
        t.entries[FaultKind.driveFault.ix].state ≠ .clear ∧
        t.entries[FaultKind.driveFault.ix].involved[h] = true ∧ t.ctxs = s.ctxs ∧ t.kept = s.kept) ∧
    (s.drives[h].motion = none → s.drives[h].burst = none →
      (s.inputs[h].ready = false → ∃ t, exec (.readyChange h true) s = .next t ∧
        t = { s with inputs := t.inputs, link := t.link }) ∧
      (s.inputs[h].top = false → ∃ t, exec (.topChange h true) s = .next t ∧
        t = { s with inputs := t.inputs, link := t.link }) ∧
      (s.inputs[h].driveFault = false → ∃ t, exec (.driveFaultChange h true) s = .next t ∧
        t = { s with inputs := t.inputs, entries := t.entries, link := t.link } ∧
        t.entries[FaultKind.driveFault.ix] = { s.entries[FaultKind.driveFault.ix] with
          present := s.entries[FaultKind.driveFault.ix].present.set h true }))

/-- Each change of a plant input, in every state, sets its latch, and marks INPUT where the latch was clear and the class
is enabled, whether the mark waits or its notice begins at once; a level that is already there is no change (R198; log entry 3). ALIGNED
present in ALIGNING brings WEIGH_IN with the align timer discarded, and a REHANG input going present in REHANG begins pass 2
(R28, R37). That pass 2 stands in STAGED with a grant still in transit is log entry 10. ALIGNED lost while the hoist holds
zones in one of the states of R38, and AREA_CLEAR lost while its hook may move, make ALIGN_LOST and AREA_BREACH present:
the occurrence latches a CLEAR entry, or is counted by a latched one, which the hoist joins; the HOLD of an entry it latches
or joins holds this dip context, its ABORT brings the load up, and no other dip context is acted on; the input's return
makes the condition absent and leaves the entry latched (R38, R45, R47, R176, R177, R179, R181). A hook already there is reported at once
(log entry 25); a held-from or return state counts as R38 gives. That the hoist joins the set of an entry that carries
STOP_ALL is the model's choice, log entry 75, since R181 says that a STOP_ALL adds no hoist. -/
def Obligations.InputsLatchedAndActed : Prop :=
  (∀ (s : State) (h : Hoist) (line : InputLine) (b : Bool), s.ready → line.of s.inputs[h] = b →
    ∃ t, exec (line.change h b) s = .next t ∧ t = { s with link := t.link } ∧ t.link.latches = s.link.latches ∧
      t.link.powerLatch = s.link.powerLatch ∧ (s.link.tx.isSome = true → t = s)) ∧
  (∀ s : State, s.ready → ∃ t, exec (.drivePowerChange s.drivePower) s = .next t ∧ t = { s with link := t.link } ∧
    t.link.latches = s.link.latches ∧ t.link.powerLatch = s.link.powerLatch ∧ (s.link.tx.isSome = true → t = s)) ∧
  (∀ (s : State) (h : Hoist) (line : InputLine) (b : Bool), s.ready → line.of s.inputs[h] ≠ b →
    ∃ t, exec (line.change h b) s = .next t ∧ t.inputs = s.inputs.set h (line.put s.inputs[h] b) ∧
      t.link.latches = s.link.latches.set h (line.put s.link.latches[h] true) ∧
      t.link.powerLatch = s.link.powerLatch ∧ InputMarked s t (line.of s.link.latches[h]) ∧
      (s.drives[h].motion = none → s.drives[h].burst = none → s.ctxs[h].state = .parked →
        (∀ z : Fin 12, s.holders[z] ≠ some h) →
        t = { s with inputs := t.inputs, entries := t.entries, link := t.link })) ∧
  (∀ (s : State) (b : Bool), s.ready → s.drivePower ≠ b → ∃ t, exec (.drivePowerChange b) s = .next t ∧
    t.drivePower = b ∧ t.inputs = s.inputs ∧ t.link.powerLatch = true ∧ t.link.latches = s.link.latches ∧
    InputMarked s t s.link.powerLatch ∧
    (b = true → t = { s with drivePower := true, entries := t.entries, link := t.link } ∧
      t.entries[FaultKind.drivePowerLoss.ix] =
        { s.entries[FaultKind.drivePowerLoss.ix] with presentLine := false })) ∧
  (∀ (s : State) (h : Hoist), s.ready →
    (s.ctxs[h].state = .aligning → s.inputs[h].aligned = false → ∃ t, exec (.alignedChange h true) s = .next t ∧
      t.ctxs[h].state = .weighIn ∧ t.ctxs[h].alignT = none ∧ t.inputs[h].aligned = true ∧
      ∀ i : Hoist, i ≠ h → t.ctxs[i] = s.ctxs[i] ∧ t.drives[i] = s.drives[i]) ∧
    ∀ o, s.ctxs[h].state = .rehang → s.inputs[h].rehang = false → s.inhibit = false → s.orderOf h = some o →
      ∃ t, exec (.rehangInputChange h true) s = .next t ∧ t.ctxs[h].state = .staged ∧ t.ctxs[h].pass = some .two ∧
        t.inputs[h].rehang = true ∧ t.reserved = s.reserved ∧
        ∀ i : Hoist, i ≠ h → t.ctxs[i] = s.ctxs[i] ∧ t.drives[i] = s.drives[i]) ∧
  ∀ (s : State) (h : Hoist) (line : InputLine) (k : FaultKind), s.ready → s.installed h = true →
    (line = .aligned ∧ k = .alignLost ∧ s.inputs[h].areaClear = true ∧ (∃ z : Fin 12, s.holders[z] = some h) ∧
        (∃ st ∈ s.ctxs[h].standsIn, st.needsAligned = true)) ∨
      (line = .areaClear ∧ k = .areaBreach ∧ s.inputs[h].aligned = true ∧
        (s.ctxs[h].state.moving = true ∨ (s.ctxs[h].state = .drain ∧ s.drives[h].motion.isSome = true))) →
    (line.of s.inputs[h] = true → s.entries[k.ix].present[h] = false →
      (s.reachesNone k h → ∃ t, exec (line.change h false) s = .next t ∧
        t = { s with inputs := t.inputs, entries := t.entries, beaconT := t.beaconT, link := t.link } ∧
        t.inputs = s.inputs.set h (line.put s.inputs[h] false) ∧ Occurred s t k h ∧
        t.entries[k.ix].present = s.entries[k.ix].present.set h true) ∧
      (s.applies k h → s.reactionOf k = .hold →
        s.ctxs[h].state ≠ .held → s.ctxs[h].state ≠ .parked →
        (∀ l, s.ctxs[h].latched = some l → s.ctxs[h].clock.tenths ≤ l.profile.dwell + l.overrun) →
        ∃ t, exec (line.change h false) s = .next t ∧ Occurred s t k h ∧ t.ctxs[h].state = .held ∧
          t.ctxs[h].heldFrom = some s.ctxs[h].state ∧ t.drives[h].motion = none ∧
          t.drives[h].count = s.drives[h].count ∧ t.kept = s.kept ∧ t.orders = s.orders ∧ t.holders = s.holders ∧
          ∀ i : Hoist, i ≠ h → t.ctxs[i] = s.ctxs[i] ∧ t.drives[i] = s.drives[i]) ∧
      ∀ o l, s.applies k h → s.reactionOf k = .abort →
        s.ctxs[h].state = .lowering ∨ s.ctxs[h].state = .dwell ∨ s.ctxs[h].state = .lifting → s.noneQueued →
        s.orderOf h = some o → o.closePending = false → s.ctxs[h].latched = some l → s.driveClear h →
        s.drives[h].known = true → (∀ r ∈ s.mail[h].motions, r.cause = none) →
        ∃ t, exec (line.change h false) s = .next t ∧ Occurred s t k h ∧ t.ctxs[h].state = .abortLift ∧
          t.ctxs[h].closeReason = some .fault ∧ t.ctxs[h].resv = 0 ∧ t.reserved = s.reserved - s.ctxs[h].resv ∧
          t.ctxs[h].flags.aborted = (s.ctxs[h].flags.aborted || s.ctxs[h].entrySeq.isSome) ∧
          (∃ o', t.orderOf h = some o' ∧ o'.closePending = true ∧ o'.tag = o.tag) ∧
          HookSent s t h l.drainPos s.kept.cycle.abortSpeed (s.drives[h].count ≤ l.drainPos) ∧ t.kept = s.kept ∧
          ∀ i : Hoist, i ≠ h → t.ctxs[i] = s.ctxs[i] ∧ t.drives[i] = s.drives[i]) ∧
    (line.of s.inputs[h] = false → ∃ t, exec (line.change h true) s = .next t ∧
      t = { s with inputs := t.inputs, entries := t.entries, link := t.link } ∧
      t.inputs = s.inputs.set h (line.put s.inputs[h] true) ∧
      t.entries[k.ix] = { s.entries[k.ix] with present := s.entries[k.ix].present.set h false })

/-! ### The dip cycle: reports and timers -/

/-- Motion reports: the target reached in LOWERING brings DWELL with the dwell timer loaded, and without a contact
NO_CONTACT and the clock from zero; the drain position reached in LIFTING brings DRAIN with the clock stopped, the
withdrawal reported and the shake started, or without a shake; in ABORT_LIFT, and at TOP in a RECAL with the load in the
zinc, DRAIN with the abort drain time and no shake. TOP reached in another RECAL brings its return state: PARKED, DRAIN
without a shake and with the abort drain time after an abort, or another as on a resume (log entry 29). The end of a shake
or of a return in DRAIN ends the drain where its timer is at zero; a report found in any other state is discarded (R32,
R33, R34, R35, R45, R47, R49, R50, R157). Reports in transit are log entry 10, their taking by state log entry 24, an upward
MOVE of LOWERING ended by TOP log entry 70 (R147), NO_CONTACT then log entry 28, an abort remembered in RECAL log entry 30,
the return of the hook log entry 42. -/
def Obligations.MotionReachedTaken : Prop :=
  (∀ (s : State) (h : Hoist) (m : Moved) (rest : List MotionReport), s.ready → s.stationClear h →
    s.mail[h].motions = ⟨m, none⟩ :: rest →
    (∀ p l, m = .move → s.ctxs[h].state = .lowering → s.passOf h = some p → s.drives[h].count = p.target →
      s.ctxs[h].latched = some l → ∃ t, exec (.motionReached h) s = .next t ∧
        t = { s with ctxs := t.ctxs, drives := t.drives, mail := t.mail, entries := t.entries, link := t.link } ∧
        t.ctxs[h].state = .dwell ∧ t.ctxs[h].dwellT = some l.profile.dwell ∧
        (s.ctxs[h].contact = false → t.ctxs[h].flags = { s.ctxs[h].flags with noContact := true } ∧
          t.ctxs[h].clock = ⟨.running, 0⟩) ∧
        (s.ctxs[h].contact = true → t.ctxs[h].flags = s.ctxs[h].flags ∧ t.ctxs[h].clock = s.ctxs[h].clock) ∧
        ∀ i : Hoist, i ≠ h → t.ctxs[i] = s.ctxs[i] ∧ t.drives[i] = s.drives[i]) ∧
    (∀ p l, m = .move → s.ctxs[h].state = .lifting → s.passOf h = some p → s.ctxs[h].latched = some l →
      s.drives[h].count ≤ l.drainPos → s.ctxs[h].entered = true → s.ctxs[h].clock.run = .running →
      0 < l.profile.shakes → s.driveClear h → s.drives[h].known = true → ∃ t, exec (.motionReached h) s = .next t ∧
        t.ctxs[h].state = .drain ∧ t.ctxs[h].clock = ⟨.stopped, s.ctxs[h].clock.tenths⟩ ∧
        t.ctxs[h].drainT = some l.profile.drain ∧ t.ctxs[h].shakeDone = false ∧ t.ctxs[h].entered = false ∧
        (∃ down, t.drives[h].motion = some ⟨.shake l.profile.shakes l.profile.amplitude true down,
          s.kept.drive.shakeSpeed⟩) ∧
        t.kept = { s.kept with surfaces := t.kept.surfaces } ∧
        (∀ z : Fin 12, t.kept.surfaces[z] = if p.first ≤ zoneNo z ∧ zoneNo z ≤ p.last
          then ⟨true, min 255 (s.kept.surfaces[z].withdrawals + 1)⟩ else s.kept.surfaces[z]) ∧
        t.holders = s.holders ∧ ∀ i : Hoist, i ≠ h → t.ctxs[i] = s.ctxs[i] ∧ t.drives[i] = s.drives[i]) ∧
    (m = .recal → s.noneQueued → s.ctxs[h].state = .recal → s.ctxs[h].ret = some .parked → s.drives[h].known = true →
      ∃ t, exec (.motionReached h) s = .next t ∧ t.ctxs[h].state = .parked ∧ t.ctxs[h].ret = none ∧
        t.ctxs[h].runEnable = s.ctxs[h].runEnable ∧
        ∀ i : Hoist, i ≠ h → t.ctxs[i] = s.ctxs[i] ∧ t.drives[i] = s.drives[i])) ∧
  (∀ (s : State) (h : Hoist) (m : Moved) (rest : List MotionReport) (st : DipState), s.ready →
    s.mail[h].motions = ⟨m, none⟩ :: rest → s.ctxs[h].state = st →
    (st = .parked ∨ st = .staged ∨ st = .aligning ∨ st = .weighIn ∨ st = .dwell ∨ st = .weighOut ∨ st = .rehang ∨
        st = .held ∨ (m = .move ∧ st = .recal) ∨ (m = .shake ∧ st ≠ .drain) ∨ (m = .recal ∧ st ≠ .recal) →
      ∃ t, exec (.motionReached h) s = .next t ∧ t = { s with mail := t.mail, link := t.link } ∧
        t.mail = s.mail.set h { s.mail[h] with motions := rest })) ∧
  (∀ (s : State) (h : Hoist) (rest : List MotionReport) (p : PassRec) (l : Latched) (c : DipCtx), s.ready →
    s.stationClear h → s.mail[h].motions = ⟨.move, none⟩ :: rest → s.passOf h = some p → s.ctxs[h].latched = some l →
    (s.ctxs[h].state = .lifting ∧ s.drives[h].count ≤ l.drainPos ∧ c = s.ctxs[h]) ∨
      (s.ctxs[h].state = .lowering ∧ s.drives[h].count = 0 ∧ p.target ≠ 0 ∧ s.drives[h].motion = none ∧
        (∀ r ∈ rest, r.cause = none) ∧ c = { s.ctxs[h] with flags := { s.ctxs[h].flags with
          noContact := s.ctxs[h].flags.noContact || !s.ctxs[h].contact } }) →
    (l.profile.shakes = 0 → ∃ t, exec (.motionReached h) s = .next t ∧ DrainBegun s t h p c l.profile.drain) ∧
    (0 < l.profile.shakes → s.driveClear h → s.drives[h].known = true → ∃ t, exec (.motionReached h) s = .next t ∧
      ShakeBegun s t h p c l)) ∧
  (∀ (s : State) (h : Hoist) (m : Moved) (rest : List MotionReport) (p : PassRec), s.ready → s.stationClear h →
    s.mail[h].motions = ⟨m, none⟩ :: rest → s.passOf h = some p →
    (∃ l, m = .move ∧ s.ctxs[h].state = .abortLift ∧ s.ctxs[h].latched = some l ∧ s.drives[h].count ≤ l.drainPos) ∨
      (m = .recal ∧ s.ctxs[h].state = .recal ∧ s.ctxs[h].ret = none ∧ s.drives[h].known = true) →
    ∃ t, exec (.motionReached h) s = .next t ∧ DrainBegun s t h p s.ctxs[h] s.kept.cycle.abortDrain) ∧
  (∀ (s : State) (h : Hoist) (m : Moved) (rest : List MotionReport) (c : DipCtx), s.ready → s.stationClear h →
    s.mail[h].motions = ⟨m, none⟩ :: rest →
    (m = .shake ∧ s.ctxs[h].state = .drain ∧ c = { s.ctxs[h] with shakeDone := true }) ∨
      (m = .move ∧ s.ctxs[h].state = .drain ∧ s.drives[h].motion = none ∧
        c = { s.ctxs[h] with returning := false }) ∨
      (m = .recal ∧ s.ctxs[h].state = .recal ∧ s.ctxs[h].ret = some .drain ∧ s.drives[h].known = true ∧
        c = { s.ctxs[h] with
          state := .drain, ret := none, shakeDone := true, returning := false, recalAbort := false, starved := false,
          drainT := if s.ctxs[h].recalAbort then some s.kept.cycle.abortDrain else s.ctxs[h].drainT,
          drainExpired := s.ctxs[h].drainExpired && !s.ctxs[h].recalAbort }) →
    (c.shakeDone = true → c.returning = false → c.drainT = some 0 ∨ c.drainExpired = true →
      ∃ t, exec (.motionReached h) s = .next t ∧ t.kept = s.kept ∧ DrainEnded s t h c) ∧
    (c.shakeDone = false ∨ c.returning = true ∨ (c.drainT ≠ some 0 ∧ c.drainExpired = false) →
      ∃ t, exec (.motionReached h) s = .next t ∧
        t = { s with ctxs := s.ctxs.set h c, drives := t.drives, mail := t.mail, entries := t.entries, link := t.link } ∧
        ∀ i : Hoist, i ≠ h → t.drives[i] = s.drives[i])) ∧
  ∀ (s : State) (h : Hoist) (rest : List MotionReport) (st : DipState) (c : DipCtx), s.ready →
    s.mail[h].motions = ⟨.recal, none⟩ :: rest → s.ctxs[h].state = .recal → s.ctxs[h].ret = some st →
    s.drives[h].known = true →
    c = { s.ctxs[h] with state := st, heldFrom := none, ret := none, starved := false } →
    (st = .staged ∨ (st = .aligning ∧ s.inputs[h].aligned = false) ∨
        (st = .rehang ∧ (s.ctxs[h].rehangKept = false ∨ s.inhibit = true)) →
      ∃ t, exec (.motionReached h) s = .next t ∧
        t = { s with ctxs := s.ctxs.set h c, drives := t.drives, mail := t.mail, entries := t.entries, link := t.link } ∧
        (s.bench = false → t.drives[h].permit = decide (st ≠ .staged)) ∧
        ∀ i : Hoist, i ≠ h → t.drives[i] = s.drives[i]) ∧
    ((st = .aligning ∧ s.inputs[h].aligned = true) ∨ ((st = .weighIn ∨ st = .weighOut) ∧ s.stationClear h) →
      ∃ t, exec (.motionReached h) s = .next t ∧
        t = { s with ctxs := t.ctxs, drives := t.drives, wu := t.wu, mail := t.mail, entries := t.entries,
                     link := t.link } ∧
        t.ctxs[h] = { c with
          state := if st = .weighOut then .weighOut else .weighIn, asked := t.ctxs[h].asked,
          alignT := if st = .aligning then none else s.ctxs[h].alignT } ∧
        WeighAsked s t h ∧ (s.bench = false → t.drives[h].permit = false) ∧
        ∀ i : Hoist, i ≠ h → t.ctxs[i] = s.ctxs[i] ∧ t.drives[i] = s.drives[i]) ∧
    ∀ o, st = .rehang → s.ctxs[h].rehangKept = true → s.inhibit = false → s.orderOf h = some o →
      ∃ t, exec (.motionReached h) s = .next t ∧ t.ctxs[h].state = .staged ∧ t.ctxs[h].pass = some .two ∧
        t.ctxs[h].resv = s.ctxs[h].resv ∧ t.reserved = s.reserved ∧
        ClaimArrives s t { hoist := h, tag := o.tag, pass := .two, first := (o.passRec .two).first,
                           last := (o.passRec .two).last, clean := (s.kept.profileOf (o.passRec .two)).clean,
                           arrival := s.kept.runtime, alerted := false, serial := s.nextSerial } ∧
        ∀ i : Hoist, i ≠ h → t.ctxs[i] = s.ctxs[i] ∧ t.drives[i] = s.drives[i]

/-- The dwell timer at zero: in DWELL the hook is lifted to the drain position at the withdrawal speed; in HELD the
timer stands at zero until the resume (R33, R42). The drain timer at zero: with the shake done and the hook at its
place the zones are released and WEIGH_OUT begins with its weigh request; with the shake going on DRAIN goes on (R35).
That an expiry acts whenever its timer is present is log entry 2. -/
def Obligations.DipTimersExpire : Prop :=
  (∀ (s : State) (h : Hoist) (l : Latched), s.ready → s.ctxs[h].dwellT.isSome = true → s.ctxs[h].latched = some l →
    (s.ctxs[h].state = .dwell → s.stationClear h → s.driveClear h → s.drives[h].known = true →
      l.drainPos < s.drives[h].count → ∃ t, exec (.dwellTimerExpiry h) s = .next t ∧
        t = { s with ctxs := t.ctxs, drives := t.drives, mail := t.mail, entries := t.entries, link := t.link } ∧
        t.ctxs[h].state = .lifting ∧ t.ctxs[h].dwellT = none ∧ t.ctxs[h].clock = s.ctxs[h].clock ∧
        t.drives[h].motion = some ⟨.move l.drainPos, l.profile.withdrawal⟩ ∧ t.drives[h].dir = true ∧
        t.drives[h].brakeRel = true ∧ t.drives[h].count = s.drives[h].count ∧
        ∀ i : Hoist, i ≠ h → t.ctxs[i] = s.ctxs[i] ∧ t.drives[i] = s.drives[i]) ∧
    (s.ctxs[h].state = .held → ∃ t, exec (.dwellTimerExpiry h) s = .next t ∧ t = { s with ctxs := t.ctxs, link := t.link } ∧
      t.ctxs[h] = { s.ctxs[h] with dwellT := some 0 } ∧ ∀ i : Hoist, i ≠ h → t.ctxs[i] = s.ctxs[i])) ∧
  ∀ (s : State) (h : Hoist), s.ready → s.ctxs[h].drainT.isSome = true → s.ctxs[h].state = .drain →
    s.ctxs[h].returning = false → s.stationClear h →
    (s.ctxs[h].shakeDone = false → ∃ t, exec (.drainTimerExpiry h) s = .next t ∧
      t = { s with ctxs := t.ctxs, link := t.link } ∧ t.ctxs[h] = { s.ctxs[h] with drainT := some 0 }) ∧
    (s.ctxs[h].shakeDone = true → ∃ t, exec (.drainTimerExpiry h) s = .next t ∧ t.ctxs[h].state = .weighOut ∧
      t.ctxs[h].drainT = none ∧ t.kept = s.kept ∧ t.orders = s.orders ∧ t.reserved = s.reserved ∧
      ((∀ c ∈ s.waits, c.hoist ≠ h) → ∀ z : Fin 12, t.holders[z] ≠ some h) ∧
      (∀ r p, s.ctxs[h].order = some r → s.ctxs[h].pass = some p → (∀ q ∈ s.wu.queue, q.hoist ≠ h) →
        t.wu.queue = s.wu.queue ++ [⟨h, some (r.tag, p)⟩] ∧ t.ctxs[h].asked = .placed) ∧
      ∀ i : Hoist, i ≠ h → t.ctxs[i] = s.ctxs[i] ∧ t.drives[i] = s.drives[i])

/-- The immersion clock of a held pass passes dwell plus allowance: OVERDWELL is added, overrun raised, and DWELL_OVERRUN
raised for the hoist, once a pass (R43; log entry 26 for the clock). The occurrence latches a CLEAR entry; a latched one
counts it, keeps its last time, and the hoist joins it. A reaction applied to a hoist that it latches or that joins finds it
HELD: a HOLD changes nothing, an ABORT turns its order onto the abort path and leaves it HELD from ABORT_LIFT; one that is
not applied, or applied to a hoist already in the set, reaches no dip context (R45, R46, R177, R179, R181). The ABORT is
stated where ALIGNED is present or its loss has been reported. That a hoist joins the set under STOP_ALL too is the model's
choice, log entry 75. -/
def Obligations.DwellOverrunRaised : Prop :=
  ∀ (s : State) (h : Hoist) (l : Latched), s.ready → s.ctxs[h].state = .held → s.ctxs[h].latched = some l →
    s.ctxs[h].heldFrom = some .dwell ∨ s.ctxs[h].heldFrom = some .lifting ∨
      (s.ctxs[h].heldFrom = some .lowering ∧ s.ctxs[h].contact = true) →
    (s.ctxs[h].overrunRaised = true → ∃ t, exec (.dwellOverrun h) s = .next t ∧ t = { s with link := t.link }) ∧
    ∀ c : DipCtx, s.ctxs[h].overrunRaised = false → s.installed h = true →
      c = { s.ctxs[h] with
        clock := ⟨s.ctxs[h].clock.run, max s.ctxs[h].clock.tenths (l.profile.dwell + l.overrun + 1)⟩,
        overrunRaised := true, flags := { s.ctxs[h].flags with overdwell := true } } →
      (s.reachesNone .dwellOverrun h ∨ s.reactionOf .dwellOverrun = .hold → ∃ t, exec (.dwellOverrun h) s = .next t ∧
        t = { s with ctxs := s.ctxs.set h c, entries := t.entries, beaconT := t.beaconT, link := t.link } ∧
        Occurred s t .dwellOverrun h) ∧
      ∀ o, s.applies .dwellOverrun h → s.reactionOf .dwellOverrun = .abort → s.noneQueued → s.orderOf h = some o →
        s.inputs[h].aligned = true ∨ s.entries[FaultKind.alignLost.ix].present[h] = true →
        o.closePending = false → ∃ t, exec (.dwellOverrun h) s = .next t ∧
          t = { s with ctxs := t.ctxs, orders := t.orders, reserved := s.reserved - s.ctxs[h].resv,
                       nearlyFull := t.nearlyFull, drives := t.drives, mail := t.mail, entries := t.entries,
                       beaconT := t.beaconT, link := t.link } ∧
          t.ctxs = s.ctxs.set h { c with
            heldFrom := some .abortLift, dwellT := none, closeReason := some .fault, resv := 0, starved := false,
            flags := { c.flags with aborted := c.flags.aborted || c.entrySeq.isSome } } ∧
          t.orders = s.orders.map (fun x => if x.slot = o.slot then { x with closePending := true } else x) ∧
          Occurred s t .dwellOverrun h ∧ ∀ i : Hoist, i ≠ h → t.drives[i] = s.drives[i]

/-! ### The Feeder Line -/

/-- FEED: judged in the order of R161; one that passes takes a reservation, sends DISPENSE and enters REQUESTED; an
auto-feed request is judged likewise and dropped without trace where any check fails; the last byte of a DISPENSE loads the
feeder timer where its feed still waits for the answer (R161, R162). Auto-feed requests in transit are log entry 10, the
frames waiting on FD_TX and which of them is the feed's log entries 38 and 60, the feeder timer absent until that byte log
entry 66. -/
def Obligations.FeedStarts : Prop :=
  ∀ (s : State) (tag n : Nat), s.listening →
    (if n = 0 ∨ 20 < n then exec (.feed tag n) s = .next (s.replied .feed tag .badValue)
     else if s.bench = true then exec (.feed tag n) s = .next (s.replied .feed tag .notPermitted)
     else if s.feeder.state ≠ .idle ∨ s.feeder.relay.isSome = true then
       exec (.feed tag n) s = .next (s.replied .feed tag .busy)
     else if s.kept.bookOpen = false then exec (.feed tag n) s = .next (s.replied .feed tag .bookClosed)
     else if s.canReserve 1 = false then exec (.feed tag n) s = .next (s.replied .feed tag .bookFull)
     else ∃ t, exec (.feed tag n) s = .next t ∧ Replies s t .feed tag .ok [fN 4 s.kept.nextSeq] ∧
       t = { s with feeder := t.feeder, reserved := s.reserved + 1, nearlyFull := t.nearlyFull, link := t.link } ∧
       t.feeder = { s.feeder with state := .requested, source := some .host, asked := some n, timer := none, resv := 1,
                                  tx := s.feeder.tx ++ [.dispense n] }) ∧
    (∀ m rest, s.autoRequests = m :: rest → s.bench = false → s.feeder.state = .idle → s.feeder.relay = none →
      s.kept.bookOpen = true → s.canReserve 1 = true → s.kept.feed.auto = true →
      ∃ t, exec .autoFeedRequest s = .next t ∧
        t = { s with feeder := t.feeder, reserved := s.reserved + 1, nearlyFull := t.nearlyFull, autoRequests := rest,
                     link := t.link } ∧
        t.feeder = { s.feeder with state := .requested, source := some .auto, asked := some m, timer := none, resv := 1,
                                   tx := s.feeder.tx ++ [.dispense m] }) ∧
    (∀ m rest, s.autoRequests = m :: rest → s.kept.feed.auto = false ∨ s.bench = true ∨ s.feeder.state ≠ .idle ∨
        s.feeder.relay.isSome = true ∨ s.kept.bookOpen = false ∨ s.canReserve 1 = false →
      ∃ t, exec .autoFeedRequest s = .next t ∧ t = { s with autoRequests := rest, link := t.link }) ∧
    ∀ m rest, s.feeder.tx = .dispense m :: rest → ∃ t, exec .dispenseSent s = .next t ∧
      t = { s with feeder := t.feeder, link := t.link } ∧
      (s.feeder.state = .requested → (∀ n, FeederTx.dispense n ∉ rest) →
        t.feeder = { s.feeder with tx := rest, timer := some s.kept.feed.numbers.timeout }) ∧
      (s.feeder.state ≠ .requested ∨ (∃ n, FeederTx.dispense n ∈ rest) → t.feeder = { s.feeder with tx := rest })

/-- The feeder's four frames in their states: ACCEPT writes the PROVISIONAL ADDITION entry with the reservation and freezes
the Level Unit; DECLINE returns the reservation; DROP raises the entry to the count times the latched mass, where it is
higher than the count held; DONE finalises it with COUNT_DISAGREE where the totals differ, and SETTLE begins (R163, R164,
R165, R166). That bytes of a frame being received are dropped before it is log entry 59. -/
def Obligations.FeederFramesBooked : Prop :=
  ∀ s : State, s.ready → s.feeder.relay = none →
    (s.feeder.state = .requested → ∃ t, exec (.accept []) s = .next t ∧
      t = { s with feeder := t.feeder, kept := t.kept, reserved := s.reserved - 1, lu := t.lu, link := t.link } ∧
      t.feeder.state = .feeding ∧ t.feeder.entry = some s.kept.nextSeq ∧ t.feeder.count = some 0 ∧
      t.feeder.mass = some s.kept.feed.numbers.ingotMass ∧ t.feeder.resv = 0 ∧
      t.feeder.timer = some s.kept.feed.numbers.timeout ∧ t.kept.inventory = s.kept.inventory ∧
      (∃ e, t.kept.journal = s.kept.journal ++ [e] ∧ e.seq = s.kept.nextSeq ∧ e.kind = .addition ∧ e.final = false ∧
        e.amount = 0 ∧ e.ingots = some 0) ∧
      t.lu = { s.lu with frozen := true, lastFreeze := some s.kept.runtime, fifos := Vector.replicate 4 [] }) ∧
    (∀ b : Byte, s.feeder.state = .requested → s.noneQueued → ∃ t, exec (.decline [b]) s = .next t ∧
      t = { s with feeder := t.feeder, reserved := s.reserved - 1, nearlyFull := t.nearlyFull, link := t.link } ∧
      t.feeder.state = .idle ∧ t.feeder.timer = none ∧ t.feeder.resv = 0 ∧
      t.feeder.last = some ⟨.declined b.toNat, s.feeder.asked.getD 0, 0, none⟩) ∧
    (∀ (b : Byte) (held mass seq : Nat), s.feeder.state = .feeding → 1 ≤ b.toNat → b.toNat ≤ 20 →
      s.feeder.count = some held → s.feeder.mass = some mass → s.feeder.entry = some seq →
      (b.toNat ≤ held → ∃ t, exec (.drop [b]) s = .next t ∧ t = { s with feeder := t.feeder, link := t.link } ∧
        t.feeder = { s.feeder with rx := [], timer := some s.kept.feed.numbers.timeout }) ∧
      (held < b.toNat → ∀ pre e post, s.kept.journal = pre ++ e :: post → (∀ x ∈ pre, x.seq ≠ seq) → e.seq = seq →
        e.kind = .addition → e.final = false → ∃ t, exec (.drop [b]) s = .next t ∧
        t = { s with feeder := t.feeder, kept := t.kept, link := t.link } ∧
        t.feeder = { s.feeder with rx := [], count := some b.toNat, timer := some s.kept.feed.numbers.timeout } ∧
        t.kept.journal = pre ++ { e with ingots := some b.toNat, amount := ((b.toNat * mass : Nat) : Int) } :: post ∧
        t.kept.inventory = s.kept.inventory + (((b.toNat * mass : Nat) : Int) - e.amount) ∧
        t.kept.base = s.kept.base)) ∧
    ∀ (b : Byte) (held seq : Nat) (pre post : List Entry) (e : Entry), s.feeder.state = .feeding →
      s.feeder.count = some held → s.feeder.entry = some seq → s.kept.journal = pre ++ e :: post →
      (∀ x ∈ pre, x.seq ≠ seq) → e.seq = seq → e.kind = .addition → e.final = false →
      0 < s.kept.feed.numbers.settle → ∃ t, exec (.done [b]) s = .next t ∧
        t = { s with feeder := t.feeder, kept := t.kept, link := t.link } ∧
        t.feeder.state = .settle ∧ t.feeder.settleT = some (s.kept.feed.numbers.settle * 10) ∧ t.feeder.timer = none ∧
        t.feeder.last = some ⟨.done, s.feeder.asked.getD 0, held, some b.toNat⟩ ∧
        t.kept.inventory = s.kept.inventory ∧
        t.kept.journal = pre ++ { e with final := true, finalised := some s.kept.runtime, feederTotal := some b.toNat,
                                         flags := { e.flags with
                                           countDisagree := b.toNat != held, unconfirmed := false } } :: post

/-- A frame the line does not take in its state, with no relay outstanding, is counted and not acted on: every kind in IDLE
and SETTLE, any but ACCEPT and DECLINE in REQUESTED, any but DROP and DONE in FEEDING; it reloads the feeder timer in FEEDING,
and an ACCEPT, DROP or DONE in IDLE or SETTLE marks the FEEDER notice (R164, R168). A malformed frame of the four kinds is
counted malformed and not acted on, where its kind is taken (R159); where it is not, it is counted malformed and unexpected
both, the model's reading, log entry 37. Bytes that make no frame are counted, and a gap discards the frame being received
(R159). That bytes left in the receiver before a whole frame are dropped without a line error is the model's choice, log
entry 59. -/
def Obligations.FeederFramesRefused : Prop :=
  ∀ s : State, s.ready → s.feeder.relay = none →
    (∀ kind payload, s.feeder.state = .idle ∨ s.feeder.state = .settle ∨
        (s.feeder.state = .requested ∧ kind ≠ 2 ∧ kind ≠ 3) ∨ (s.feeder.state = .feeding ∧ kind ≠ 4 ∧ kind ≠ 5) →
      ∃ t, exec (frameRow kind payload) s = .next t ∧ t = { s with feeder := t.feeder, link := t.link } ∧
        t.feeder = { s.feeder with
          rx := [], unexpected := bump16 s.feeder.unexpected,
          malformed := if frameFits kind payload then s.feeder.malformed else bump16 s.feeder.malformed,
          timer := if s.feeder.state = .feeding then some s.kept.feed.numbers.timeout else s.feeder.timer } ∧
        NoticeMarked s t .feeder (decide ((s.feeder.state = .idle ∨ s.feeder.state = .settle) ∧
          (kind = 2 ∨ kind = 4 ∨ kind = 5)))) ∧
    (∀ kind payload, (s.feeder.state = .requested ∧ (kind = 2 ∨ kind = 3)) ∨
        (s.feeder.state = .feeding ∧ (kind = 4 ∨ kind = 5)) → ¬frameFits kind payload →
      ∃ t, exec (frameRow kind payload) s = .next t ∧ t = { s with feeder := t.feeder, link := t.link } ∧
        t.feeder = { s.feeder with
          rx := [], malformed := bump16 s.feeder.malformed,
          timer := if s.feeder.state = .feeding then some s.kept.feed.numbers.timeout else s.feeder.timer }) ∧
    (s.feeder.rx = [] → ∀ kind len : Byte, 240 < len.toNat →
      ∃ t, exec (.feederFrameDiscarded [0xC5, kind, len]) s = .next t ∧ t = { s with feeder := t.feeder, link := t.link } ∧
        t.feeder = { s.feeder with lineErrors := bump16 s.feeder.lineErrors }) ∧
    (s.feeder.rx = [] → ∀ kind : Byte, ∃ t, exec (.feederFrameGap [0xC5, kind]) s = .next t ∧
      t = { s with feeder := t.feeder, link := t.link } ∧
      t.feeder = { s.feeder with lineErrors := bump16 s.feeder.lineErrors })

/-- The feeder timer at zero: in REQUESTED the reservation is returned, in FEEDING the entry is finalised UNCONFIRMED
with what was last booked, and FEEDER_SILENT is latched; SETTLE at its end returns to IDLE and unfreezes the Level
Unit (R166, R167). A feeder timer that a frame has reloaded first goes on (R174). The reaction is one that reaches no dip
context, or still in its alarm delay. That the feeder's expiry acts only at zero and the settle timer's in SETTLE whatever
remains is log entry 2. -/
def Obligations.FeederTimersEnd : Prop :=
  ∀ s : State, s.ready →
    (s.feeder.state = .requested → s.feeder.timer = some 0 → s.noneQueued →
      s.entries[FaultKind.feederSilent.ix].state = .clear →
      (s.reactionOf .feederSilent).code ≤ 2 ∨ s.kept.faults[FaultKind.feederSilent.ix].delay ≠ 0 →
      ∃ t, exec .feederTimerExpiry s = .next t ∧ t.feeder.state = .idle ∧ t.feeder.timer = none ∧
        t.reserved = s.reserved - 1 ∧ t.feeder.last = some ⟨.noAnswer, s.feeder.asked.getD 0, 0, none⟩ ∧
        t.lu = s.lu ∧ t.kept = s.kept ∧ t.entries[FaultKind.feederSilent.ix].state ≠ .clear ∧
        ∀ i : Fin 4, t.entries[FaultKind.feederSilent.ix].involved[i] = false) ∧
    (∀ (held seq : Nat) (pre post : List Entry) (e : Entry), s.feeder.state = .feeding →
      s.feeder.timer = some 0 → s.feeder.count = some held → s.feeder.entry = some seq →
      s.kept.journal = pre ++ e :: post → (∀ x ∈ pre, x.seq ≠ seq) → e.seq = seq → e.kind = .addition →
      e.final = false → 0 < s.kept.feed.numbers.settle → s.entries[FaultKind.feederSilent.ix].state = .clear →
      (s.reactionOf .feederSilent).code ≤ 2 ∨ s.kept.faults[FaultKind.feederSilent.ix].delay ≠ 0 →
      ∃ t, exec .feederTimerExpiry s = .next t ∧ t.feeder.state = .settle ∧
        t.feeder.last = some ⟨.unconfirmed, s.feeder.asked.getD 0, held, none⟩ ∧ t.lu = s.lu ∧
        t.kept.inventory = s.kept.inventory ∧
        t.kept.journal = pre ++ { e with final := true, finalised := some s.kept.runtime, feederTotal := none,
                                         flags := { e.flags with
                                           countDisagree := false, unconfirmed := true } } :: post ∧
        t.entries[FaultKind.feederSilent.ix].state ≠ .clear) ∧
    (s.feeder.timer ≠ some 0 → ∃ t, exec .feederTimerExpiry s = .next t ∧ t = { s with link := t.link }) ∧
    (s.feeder.state = .settle → ∃ t, exec .settleTimerExpiry s = .next t ∧
      t = { s with feeder := { s.feeder with state := .idle, settleT := none }, lu := t.lu, link := t.link } ∧
      t.lu.frozen = false ∧ t.lu.fifos = s.lu.fifos ∧ t.lu.ring = s.lu.ring)

/-- The relay: judged in the order of R169; an admitted one holds a place of the reply queue and sends its frame; the
last byte of its own frame loads the hold timer; the first frame received is handed back as the deferred reply, whose
payload stays within 240 bytes, and acts on no feed; the hold timer at zero hands TIMEOUT (R169, R170, R193, R194). That
the hold timer's expiry acts whenever it is present is log entry 2, the payload cut to 237 bytes with its length as received
log entry 21, the frames waiting on FD_TX log entry 38, the hold timer absent until that byte log entry 66. -/
def Obligations.RelayRuns : Prop :=
  ∀ (s : State) (tag kind : Nat) (payload : List Byte),
    (s.listening →
      if s.kept.feed.relay = false then
        exec (.feederRelay tag kind payload) s = .next (s.replied .feederRelay tag .notPermitted)
      else if kind = 1 then exec (.feederRelay tag kind payload) s = .next (s.replied .feederRelay tag .relayRefused)
      else if s.feeder.state = .requested ∨ s.feeder.state = .feeding ∨ s.feeder.relay.isSome = true then
        exec (.feederRelay tag kind payload) s = .next (s.replied .feederRelay tag .busy)
      else ∃ t, exec (.feederRelay tag kind payload) s = .next t ∧ t = { s with feeder := t.feeder, link := t.link } ∧
        t.feeder = { s.feeder with relay := some ⟨tag, none⟩, tx := s.feeder.tx ++ [.relayed kind payload] } ∧
        t.link.held = true ∧ t.link.owed = s.link.owed) ∧
    (∀ k p rest, s.ready → s.feeder.tx = .relayed k p :: rest → ∃ t, exec .relayFrameSent s = .next t ∧
      t = { s with feeder := t.feeder, link := t.link } ∧
      (∀ r, s.feeder.relay = some r → (∀ k' p', FeederTx.relayed k' p' ∉ rest) →
        t.feeder = { s.feeder with tx := rest, relay := some ⟨r.tag, some s.kept.feed.numbers.hold⟩ }) ∧
      (s.feeder.relay = none ∨ (∃ k' p', FeederTx.relayed k' p' ∈ rest) → t.feeder = { s.feeder with tx := rest })) ∧
    (∀ r, s.ready → s.feeder.relay = some r → ∃ t, exec (.feederOtherFrame kind payload) s = .next t ∧
      t = { s with feeder := t.feeder, link := t.link } ∧ t.feeder.relay = none ∧
      t.feeder.state = s.feeder.state ∧ t.feeder.unexpected = s.feeder.unexpected ∧ t.link.held = false ∧
      Replies s t .feederRelay r.tag .ok ([fN 1 kind, fN 1 payload.length] ++ fBytes (payload.take 237))) ∧
    (∀ r n, s.ready → s.feeder.relay = some r → r.hold = some n → ∃ t, exec .relayHoldExpiry s = .next t ∧
      t = { s with feeder := { s.feeder with relay := none }, link := t.link } ∧ t.link.held = false ∧
      Replies s t .feederRelay r.tag .timeout)

/-! ### The Fault Collector -/

/-- FAULT_ACK: judged in the order of R182; one that passes clears the entry, keeps the condition values, and carries
the entry as it stood. Where it ends no INHIBIT nothing else follows; where it ends one, an order is taken whose take
condition holds, and a remembered REHANG_DONE is acted on (R177, R182). The layout of the entry is log entries 20 and 68,
its alarm seconds rounded up log entry 8, the claim's serial number log entry 12, a grant in transit log entry 10. -/
def Obligations.FaultAcknowledged : Prop :=
  ∀ (s : State) (tag n : Nat), s.listening →
    (n = 0 ∨ 14 < n → exec (.faultAck tag n) s = .next (s.replied .faultAck tag .badValue)) ∧
    ∀ k : FaultKind, n = k.number →
      (s.entries[k.ix].state = .clear → exec (.faultAck tag n) s = .next (s.replied .faultAck tag .wrongState)) ∧
      (s.entries[k.ix].state ≠ .clear → k.isCondition = true → s.condPresent k = true →
        exec (.faultAck tag n) s = .next (s.replied .faultAck tag .stillPresent)) ∧
      (s.entries[k.ix].state ≠ .clear → k.isCondition = false ∨ s.condPresent k = false →
        s.inhibit = false ∨ (∃ j, j ≠ k ∧ s.imposes j) →
        ∃ t, exec (.faultAck tag n) s = .next t ∧ t = { s with entries := t.entries, link := t.link } ∧
          Replies s t .faultAck tag .ok (s.entryFields k) ∧
          t.entries[k.ix] = { FaultEntry.start with
            present := s.entries[k.ix].present, presentLine := s.entries[k.ix].presentLine } ∧
          ∀ j : FaultKind, j ≠ k → t.entries[j.ix] = s.entries[j.ix]) ∧
      (s.entries[k.ix].state ≠ .clear → k.isCondition = false ∨ s.condPresent k = false → s.imposes k →
        (∀ j, j ≠ k → ¬s.imposes j) →
        ∃ t, exec (.faultAck tag n) s = .next t ∧ Replies s t .faultAck tag .ok (s.entryFields k) ∧
          t.entries[k.ix].state = .clear ∧ InhibitEnded s t)

/-- FAULT_SETUP: judged in the order of R183; one that passes replaces the kind's reaction, delay and beacon flag, and kind
0 the beacon minimum. Of a CLEAR or ALARM entry nothing else follows; of an ACTIVE one a more severe reaction is applied at
once, here HOLD to the one involved hoist, a less severe one undoes nothing, and an INHIBIT that the entry no longer carries
ends (R177, R183, R184). The claim's serial number is log entry 12, a grant in transit log entry 10. -/
def Obligations.FaultSettingsReplaced : Prop :=
  ∀ (s : State) (tag n r d f : Nat), s.listening →
    (14 < n → exec (.faultSetup tag n (.settings r d f)) s = .next (s.replied .faultSetup tag .badValue)) ∧
    (∀ t, exec (.faultSetup tag 0 (.beaconMin t)) s = .next (if 10 ≤ t ∧ t ≤ 600 then
        { s with kept := { s.kept with beaconMin := t } }.replied .faultSetup tag .ok
      else s.replied .faultSetup tag .badValue)) ∧
    ∀ k : FaultKind, n = k.number →
      (5 < r ∨ 600 < d ∨ 1 < f →
        exec (.faultSetup tag n (.settings r d f)) s = .next (s.replied .faultSetup tag .badValue)) ∧
      ∀ q : Reaction, q.code = r → d ≤ 600 → f ≤ 1 →
        (k = .drivePowerLoss ∧ (q ≠ .stopAll ∨ d ≠ 0) ∨ k = .retainedLost ∧ (q ≠ .notify ∨ d ≠ 0) →
          exec (.faultSetup tag n (.settings r d f)) s = .next (s.replied .faultSetup tag .notPermitted)) ∧
        (¬(k = .drivePowerLoss ∧ (q ≠ .stopAll ∨ d ≠ 0) ∨ k = .retainedLost ∧ (q ≠ .notify ∨ d ≠ 0)) →
          (∃ t, exec (.faultSetup tag n (.settings r d f)) s = .next t ∧ Replies s t .faultSetup tag .ok ∧
            t.kept.faults = s.kept.faults.set k.ix ⟨q, d, decide (f = 1)⟩) ∧
          (s.entries[k.ix].state ≠ .active ∨
              (r ≤ (s.reactionOf k).code ∧ (s.inhibit = false ∨ q = .inhibit ∨ q = .stopAll ∨ ∃ j, j ≠ k ∧ s.imposes j)) →
            exec (.faultSetup tag n (.settings r d f)) s = .next
              ({ s with kept := { s.kept with faults := s.kept.faults.set k.ix ⟨q, d, decide (f = 1)⟩ } }.replied
                .faultSetup tag .ok)) ∧
          (s.entries[k.ix].state = .active → (s.reactionOf k).code < r → r ≤ 2 →
            ∃ t, exec (.faultSetup tag n (.settings r d f)) s = .next t ∧ Replies s t .faultSetup tag .ok ∧
              t = { s with kept := { s.kept with faults := s.kept.faults.set k.ix ⟨q, d, decide (f = 1)⟩ },
                           link := t.link }) ∧
          (∀ h : Hoist, s.entries[k.ix].state = .active → (s.reactionOf k).code < r → q = .hold → s.inhibit = false →
            (∀ i : Fin 4, s.entries[k.ix].involved[i] = decide (i = h)) → s.ctxs[h].state ≠ .parked →
            s.ctxs[h].state ≠ .held → s.stationClear h →
            (∀ l, s.ctxs[h].latched = some l → s.ctxs[h].clock.tenths ≤ l.profile.dwell + l.overrun) →
            ∃ t, exec (.faultSetup tag n (.settings r d f)) s = .next t ∧ Replies s t .faultSetup tag .ok ∧
              t.ctxs[h].state = .held ∧ t.ctxs[h].heldFrom = some s.ctxs[h].state ∧ t.drives[h].motion = none ∧
              t.entries[k.ix].state = .active ∧ t.orders = s.orders ∧
              ∀ i : Hoist, i ≠ h → t.ctxs[i] = s.ctxs[i] ∧ t.drives[i] = s.drives[i]) ∧
          (s.imposes k → (∀ j, j ≠ k → ¬s.imposes j) → r < (s.reactionOf k).code → q ≠ .inhibit →
            ∃ t, exec (.faultSetup tag n (.settings r d f)) s = .next t ∧ Replies s t .faultSetup tag .ok ∧
              InhibitEnded s t))

/-- The alarm timer at zero makes the entry ACTIVE, and a HOLD reaches the dip context of the one involved hoist, with
its motion cancelled (R180, R177, R41); the beacon timer at zero stops, and one that an occurrence has reloaded first goes
on (R185, R188). That the alarm timer's expiry acts whatever time remains, and the beacon's only at zero, is log entry 2. -/
def Obligations.AlarmAndBeaconTimersEnd : Prop :=
  ∀ s : State, s.ready →
    (∀ k : FaultKind, s.entries[k.ix].state = .alarm → (s.reactionOf k).code ≤ 2 →
      ∃ t, exec (.alarmTimerExpiry k.ix) s = .next t ∧ t = { s with entries := t.entries, link := t.link } ∧
        t.entries[k.ix] = { s.entries[k.ix] with state := .active, alarmT := none } ∧
        ∀ j : FaultKind, j ≠ k → t.entries[j.ix] = s.entries[j.ix]) ∧
    (∀ (k : FaultKind) (h : Hoist), s.entries[k.ix].state = .alarm → s.reactionOf k = .hold →
      (∀ i : Fin 4, s.entries[k.ix].involved[i] = decide (i = h)) → s.ctxs[h].state ≠ .parked →
      s.ctxs[h].state ≠ .held → s.stationClear h →
      (∀ l, s.ctxs[h].latched = some l → s.ctxs[h].clock.tenths ≤ l.profile.dwell + l.overrun) →
      ∃ t, exec (.alarmTimerExpiry k.ix) s = .next t ∧ t.entries[k.ix].state = .active ∧
        t.ctxs[h].state = .held ∧ t.ctxs[h].heldFrom = some s.ctxs[h].state ∧ t.drives[h].motion = none ∧
        t.kept = s.kept ∧ t.orders = s.orders ∧
        ∀ i : Hoist, i ≠ h → t.ctxs[i] = s.ctxs[i] ∧ t.drives[i] = s.drives[i]) ∧
    (s.beaconT = some 0 → ∃ t, exec .beaconTimerExpiry s = .next t ∧ t = { s with beaconT := none, link := t.link }) ∧
    (s.beaconT ≠ some 0 → ∃ t, exec .beaconTimerExpiry s = .next t ∧ t = { s with link := t.link })

/-- DRIVE_POWER going absent latches DRIVE_POWER_LOSS with every installed hoist involved, and its STOP_ALL takes every dip
context that is not PARKED into HELD (R41, R175, R176, R177, R179). -/
def Obligations.DrivePowerLossHoldsAll : Prop :=
  ∀ s : State, s.ready → s.drivePower = true → s.entries[FaultKind.drivePowerLoss.ix].state = .clear →
    s.entries[FaultKind.drivePowerLoss.ix].presentLine = false → s.reactionOf .drivePowerLoss = .stopAll →
    s.kept.faults[FaultKind.drivePowerLoss.ix].delay = 0 → (∀ h : Hoist, s.stationClear h) →
    (∀ (h : Hoist) (l : Latched), s.ctxs[h].latched = some l →
      s.ctxs[h].clock.tenths ≤ l.profile.dwell + l.overrun) →
    ∃ t, exec (.drivePowerChange false) s = .next t ∧ t.drivePower = false ∧ t.link.powerLatch = true ∧
      (s.link.tx.isSome = true → t.link.marks[NoticeClass.input.ix] =
        (s.link.marks[NoticeClass.input.ix] || (!s.link.powerLatch && s.kept.notices[NoticeClass.input.ix]))) ∧
      t.entries[FaultKind.drivePowerLoss.ix].state = .active ∧
      (∀ h : Hoist, t.entries[FaultKind.drivePowerLoss.ix].involved[h] = s.installed h) ∧
      ∀ h : Hoist, t.ctxs[h].state = (if s.ctxs[h].state = .parked then .parked else .held) ∧
        (s.ctxs[h].state ≠ .parked → s.ctxs[h].state ≠ .held → t.ctxs[h].heldFrom = some s.ctxs[h].state ∧
          t.drives[h].motion = none) ∧ t.drives[h].count = s.drives[h].count

/-! ### Invariants -/

/-- The inventory equals the base plus the amounts in the journal, and the six sums together, after every step (R62,
R63). -/
def Obligations.BookStaysBalanced : Prop :=
  ∀ s t : State, step s = .next t → s.kept.balanced → t.kept.balanced

/-- Where hoists i < j both hold zones, every zone of i is numbered lower than every zone of j, after every step (R90). -/
def Obligations.RunwayStaysOrdered : Prop :=
  ∀ s t : State, step s = .next t → runwayOrdered s.holders → runwayOrdered t.holders

/-- The order table keeps at most 24 orders, no two with the same tag, after every step (R1, R6). -/
def Obligations.OrderTableStaysUnique : Prop :=
  ∀ s t : State, step s = .next t → ordersOk s.orders → ordersOk t.orders

/-- The reply queue with the place held for a relay never takes more than four places, and a deferred reply always finds
room, after every step (R194). -/
def Obligations.ReplyPlacesStayWithinFour : Prop :=
  ∀ s t : State, step s = .next t → s.placesOk → t.placesOk

/-- The four invariants hold right after reset. -/
def Obligations.InvariantsHoldAtReset : Prop :=
  State.reset.kept.balanced ∧ runwayOrdered State.reset.holders ∧ ordersOk State.reset.orders ∧ State.reset.placesOk
end

