-- ==== Sys2Proof/Laws/State.lean ====
section
/-! SUPPORT. The fields of the state after each update of one record, and after a report or follow-up: true by rfl. -/

namespace Sys2Proof.Machine

section
variable (s : State) (f : Link → Link)
@[simp] theorem modLink_power : (s.modLink f).power = s.power := rfl
@[simp] theorem modLink_vbak : (s.modLink f).vbak = s.vbak := rfl
@[simp] theorem modLink_checkGood : (s.modLink f).checkGood = s.checkGood := rfl
@[simp] theorem modLink_kept : (s.modLink f).kept = s.kept := rfl
@[simp] theorem modLink_link : (s.modLink f).link = f s.link := rfl
@[simp] theorem modLink_inputs : (s.modLink f).inputs = s.inputs := rfl
@[simp] theorem modLink_drivePower : (s.modLink f).drivePower = s.drivePower := rfl
@[simp] theorem modLink_orders : (s.modLink f).orders = s.orders := rfl
@[simp] theorem modLink_ctxs : (s.modLink f).ctxs = s.ctxs := rfl
@[simp] theorem modLink_drives : (s.modLink f).drives = s.drives := rfl
@[simp] theorem modLink_bench : (s.modLink f).bench = s.bench := rfl
@[simp] theorem modLink_benchBeacon : (s.modLink f).benchBeacon = s.benchBeacon := rfl
@[simp] theorem modLink_holders : (s.modLink f).holders = s.holders := rfl
@[simp] theorem modLink_waits : (s.modLink f).waits = s.waits := rfl
@[simp] theorem modLink_nextSerial : (s.modLink f).nextSerial = s.nextSerial := rfl
@[simp] theorem modLink_wu : (s.modLink f).wu = s.wu := rfl
@[simp] theorem modLink_lu : (s.modLink f).lu = s.lu := rfl
@[simp] theorem modLink_reserved : (s.modLink f).reserved = s.reserved := rfl
@[simp] theorem modLink_nearlyFull : (s.modLink f).nearlyFull = s.nearlyFull := rfl
@[simp] theorem modLink_tenths : (s.modLink f).tenths = s.tenths := rfl
@[simp] theorem modLink_feeder : (s.modLink f).feeder = s.feeder := rfl
@[simp] theorem modLink_entries : (s.modLink f).entries = s.entries := rfl
@[simp] theorem modLink_beaconT : (s.modLink f).beaconT = s.beaconT := rfl
@[simp] theorem modLink_mail : (s.modLink f).mail = s.mail := rfl
@[simp] theorem modLink_autoRequests : (s.modLink f).autoRequests = s.autoRequests := rfl
@[simp] theorem modLink_agenda : (s.modLink f).agenda = s.agenda := rfl
@[simp] theorem modLink_pending : (s.modLink f).pending = s.pending := rfl
end

section
variable (s : State) (f : Retained → Retained)
@[simp] theorem modKept_power : (s.modKept f).power = s.power := rfl
@[simp] theorem modKept_vbak : (s.modKept f).vbak = s.vbak := rfl
@[simp] theorem modKept_checkGood : (s.modKept f).checkGood = s.checkGood := rfl
@[simp] theorem modKept_kept : (s.modKept f).kept = f s.kept := rfl
@[simp] theorem modKept_link : (s.modKept f).link = s.link := rfl
@[simp] theorem modKept_inputs : (s.modKept f).inputs = s.inputs := rfl
@[simp] theorem modKept_drivePower : (s.modKept f).drivePower = s.drivePower := rfl
@[simp] theorem modKept_orders : (s.modKept f).orders = s.orders := rfl
@[simp] theorem modKept_ctxs : (s.modKept f).ctxs = s.ctxs := rfl
@[simp] theorem modKept_drives : (s.modKept f).drives = s.drives := rfl
@[simp] theorem modKept_bench : (s.modKept f).bench = s.bench := rfl
@[simp] theorem modKept_benchBeacon : (s.modKept f).benchBeacon = s.benchBeacon := rfl
@[simp] theorem modKept_holders : (s.modKept f).holders = s.holders := rfl
@[simp] theorem modKept_waits : (s.modKept f).waits = s.waits := rfl
@[simp] theorem modKept_nextSerial : (s.modKept f).nextSerial = s.nextSerial := rfl
@[simp] theorem modKept_wu : (s.modKept f).wu = s.wu := rfl
@[simp] theorem modKept_lu : (s.modKept f).lu = s.lu := rfl
@[simp] theorem modKept_reserved : (s.modKept f).reserved = s.reserved := rfl
@[simp] theorem modKept_nearlyFull : (s.modKept f).nearlyFull = s.nearlyFull := rfl
@[simp] theorem modKept_tenths : (s.modKept f).tenths = s.tenths := rfl
@[simp] theorem modKept_feeder : (s.modKept f).feeder = s.feeder := rfl
@[simp] theorem modKept_entries : (s.modKept f).entries = s.entries := rfl
@[simp] theorem modKept_beaconT : (s.modKept f).beaconT = s.beaconT := rfl
@[simp] theorem modKept_mail : (s.modKept f).mail = s.mail := rfl
@[simp] theorem modKept_autoRequests : (s.modKept f).autoRequests = s.autoRequests := rfl
@[simp] theorem modKept_agenda : (s.modKept f).agenda = s.agenda := rfl
@[simp] theorem modKept_pending : (s.modKept f).pending = s.pending := rfl
end

section
variable (s : State) (h : Hoist) (f : DipCtx → DipCtx)
@[simp] theorem modCtx_power : (s.modCtx h f).power = s.power := rfl
@[simp] theorem modCtx_vbak : (s.modCtx h f).vbak = s.vbak := rfl
@[simp] theorem modCtx_checkGood : (s.modCtx h f).checkGood = s.checkGood := rfl
@[simp] theorem modCtx_kept : (s.modCtx h f).kept = s.kept := rfl
@[simp] theorem modCtx_link : (s.modCtx h f).link = s.link := rfl
@[simp] theorem modCtx_inputs : (s.modCtx h f).inputs = s.inputs := rfl
@[simp] theorem modCtx_drivePower : (s.modCtx h f).drivePower = s.drivePower := rfl
@[simp] theorem modCtx_orders : (s.modCtx h f).orders = s.orders := rfl
@[simp] theorem modCtx_ctxs : (s.modCtx h f).ctxs = s.ctxs.set h (f s.ctxs[h]) := rfl
@[simp] theorem modCtx_drives : (s.modCtx h f).drives = s.drives := rfl
@[simp] theorem modCtx_bench : (s.modCtx h f).bench = s.bench := rfl
@[simp] theorem modCtx_benchBeacon : (s.modCtx h f).benchBeacon = s.benchBeacon := rfl
@[simp] theorem modCtx_holders : (s.modCtx h f).holders = s.holders := rfl
@[simp] theorem modCtx_waits : (s.modCtx h f).waits = s.waits := rfl
@[simp] theorem modCtx_nextSerial : (s.modCtx h f).nextSerial = s.nextSerial := rfl
@[simp] theorem modCtx_wu : (s.modCtx h f).wu = s.wu := rfl
@[simp] theorem modCtx_lu : (s.modCtx h f).lu = s.lu := rfl
@[simp] theorem modCtx_reserved : (s.modCtx h f).reserved = s.reserved := rfl
@[simp] theorem modCtx_nearlyFull : (s.modCtx h f).nearlyFull = s.nearlyFull := rfl
@[simp] theorem modCtx_tenths : (s.modCtx h f).tenths = s.tenths := rfl
@[simp] theorem modCtx_feeder : (s.modCtx h f).feeder = s.feeder := rfl
@[simp] theorem modCtx_entries : (s.modCtx h f).entries = s.entries := rfl
@[simp] theorem modCtx_beaconT : (s.modCtx h f).beaconT = s.beaconT := rfl
@[simp] theorem modCtx_mail : (s.modCtx h f).mail = s.mail := rfl
@[simp] theorem modCtx_autoRequests : (s.modCtx h f).autoRequests = s.autoRequests := rfl
@[simp] theorem modCtx_agenda : (s.modCtx h f).agenda = s.agenda := rfl
@[simp] theorem modCtx_pending : (s.modCtx h f).pending = s.pending := rfl
end

section
variable (s : State) (h : Hoist) (f : DriveIf → DriveIf)
@[simp] theorem modDrive_power : (s.modDrive h f).power = s.power := rfl
@[simp] theorem modDrive_vbak : (s.modDrive h f).vbak = s.vbak := rfl
@[simp] theorem modDrive_checkGood : (s.modDrive h f).checkGood = s.checkGood := rfl
@[simp] theorem modDrive_kept : (s.modDrive h f).kept = s.kept := rfl
@[simp] theorem modDrive_link : (s.modDrive h f).link = s.link := rfl
@[simp] theorem modDrive_inputs : (s.modDrive h f).inputs = s.inputs := rfl
@[simp] theorem modDrive_drivePower : (s.modDrive h f).drivePower = s.drivePower := rfl
@[simp] theorem modDrive_orders : (s.modDrive h f).orders = s.orders := rfl
@[simp] theorem modDrive_ctxs : (s.modDrive h f).ctxs = s.ctxs := rfl
@[simp] theorem modDrive_drives : (s.modDrive h f).drives = s.drives.set h (f s.drives[h]) := rfl
@[simp] theorem modDrive_bench : (s.modDrive h f).bench = s.bench := rfl
@[simp] theorem modDrive_benchBeacon : (s.modDrive h f).benchBeacon = s.benchBeacon := rfl
@[simp] theorem modDrive_holders : (s.modDrive h f).holders = s.holders := rfl
@[simp] theorem modDrive_waits : (s.modDrive h f).waits = s.waits := rfl
@[simp] theorem modDrive_nextSerial : (s.modDrive h f).nextSerial = s.nextSerial := rfl
@[simp] theorem modDrive_wu : (s.modDrive h f).wu = s.wu := rfl
@[simp] theorem modDrive_lu : (s.modDrive h f).lu = s.lu := rfl
@[simp] theorem modDrive_reserved : (s.modDrive h f).reserved = s.reserved := rfl
@[simp] theorem modDrive_nearlyFull : (s.modDrive h f).nearlyFull = s.nearlyFull := rfl
@[simp] theorem modDrive_tenths : (s.modDrive h f).tenths = s.tenths := rfl
@[simp] theorem modDrive_feeder : (s.modDrive h f).feeder = s.feeder := rfl
@[simp] theorem modDrive_entries : (s.modDrive h f).entries = s.entries := rfl
@[simp] theorem modDrive_beaconT : (s.modDrive h f).beaconT = s.beaconT := rfl
@[simp] theorem modDrive_mail : (s.modDrive h f).mail = s.mail := rfl
@[simp] theorem modDrive_autoRequests : (s.modDrive h f).autoRequests = s.autoRequests := rfl
@[simp] theorem modDrive_agenda : (s.modDrive h f).agenda = s.agenda := rfl
@[simp] theorem modDrive_pending : (s.modDrive h f).pending = s.pending := rfl
end

section
variable (s : State) (h : Hoist) (f : Mail → Mail)
@[simp] theorem modMail_power : (s.modMail h f).power = s.power := rfl
@[simp] theorem modMail_vbak : (s.modMail h f).vbak = s.vbak := rfl
@[simp] theorem modMail_checkGood : (s.modMail h f).checkGood = s.checkGood := rfl
@[simp] theorem modMail_kept : (s.modMail h f).kept = s.kept := rfl
@[simp] theorem modMail_link : (s.modMail h f).link = s.link := rfl
@[simp] theorem modMail_inputs : (s.modMail h f).inputs = s.inputs := rfl
@[simp] theorem modMail_drivePower : (s.modMail h f).drivePower = s.drivePower := rfl
@[simp] theorem modMail_orders : (s.modMail h f).orders = s.orders := rfl
@[simp] theorem modMail_ctxs : (s.modMail h f).ctxs = s.ctxs := rfl
@[simp] theorem modMail_drives : (s.modMail h f).drives = s.drives := rfl
@[simp] theorem modMail_bench : (s.modMail h f).bench = s.bench := rfl
@[simp] theorem modMail_benchBeacon : (s.modMail h f).benchBeacon = s.benchBeacon := rfl
@[simp] theorem modMail_holders : (s.modMail h f).holders = s.holders := rfl
@[simp] theorem modMail_waits : (s.modMail h f).waits = s.waits := rfl
@[simp] theorem modMail_nextSerial : (s.modMail h f).nextSerial = s.nextSerial := rfl
@[simp] theorem modMail_wu : (s.modMail h f).wu = s.wu := rfl
@[simp] theorem modMail_lu : (s.modMail h f).lu = s.lu := rfl
@[simp] theorem modMail_reserved : (s.modMail h f).reserved = s.reserved := rfl
@[simp] theorem modMail_nearlyFull : (s.modMail h f).nearlyFull = s.nearlyFull := rfl
@[simp] theorem modMail_tenths : (s.modMail h f).tenths = s.tenths := rfl
@[simp] theorem modMail_feeder : (s.modMail h f).feeder = s.feeder := rfl
@[simp] theorem modMail_entries : (s.modMail h f).entries = s.entries := rfl
@[simp] theorem modMail_beaconT : (s.modMail h f).beaconT = s.beaconT := rfl
@[simp] theorem modMail_mail : (s.modMail h f).mail = s.mail.set h (f s.mail[h]) := rfl
@[simp] theorem modMail_autoRequests : (s.modMail h f).autoRequests = s.autoRequests := rfl
@[simp] theorem modMail_agenda : (s.modMail h f).agenda = s.agenda := rfl
@[simp] theorem modMail_pending : (s.modMail h f).pending = s.pending := rfl
end

section
variable (s : State) (f : WeighUnit → WeighUnit)
@[simp] theorem modWu_power : (s.modWu f).power = s.power := rfl
@[simp] theorem modWu_vbak : (s.modWu f).vbak = s.vbak := rfl
@[simp] theorem modWu_checkGood : (s.modWu f).checkGood = s.checkGood := rfl
@[simp] theorem modWu_kept : (s.modWu f).kept = s.kept := rfl
@[simp] theorem modWu_link : (s.modWu f).link = s.link := rfl
@[simp] theorem modWu_inputs : (s.modWu f).inputs = s.inputs := rfl
@[simp] theorem modWu_drivePower : (s.modWu f).drivePower = s.drivePower := rfl
@[simp] theorem modWu_orders : (s.modWu f).orders = s.orders := rfl
@[simp] theorem modWu_ctxs : (s.modWu f).ctxs = s.ctxs := rfl
@[simp] theorem modWu_drives : (s.modWu f).drives = s.drives := rfl
@[simp] theorem modWu_bench : (s.modWu f).bench = s.bench := rfl
@[simp] theorem modWu_benchBeacon : (s.modWu f).benchBeacon = s.benchBeacon := rfl
@[simp] theorem modWu_holders : (s.modWu f).holders = s.holders := rfl
@[simp] theorem modWu_waits : (s.modWu f).waits = s.waits := rfl
@[simp] theorem modWu_nextSerial : (s.modWu f).nextSerial = s.nextSerial := rfl
@[simp] theorem modWu_wu : (s.modWu f).wu = f s.wu := rfl
@[simp] theorem modWu_lu : (s.modWu f).lu = s.lu := rfl
@[simp] theorem modWu_reserved : (s.modWu f).reserved = s.reserved := rfl
@[simp] theorem modWu_nearlyFull : (s.modWu f).nearlyFull = s.nearlyFull := rfl
@[simp] theorem modWu_tenths : (s.modWu f).tenths = s.tenths := rfl
@[simp] theorem modWu_feeder : (s.modWu f).feeder = s.feeder := rfl
@[simp] theorem modWu_entries : (s.modWu f).entries = s.entries := rfl
@[simp] theorem modWu_beaconT : (s.modWu f).beaconT = s.beaconT := rfl
@[simp] theorem modWu_mail : (s.modWu f).mail = s.mail := rfl
@[simp] theorem modWu_autoRequests : (s.modWu f).autoRequests = s.autoRequests := rfl
@[simp] theorem modWu_agenda : (s.modWu f).agenda = s.agenda := rfl
@[simp] theorem modWu_pending : (s.modWu f).pending = s.pending := rfl
end

section
variable (s : State) (f : LevelUnit → LevelUnit)
@[simp] theorem modLu_power : (s.modLu f).power = s.power := rfl
@[simp] theorem modLu_vbak : (s.modLu f).vbak = s.vbak := rfl
@[simp] theorem modLu_checkGood : (s.modLu f).checkGood = s.checkGood := rfl
@[simp] theorem modLu_kept : (s.modLu f).kept = s.kept := rfl
@[simp] theorem modLu_link : (s.modLu f).link = s.link := rfl
@[simp] theorem modLu_inputs : (s.modLu f).inputs = s.inputs := rfl
@[simp] theorem modLu_drivePower : (s.modLu f).drivePower = s.drivePower := rfl
@[simp] theorem modLu_orders : (s.modLu f).orders = s.orders := rfl
@[simp] theorem modLu_ctxs : (s.modLu f).ctxs = s.ctxs := rfl
@[simp] theorem modLu_drives : (s.modLu f).drives = s.drives := rfl
@[simp] theorem modLu_bench : (s.modLu f).bench = s.bench := rfl
@[simp] theorem modLu_benchBeacon : (s.modLu f).benchBeacon = s.benchBeacon := rfl
@[simp] theorem modLu_holders : (s.modLu f).holders = s.holders := rfl
@[simp] theorem modLu_waits : (s.modLu f).waits = s.waits := rfl
@[simp] theorem modLu_nextSerial : (s.modLu f).nextSerial = s.nextSerial := rfl
@[simp] theorem modLu_wu : (s.modLu f).wu = s.wu := rfl
@[simp] theorem modLu_lu : (s.modLu f).lu = f s.lu := rfl
@[simp] theorem modLu_reserved : (s.modLu f).reserved = s.reserved := rfl
@[simp] theorem modLu_nearlyFull : (s.modLu f).nearlyFull = s.nearlyFull := rfl
@[simp] theorem modLu_tenths : (s.modLu f).tenths = s.tenths := rfl
@[simp] theorem modLu_feeder : (s.modLu f).feeder = s.feeder := rfl
@[simp] theorem modLu_entries : (s.modLu f).entries = s.entries := rfl
@[simp] theorem modLu_beaconT : (s.modLu f).beaconT = s.beaconT := rfl
@[simp] theorem modLu_mail : (s.modLu f).mail = s.mail := rfl
@[simp] theorem modLu_autoRequests : (s.modLu f).autoRequests = s.autoRequests := rfl
@[simp] theorem modLu_agenda : (s.modLu f).agenda = s.agenda := rfl
@[simp] theorem modLu_pending : (s.modLu f).pending = s.pending := rfl
end

section
variable (s : State) (f : FeederLine → FeederLine)
@[simp] theorem modFeeder_power : (s.modFeeder f).power = s.power := rfl
@[simp] theorem modFeeder_vbak : (s.modFeeder f).vbak = s.vbak := rfl
@[simp] theorem modFeeder_checkGood : (s.modFeeder f).checkGood = s.checkGood := rfl
@[simp] theorem modFeeder_kept : (s.modFeeder f).kept = s.kept := rfl
@[simp] theorem modFeeder_link : (s.modFeeder f).link = s.link := rfl
@[simp] theorem modFeeder_inputs : (s.modFeeder f).inputs = s.inputs := rfl
@[simp] theorem modFeeder_drivePower : (s.modFeeder f).drivePower = s.drivePower := rfl
@[simp] theorem modFeeder_orders : (s.modFeeder f).orders = s.orders := rfl
@[simp] theorem modFeeder_ctxs : (s.modFeeder f).ctxs = s.ctxs := rfl
@[simp] theorem modFeeder_drives : (s.modFeeder f).drives = s.drives := rfl
@[simp] theorem modFeeder_bench : (s.modFeeder f).bench = s.bench := rfl
@[simp] theorem modFeeder_benchBeacon : (s.modFeeder f).benchBeacon = s.benchBeacon := rfl
@[simp] theorem modFeeder_holders : (s.modFeeder f).holders = s.holders := rfl
@[simp] theorem modFeeder_waits : (s.modFeeder f).waits = s.waits := rfl
@[simp] theorem modFeeder_nextSerial : (s.modFeeder f).nextSerial = s.nextSerial := rfl
@[simp] theorem modFeeder_wu : (s.modFeeder f).wu = s.wu := rfl
@[simp] theorem modFeeder_lu : (s.modFeeder f).lu = s.lu := rfl
@[simp] theorem modFeeder_reserved : (s.modFeeder f).reserved = s.reserved := rfl
@[simp] theorem modFeeder_nearlyFull : (s.modFeeder f).nearlyFull = s.nearlyFull := rfl
@[simp] theorem modFeeder_tenths : (s.modFeeder f).tenths = s.tenths := rfl
@[simp] theorem modFeeder_feeder : (s.modFeeder f).feeder = f s.feeder := rfl
@[simp] theorem modFeeder_entries : (s.modFeeder f).entries = s.entries := rfl
@[simp] theorem modFeeder_beaconT : (s.modFeeder f).beaconT = s.beaconT := rfl
@[simp] theorem modFeeder_mail : (s.modFeeder f).mail = s.mail := rfl
@[simp] theorem modFeeder_autoRequests : (s.modFeeder f).autoRequests = s.autoRequests := rfl
@[simp] theorem modFeeder_agenda : (s.modFeeder f).agenda = s.agenda := rfl
@[simp] theorem modFeeder_pending : (s.modFeeder f).pending = s.pending := rfl
end

section
variable (s : State) (k : FaultKind) (f : FaultEntry → FaultEntry)
@[simp] theorem modEntry_power : (s.modEntry k f).power = s.power := rfl
@[simp] theorem modEntry_vbak : (s.modEntry k f).vbak = s.vbak := rfl
@[simp] theorem modEntry_checkGood : (s.modEntry k f).checkGood = s.checkGood := rfl
@[simp] theorem modEntry_kept : (s.modEntry k f).kept = s.kept := rfl
@[simp] theorem modEntry_link : (s.modEntry k f).link = s.link := rfl
@[simp] theorem modEntry_inputs : (s.modEntry k f).inputs = s.inputs := rfl
@[simp] theorem modEntry_drivePower : (s.modEntry k f).drivePower = s.drivePower := rfl
@[simp] theorem modEntry_orders : (s.modEntry k f).orders = s.orders := rfl
@[simp] theorem modEntry_ctxs : (s.modEntry k f).ctxs = s.ctxs := rfl
@[simp] theorem modEntry_drives : (s.modEntry k f).drives = s.drives := rfl
@[simp] theorem modEntry_bench : (s.modEntry k f).bench = s.bench := rfl
@[simp] theorem modEntry_benchBeacon : (s.modEntry k f).benchBeacon = s.benchBeacon := rfl
@[simp] theorem modEntry_holders : (s.modEntry k f).holders = s.holders := rfl
@[simp] theorem modEntry_waits : (s.modEntry k f).waits = s.waits := rfl
@[simp] theorem modEntry_nextSerial : (s.modEntry k f).nextSerial = s.nextSerial := rfl
@[simp] theorem modEntry_wu : (s.modEntry k f).wu = s.wu := rfl
@[simp] theorem modEntry_lu : (s.modEntry k f).lu = s.lu := rfl
@[simp] theorem modEntry_reserved : (s.modEntry k f).reserved = s.reserved := rfl
@[simp] theorem modEntry_nearlyFull : (s.modEntry k f).nearlyFull = s.nearlyFull := rfl
@[simp] theorem modEntry_tenths : (s.modEntry k f).tenths = s.tenths := rfl
@[simp] theorem modEntry_feeder : (s.modEntry k f).feeder = s.feeder := rfl
@[simp] theorem modEntry_entries : (s.modEntry k f).entries = s.entries.set k.ix (f s.entries[k.ix]) := rfl
@[simp] theorem modEntry_beaconT : (s.modEntry k f).beaconT = s.beaconT := rfl
@[simp] theorem modEntry_mail : (s.modEntry k f).mail = s.mail := rfl
@[simp] theorem modEntry_autoRequests : (s.modEntry k f).autoRequests = s.autoRequests := rfl
@[simp] theorem modEntry_agenda : (s.modEntry k f).agenda = s.agenda := rfl
@[simp] theorem modEntry_pending : (s.modEntry k f).pending = s.pending := rfl
end

section
variable (s : State) (h : Hoist) (f : StationInputs → StationInputs)
@[simp] theorem modInputs_power : (s.modInputs h f).power = s.power := rfl
@[simp] theorem modInputs_vbak : (s.modInputs h f).vbak = s.vbak := rfl
@[simp] theorem modInputs_checkGood : (s.modInputs h f).checkGood = s.checkGood := rfl
@[simp] theorem modInputs_kept : (s.modInputs h f).kept = s.kept := rfl
@[simp] theorem modInputs_link : (s.modInputs h f).link = s.link := rfl
@[simp] theorem modInputs_inputs : (s.modInputs h f).inputs = s.inputs.set h (f s.inputs[h]) := rfl
@[simp] theorem modInputs_drivePower : (s.modInputs h f).drivePower = s.drivePower := rfl
@[simp] theorem modInputs_orders : (s.modInputs h f).orders = s.orders := rfl
@[simp] theorem modInputs_ctxs : (s.modInputs h f).ctxs = s.ctxs := rfl
@[simp] theorem modInputs_drives : (s.modInputs h f).drives = s.drives := rfl
@[simp] theorem modInputs_bench : (s.modInputs h f).bench = s.bench := rfl
@[simp] theorem modInputs_benchBeacon : (s.modInputs h f).benchBeacon = s.benchBeacon := rfl
@[simp] theorem modInputs_holders : (s.modInputs h f).holders = s.holders := rfl
@[simp] theorem modInputs_waits : (s.modInputs h f).waits = s.waits := rfl
@[simp] theorem modInputs_nextSerial : (s.modInputs h f).nextSerial = s.nextSerial := rfl
@[simp] theorem modInputs_wu : (s.modInputs h f).wu = s.wu := rfl
@[simp] theorem modInputs_lu : (s.modInputs h f).lu = s.lu := rfl
@[simp] theorem modInputs_reserved : (s.modInputs h f).reserved = s.reserved := rfl
@[simp] theorem modInputs_nearlyFull : (s.modInputs h f).nearlyFull = s.nearlyFull := rfl
@[simp] theorem modInputs_tenths : (s.modInputs h f).tenths = s.tenths := rfl
@[simp] theorem modInputs_feeder : (s.modInputs h f).feeder = s.feeder := rfl
@[simp] theorem modInputs_entries : (s.modInputs h f).entries = s.entries := rfl
@[simp] theorem modInputs_beaconT : (s.modInputs h f).beaconT = s.beaconT := rfl
@[simp] theorem modInputs_mail : (s.modInputs h f).mail = s.mail := rfl
@[simp] theorem modInputs_autoRequests : (s.modInputs h f).autoRequests = s.autoRequests := rfl
@[simp] theorem modInputs_agenda : (s.modInputs h f).agenda = s.agenda := rfl
@[simp] theorem modInputs_pending : (s.modInputs h f).pending = s.pending := rfl
end

section
variable (s : State) (r : FaultReport)
@[simp] theorem report_power : (s.report r).power = s.power := rfl
@[simp] theorem report_vbak : (s.report r).vbak = s.vbak := rfl
@[simp] theorem report_checkGood : (s.report r).checkGood = s.checkGood := rfl
@[simp] theorem report_kept : (s.report r).kept = s.kept := rfl
@[simp] theorem report_link : (s.report r).link = s.link := rfl
@[simp] theorem report_inputs : (s.report r).inputs = s.inputs := rfl
@[simp] theorem report_drivePower : (s.report r).drivePower = s.drivePower := rfl
@[simp] theorem report_orders : (s.report r).orders = s.orders := rfl
@[simp] theorem report_ctxs : (s.report r).ctxs = s.ctxs := rfl
@[simp] theorem report_drives : (s.report r).drives = s.drives := rfl
@[simp] theorem report_bench : (s.report r).bench = s.bench := rfl
@[simp] theorem report_benchBeacon : (s.report r).benchBeacon = s.benchBeacon := rfl
@[simp] theorem report_holders : (s.report r).holders = s.holders := rfl
@[simp] theorem report_waits : (s.report r).waits = s.waits := rfl
@[simp] theorem report_nextSerial : (s.report r).nextSerial = s.nextSerial := rfl
@[simp] theorem report_wu : (s.report r).wu = s.wu := rfl
@[simp] theorem report_lu : (s.report r).lu = s.lu := rfl
@[simp] theorem report_reserved : (s.report r).reserved = s.reserved := rfl
@[simp] theorem report_nearlyFull : (s.report r).nearlyFull = s.nearlyFull := rfl
@[simp] theorem report_tenths : (s.report r).tenths = s.tenths := rfl
@[simp] theorem report_feeder : (s.report r).feeder = s.feeder := rfl
@[simp] theorem report_entries : (s.report r).entries = s.entries := rfl
@[simp] theorem report_beaconT : (s.report r).beaconT = s.beaconT := rfl
@[simp] theorem report_mail : (s.report r).mail = s.mail := rfl
@[simp] theorem report_autoRequests : (s.report r).autoRequests = s.autoRequests := rfl
@[simp] theorem report_agenda : (s.report r).agenda = { s.agenda with reports := s.agenda.reports ++ [r] } := rfl
@[simp] theorem report_pending : (s.report r).pending = s.pending := rfl
end

section
variable (s : State) (r : Follow)
@[simp] theorem followUp_power : (s.followUp r).power = s.power := rfl
@[simp] theorem followUp_vbak : (s.followUp r).vbak = s.vbak := rfl
@[simp] theorem followUp_checkGood : (s.followUp r).checkGood = s.checkGood := rfl
@[simp] theorem followUp_kept : (s.followUp r).kept = s.kept := rfl
@[simp] theorem followUp_link : (s.followUp r).link = s.link := rfl
@[simp] theorem followUp_inputs : (s.followUp r).inputs = s.inputs := rfl
@[simp] theorem followUp_drivePower : (s.followUp r).drivePower = s.drivePower := rfl
@[simp] theorem followUp_orders : (s.followUp r).orders = s.orders := rfl
@[simp] theorem followUp_ctxs : (s.followUp r).ctxs = s.ctxs := rfl
@[simp] theorem followUp_drives : (s.followUp r).drives = s.drives := rfl
@[simp] theorem followUp_bench : (s.followUp r).bench = s.bench := rfl
@[simp] theorem followUp_benchBeacon : (s.followUp r).benchBeacon = s.benchBeacon := rfl
@[simp] theorem followUp_holders : (s.followUp r).holders = s.holders := rfl
@[simp] theorem followUp_waits : (s.followUp r).waits = s.waits := rfl
@[simp] theorem followUp_nextSerial : (s.followUp r).nextSerial = s.nextSerial := rfl
@[simp] theorem followUp_wu : (s.followUp r).wu = s.wu := rfl
@[simp] theorem followUp_lu : (s.followUp r).lu = s.lu := rfl
@[simp] theorem followUp_reserved : (s.followUp r).reserved = s.reserved := rfl
@[simp] theorem followUp_nearlyFull : (s.followUp r).nearlyFull = s.nearlyFull := rfl
@[simp] theorem followUp_tenths : (s.followUp r).tenths = s.tenths := rfl
@[simp] theorem followUp_feeder : (s.followUp r).feeder = s.feeder := rfl
@[simp] theorem followUp_entries : (s.followUp r).entries = s.entries := rfl
@[simp] theorem followUp_beaconT : (s.followUp r).beaconT = s.beaconT := rfl
@[simp] theorem followUp_mail : (s.followUp r).mail = s.mail := rfl
@[simp] theorem followUp_autoRequests : (s.followUp r).autoRequests = s.autoRequests := rfl
@[simp] theorem followUp_agenda : (s.followUp r).agenda = { s.agenda with follow := s.agenda.follow ++ [r] } := rfl
@[simp] theorem followUp_pending : (s.followUp r).pending = s.pending := rfl
end

end Sys2Proof.Machine
end

