-- ==== Sys2Proof/Laws/Blocks.lean ====
section
/-! SUPPORT. What the operations on a dip context leave and change, field by field: marks, the reports of R38, the
rewriting of a dip context, the end of a motion. -/

namespace Sys2Proof.Machine

/-! ### Marks: only the link -/

@[simp] theorem mark_power (s : State) (c : NoticeClass) : (s.mark c).power = s.power := by
  unfold State.mark; split <;> rfl
@[simp] theorem mark_vbak (s : State) (c : NoticeClass) : (s.mark c).vbak = s.vbak := by
  unfold State.mark; split <;> rfl
@[simp] theorem mark_checkGood (s : State) (c : NoticeClass) : (s.mark c).checkGood = s.checkGood := by
  unfold State.mark; split <;> rfl
@[simp] theorem mark_kept (s : State) (c : NoticeClass) : (s.mark c).kept = s.kept := by
  unfold State.mark; split <;> rfl
@[simp] theorem mark_inputs (s : State) (c : NoticeClass) : (s.mark c).inputs = s.inputs := by
  unfold State.mark; split <;> rfl
@[simp] theorem mark_drivePower (s : State) (c : NoticeClass) : (s.mark c).drivePower = s.drivePower := by
  unfold State.mark; split <;> rfl
@[simp] theorem mark_orders (s : State) (c : NoticeClass) : (s.mark c).orders = s.orders := by
  unfold State.mark; split <;> rfl
@[simp] theorem mark_ctxs (s : State) (c : NoticeClass) : (s.mark c).ctxs = s.ctxs := by
  unfold State.mark; split <;> rfl
@[simp] theorem mark_drives (s : State) (c : NoticeClass) : (s.mark c).drives = s.drives := by
  unfold State.mark; split <;> rfl
@[simp] theorem mark_bench (s : State) (c : NoticeClass) : (s.mark c).bench = s.bench := by
  unfold State.mark; split <;> rfl
@[simp] theorem mark_benchBeacon (s : State) (c : NoticeClass) : (s.mark c).benchBeacon = s.benchBeacon := by
  unfold State.mark; split <;> rfl
@[simp] theorem mark_holders (s : State) (c : NoticeClass) : (s.mark c).holders = s.holders := by
  unfold State.mark; split <;> rfl
@[simp] theorem mark_waits (s : State) (c : NoticeClass) : (s.mark c).waits = s.waits := by
  unfold State.mark; split <;> rfl
@[simp] theorem mark_nextSerial (s : State) (c : NoticeClass) : (s.mark c).nextSerial = s.nextSerial := by
  unfold State.mark; split <;> rfl
@[simp] theorem mark_wu (s : State) (c : NoticeClass) : (s.mark c).wu = s.wu := by
  unfold State.mark; split <;> rfl
@[simp] theorem mark_lu (s : State) (c : NoticeClass) : (s.mark c).lu = s.lu := by
  unfold State.mark; split <;> rfl
@[simp] theorem mark_reserved (s : State) (c : NoticeClass) : (s.mark c).reserved = s.reserved := by
  unfold State.mark; split <;> rfl
@[simp] theorem mark_nearlyFull (s : State) (c : NoticeClass) : (s.mark c).nearlyFull = s.nearlyFull := by
  unfold State.mark; split <;> rfl
@[simp] theorem mark_tenths (s : State) (c : NoticeClass) : (s.mark c).tenths = s.tenths := by
  unfold State.mark; split <;> rfl
@[simp] theorem mark_feeder (s : State) (c : NoticeClass) : (s.mark c).feeder = s.feeder := by
  unfold State.mark; split <;> rfl
@[simp] theorem mark_entries (s : State) (c : NoticeClass) : (s.mark c).entries = s.entries := by
  unfold State.mark; split <;> rfl
@[simp] theorem mark_beaconT (s : State) (c : NoticeClass) : (s.mark c).beaconT = s.beaconT := by
  unfold State.mark; split <;> rfl
@[simp] theorem mark_mail (s : State) (c : NoticeClass) : (s.mark c).mail = s.mail := by
  unfold State.mark; split <;> rfl
@[simp] theorem mark_autoRequests (s : State) (c : NoticeClass) : (s.mark c).autoRequests = s.autoRequests := by
  unfold State.mark; split <;> rfl
@[simp] theorem mark_agenda (s : State) (c : NoticeClass) : (s.mark c).agenda = s.agenda := by
  unfold State.mark; split <;> rfl
@[simp] theorem mark_pending (s : State) (c : NoticeClass) : (s.mark c).pending = s.pending := by
  unfold State.mark; split <;> rfl
@[simp] theorem markIf_power (s : State) (b : Bool) (c : NoticeClass) : (s.markIf b c).power = s.power := by
  unfold State.markIf; split <;> simp
@[simp] theorem markIf_vbak (s : State) (b : Bool) (c : NoticeClass) : (s.markIf b c).vbak = s.vbak := by
  unfold State.markIf; split <;> simp
@[simp] theorem markIf_checkGood (s : State) (b : Bool) (c : NoticeClass) : (s.markIf b c).checkGood = s.checkGood := by
  unfold State.markIf; split <;> simp
@[simp] theorem markIf_kept (s : State) (b : Bool) (c : NoticeClass) : (s.markIf b c).kept = s.kept := by
  unfold State.markIf; split <;> simp
@[simp] theorem markIf_inputs (s : State) (b : Bool) (c : NoticeClass) : (s.markIf b c).inputs = s.inputs := by
  unfold State.markIf; split <;> simp
@[simp] theorem markIf_drivePower (s : State) (b : Bool) (c : NoticeClass) : (s.markIf b c).drivePower = s.drivePower := by
  unfold State.markIf; split <;> simp
@[simp] theorem markIf_orders (s : State) (b : Bool) (c : NoticeClass) : (s.markIf b c).orders = s.orders := by
  unfold State.markIf; split <;> simp
@[simp] theorem markIf_ctxs (s : State) (b : Bool) (c : NoticeClass) : (s.markIf b c).ctxs = s.ctxs := by
  unfold State.markIf; split <;> simp
@[simp] theorem markIf_drives (s : State) (b : Bool) (c : NoticeClass) : (s.markIf b c).drives = s.drives := by
  unfold State.markIf; split <;> simp
@[simp] theorem markIf_bench (s : State) (b : Bool) (c : NoticeClass) : (s.markIf b c).bench = s.bench := by
  unfold State.markIf; split <;> simp
@[simp] theorem markIf_benchBeacon (s : State) (b : Bool) (c : NoticeClass) : (s.markIf b c).benchBeacon = s.benchBeacon := by
  unfold State.markIf; split <;> simp
@[simp] theorem markIf_holders (s : State) (b : Bool) (c : NoticeClass) : (s.markIf b c).holders = s.holders := by
  unfold State.markIf; split <;> simp
@[simp] theorem markIf_waits (s : State) (b : Bool) (c : NoticeClass) : (s.markIf b c).waits = s.waits := by
  unfold State.markIf; split <;> simp
@[simp] theorem markIf_nextSerial (s : State) (b : Bool) (c : NoticeClass) : (s.markIf b c).nextSerial = s.nextSerial := by
  unfold State.markIf; split <;> simp
@[simp] theorem markIf_wu (s : State) (b : Bool) (c : NoticeClass) : (s.markIf b c).wu = s.wu := by
  unfold State.markIf; split <;> simp
@[simp] theorem markIf_lu (s : State) (b : Bool) (c : NoticeClass) : (s.markIf b c).lu = s.lu := by
  unfold State.markIf; split <;> simp
@[simp] theorem markIf_reserved (s : State) (b : Bool) (c : NoticeClass) : (s.markIf b c).reserved = s.reserved := by
  unfold State.markIf; split <;> simp
@[simp] theorem markIf_nearlyFull (s : State) (b : Bool) (c : NoticeClass) : (s.markIf b c).nearlyFull = s.nearlyFull := by
  unfold State.markIf; split <;> simp
@[simp] theorem markIf_tenths (s : State) (b : Bool) (c : NoticeClass) : (s.markIf b c).tenths = s.tenths := by
  unfold State.markIf; split <;> simp
@[simp] theorem markIf_feeder (s : State) (b : Bool) (c : NoticeClass) : (s.markIf b c).feeder = s.feeder := by
  unfold State.markIf; split <;> simp
@[simp] theorem markIf_entries (s : State) (b : Bool) (c : NoticeClass) : (s.markIf b c).entries = s.entries := by
  unfold State.markIf; split <;> simp
@[simp] theorem markIf_beaconT (s : State) (b : Bool) (c : NoticeClass) : (s.markIf b c).beaconT = s.beaconT := by
  unfold State.markIf; split <;> simp
@[simp] theorem markIf_mail (s : State) (b : Bool) (c : NoticeClass) : (s.markIf b c).mail = s.mail := by
  unfold State.markIf; split <;> simp
@[simp] theorem markIf_autoRequests (s : State) (b : Bool) (c : NoticeClass) : (s.markIf b c).autoRequests = s.autoRequests := by
  unfold State.markIf; split <;> simp
@[simp] theorem markIf_agenda (s : State) (b : Bool) (c : NoticeClass) : (s.markIf b c).agenda = s.agenda := by
  unfold State.markIf; split <;> simp
@[simp] theorem markIf_pending (s : State) (b : Bool) (c : NoticeClass) : (s.markIf b c).pending = s.pending := by
  unfold State.markIf; split <;> simp

/-! ### The reports of R38: only the agenda -/

@[simp] theorem reportConds_power (s : State) (h : Hoist) : (s.reportConds h).power = s.power := rfl
@[simp] theorem reportConds_vbak (s : State) (h : Hoist) : (s.reportConds h).vbak = s.vbak := rfl
@[simp] theorem reportConds_checkGood (s : State) (h : Hoist) : (s.reportConds h).checkGood = s.checkGood := rfl
@[simp] theorem reportConds_kept (s : State) (h : Hoist) : (s.reportConds h).kept = s.kept := rfl
@[simp] theorem reportConds_link (s : State) (h : Hoist) : (s.reportConds h).link = s.link := rfl
@[simp] theorem reportConds_inputs (s : State) (h : Hoist) : (s.reportConds h).inputs = s.inputs := rfl
@[simp] theorem reportConds_drivePower (s : State) (h : Hoist) : (s.reportConds h).drivePower = s.drivePower := rfl
@[simp] theorem reportConds_orders (s : State) (h : Hoist) : (s.reportConds h).orders = s.orders := rfl
@[simp] theorem reportConds_ctxs (s : State) (h : Hoist) : (s.reportConds h).ctxs = s.ctxs := rfl
@[simp] theorem reportConds_drives (s : State) (h : Hoist) : (s.reportConds h).drives = s.drives := rfl
@[simp] theorem reportConds_bench (s : State) (h : Hoist) : (s.reportConds h).bench = s.bench := rfl
@[simp] theorem reportConds_benchBeacon (s : State) (h : Hoist) : (s.reportConds h).benchBeacon = s.benchBeacon := rfl
@[simp] theorem reportConds_holders (s : State) (h : Hoist) : (s.reportConds h).holders = s.holders := rfl
@[simp] theorem reportConds_waits (s : State) (h : Hoist) : (s.reportConds h).waits = s.waits := rfl
@[simp] theorem reportConds_nextSerial (s : State) (h : Hoist) : (s.reportConds h).nextSerial = s.nextSerial := rfl
@[simp] theorem reportConds_wu (s : State) (h : Hoist) : (s.reportConds h).wu = s.wu := rfl
@[simp] theorem reportConds_lu (s : State) (h : Hoist) : (s.reportConds h).lu = s.lu := rfl
@[simp] theorem reportConds_reserved (s : State) (h : Hoist) : (s.reportConds h).reserved = s.reserved := rfl
@[simp] theorem reportConds_nearlyFull (s : State) (h : Hoist) : (s.reportConds h).nearlyFull = s.nearlyFull := rfl
@[simp] theorem reportConds_tenths (s : State) (h : Hoist) : (s.reportConds h).tenths = s.tenths := rfl
@[simp] theorem reportConds_feeder (s : State) (h : Hoist) : (s.reportConds h).feeder = s.feeder := rfl
@[simp] theorem reportConds_entries (s : State) (h : Hoist) : (s.reportConds h).entries = s.entries := rfl
@[simp] theorem reportConds_beaconT (s : State) (h : Hoist) : (s.reportConds h).beaconT = s.beaconT := rfl
@[simp] theorem reportConds_mail (s : State) (h : Hoist) : (s.reportConds h).mail = s.mail := rfl
@[simp] theorem reportConds_autoRequests (s : State) (h : Hoist) : (s.reportConds h).autoRequests = s.autoRequests := rfl
@[simp] theorem reportConds_pending (s : State) (h : Hoist) : (s.reportConds h).pending = s.pending := rfl
@[simp] theorem reportConds_agenda (s : State) (h : Hoist) : (s.reportConds h).agenda =
    ⟨s.agenda.reports ++ [.cond .alignLost (some h) (s.alignLost h)] ++ [.cond .areaBreach (some h) (s.areaBreach h)],
      s.agenda.follow⟩ := rfl

/-- Neither condition of R38 is present where both inputs are. -/
theorem alignLost_of_clear (s : State) (h : Hoist) (c : s.stationClear h) : s.alignLost h = false := by
  have a := c.1
  simp only [Fin.getElem_fin] at a
  simp [State.alignLost, a]
theorem areaBreach_of_clear (s : State) (h : Hoist) (c : s.stationClear h) : s.areaBreach h = false := by
  have a := c.2
  simp only [Fin.getElem_fin] at a
  simp [State.areaBreach, a]

/-! ### Rewriting a dip context -/

@[simp] theorem setCtx_power (s : State) (h : Hoist) (c : DipCtx) : (s.setCtx h c).power = s.power := by
  unfold State.setCtx; dsimp only; split <;> split <;> simp
@[simp] theorem setCtx_vbak (s : State) (h : Hoist) (c : DipCtx) : (s.setCtx h c).vbak = s.vbak := by
  unfold State.setCtx; dsimp only; split <;> split <;> simp
@[simp] theorem setCtx_checkGood (s : State) (h : Hoist) (c : DipCtx) : (s.setCtx h c).checkGood = s.checkGood := by
  unfold State.setCtx; dsimp only; split <;> split <;> simp
@[simp] theorem setCtx_kept (s : State) (h : Hoist) (c : DipCtx) : (s.setCtx h c).kept = s.kept := by
  unfold State.setCtx; dsimp only; split <;> split <;> simp
@[simp] theorem setCtx_inputs (s : State) (h : Hoist) (c : DipCtx) : (s.setCtx h c).inputs = s.inputs := by
  unfold State.setCtx; dsimp only; split <;> split <;> simp
@[simp] theorem setCtx_drivePower (s : State) (h : Hoist) (c : DipCtx) : (s.setCtx h c).drivePower = s.drivePower := by
  unfold State.setCtx; dsimp only; split <;> split <;> simp
@[simp] theorem setCtx_orders (s : State) (h : Hoist) (c : DipCtx) : (s.setCtx h c).orders = s.orders := by
  unfold State.setCtx; dsimp only; split <;> split <;> simp
@[simp] theorem setCtx_bench (s : State) (h : Hoist) (c : DipCtx) : (s.setCtx h c).bench = s.bench := by
  unfold State.setCtx; dsimp only; split <;> split <;> simp
@[simp] theorem setCtx_benchBeacon (s : State) (h : Hoist) (c : DipCtx) : (s.setCtx h c).benchBeacon = s.benchBeacon := by
  unfold State.setCtx; dsimp only; split <;> split <;> simp
@[simp] theorem setCtx_holders (s : State) (h : Hoist) (c : DipCtx) : (s.setCtx h c).holders = s.holders := by
  unfold State.setCtx; dsimp only; split <;> split <;> simp
@[simp] theorem setCtx_waits (s : State) (h : Hoist) (c : DipCtx) : (s.setCtx h c).waits = s.waits := by
  unfold State.setCtx; dsimp only; split <;> split <;> simp
@[simp] theorem setCtx_nextSerial (s : State) (h : Hoist) (c : DipCtx) : (s.setCtx h c).nextSerial = s.nextSerial := by
  unfold State.setCtx; dsimp only; split <;> split <;> simp
@[simp] theorem setCtx_wu (s : State) (h : Hoist) (c : DipCtx) : (s.setCtx h c).wu = s.wu := by
  unfold State.setCtx; dsimp only; split <;> split <;> simp
@[simp] theorem setCtx_lu (s : State) (h : Hoist) (c : DipCtx) : (s.setCtx h c).lu = s.lu := by
  unfold State.setCtx; dsimp only; split <;> split <;> simp
@[simp] theorem setCtx_reserved (s : State) (h : Hoist) (c : DipCtx) : (s.setCtx h c).reserved = s.reserved := by
  unfold State.setCtx; dsimp only; split <;> split <;> simp
@[simp] theorem setCtx_nearlyFull (s : State) (h : Hoist) (c : DipCtx) : (s.setCtx h c).nearlyFull = s.nearlyFull := by
  unfold State.setCtx; dsimp only; split <;> split <;> simp
@[simp] theorem setCtx_tenths (s : State) (h : Hoist) (c : DipCtx) : (s.setCtx h c).tenths = s.tenths := by
  unfold State.setCtx; dsimp only; split <;> split <;> simp
@[simp] theorem setCtx_feeder (s : State) (h : Hoist) (c : DipCtx) : (s.setCtx h c).feeder = s.feeder := by
  unfold State.setCtx; dsimp only; split <;> split <;> simp
@[simp] theorem setCtx_entries (s : State) (h : Hoist) (c : DipCtx) : (s.setCtx h c).entries = s.entries := by
  unfold State.setCtx; dsimp only; split <;> split <;> simp
@[simp] theorem setCtx_beaconT (s : State) (h : Hoist) (c : DipCtx) : (s.setCtx h c).beaconT = s.beaconT := by
  unfold State.setCtx; dsimp only; split <;> split <;> simp
@[simp] theorem setCtx_autoRequests (s : State) (h : Hoist) (c : DipCtx) : (s.setCtx h c).autoRequests = s.autoRequests := by
  unfold State.setCtx; dsimp only; split <;> split <;> simp
@[simp] theorem setCtx_agenda (s : State) (h : Hoist) (c : DipCtx) : (s.setCtx h c).agenda = s.agenda := by
  unfold State.setCtx; dsimp only; split <;> split <;> simp
@[simp] theorem setCtx_pending (s : State) (h : Hoist) (c : DipCtx) : (s.setCtx h c).pending = s.pending := by
  unfold State.setCtx; dsimp only; split <;> split <;> simp
@[simp] theorem setCtx_ctxs (s : State) (h : Hoist) (c : DipCtx) :
    (s.setCtx h c).ctxs = s.ctxs.set h { c with starved := c.starved && c.state.moving } := by
  unfold State.setCtx; dsimp only; split <;> split <;> simp [State.modCtx]
@[simp] theorem setCtx_drives (s : State) (h : Hoist) (c : DipCtx) : (s.setCtx h c).drives =
    if s.bench then s.drives else s.drives.set h { s.drives[h] with permit := c.state.permits } := by
  unfold State.setCtx; dsimp only; split <;> split <;> simp_all [State.modDrive]
@[simp] theorem setCtx_mail (s : State) (h : Hoist) (c : DipCtx) : (s.setCtx h c).mail =
    if s.ctxs[h].view = c.view then s.mail
    else s.mail.set h { s.mail[h] with level := s.mail[h].level ++ [.view c.view] } := by
  unfold State.setCtx; dsimp only; split <;> split <;> simp_all [State.modMail]

@[simp] theorem putCtx_power (s : State) (h : Hoist) (c : DipCtx) : (s.putCtx h c).power = s.power := by
  simp [State.putCtx]
@[simp] theorem putCtx_vbak (s : State) (h : Hoist) (c : DipCtx) : (s.putCtx h c).vbak = s.vbak := by
  simp [State.putCtx]
@[simp] theorem putCtx_checkGood (s : State) (h : Hoist) (c : DipCtx) : (s.putCtx h c).checkGood = s.checkGood := by
  simp [State.putCtx]
@[simp] theorem putCtx_kept (s : State) (h : Hoist) (c : DipCtx) : (s.putCtx h c).kept = s.kept := by
  simp [State.putCtx]
@[simp] theorem putCtx_inputs (s : State) (h : Hoist) (c : DipCtx) : (s.putCtx h c).inputs = s.inputs := by
  simp [State.putCtx]
@[simp] theorem putCtx_drivePower (s : State) (h : Hoist) (c : DipCtx) : (s.putCtx h c).drivePower = s.drivePower := by
  simp [State.putCtx]
@[simp] theorem putCtx_orders (s : State) (h : Hoist) (c : DipCtx) : (s.putCtx h c).orders = s.orders := by
  simp [State.putCtx]
@[simp] theorem putCtx_ctxs (s : State) (h : Hoist) (c : DipCtx) : (s.putCtx h c).ctxs = s.ctxs.set h { c with starved := c.starved && c.state.moving } := by
  simp [State.putCtx]
@[simp] theorem putCtx_drives (s : State) (h : Hoist) (c : DipCtx) : (s.putCtx h c).drives = 
    if s.bench then s.drives else s.drives.set h { s.drives[h] with permit := c.state.permits } := by
  simp [State.putCtx]
@[simp] theorem putCtx_bench (s : State) (h : Hoist) (c : DipCtx) : (s.putCtx h c).bench = s.bench := by
  simp [State.putCtx]
@[simp] theorem putCtx_benchBeacon (s : State) (h : Hoist) (c : DipCtx) : (s.putCtx h c).benchBeacon = s.benchBeacon := by
  simp [State.putCtx]
@[simp] theorem putCtx_holders (s : State) (h : Hoist) (c : DipCtx) : (s.putCtx h c).holders = s.holders := by
  simp [State.putCtx]
@[simp] theorem putCtx_waits (s : State) (h : Hoist) (c : DipCtx) : (s.putCtx h c).waits = s.waits := by
  simp [State.putCtx]
@[simp] theorem putCtx_nextSerial (s : State) (h : Hoist) (c : DipCtx) : (s.putCtx h c).nextSerial = s.nextSerial := by
  simp [State.putCtx]
@[simp] theorem putCtx_wu (s : State) (h : Hoist) (c : DipCtx) : (s.putCtx h c).wu = s.wu := by
  simp [State.putCtx]
@[simp] theorem putCtx_lu (s : State) (h : Hoist) (c : DipCtx) : (s.putCtx h c).lu = s.lu := by
  simp [State.putCtx]
@[simp] theorem putCtx_reserved (s : State) (h : Hoist) (c : DipCtx) : (s.putCtx h c).reserved = s.reserved := by
  simp [State.putCtx]
@[simp] theorem putCtx_nearlyFull (s : State) (h : Hoist) (c : DipCtx) : (s.putCtx h c).nearlyFull = s.nearlyFull := by
  simp [State.putCtx]
@[simp] theorem putCtx_tenths (s : State) (h : Hoist) (c : DipCtx) : (s.putCtx h c).tenths = s.tenths := by
  simp [State.putCtx]
@[simp] theorem putCtx_feeder (s : State) (h : Hoist) (c : DipCtx) : (s.putCtx h c).feeder = s.feeder := by
  simp [State.putCtx]
@[simp] theorem putCtx_entries (s : State) (h : Hoist) (c : DipCtx) : (s.putCtx h c).entries = s.entries := by
  simp [State.putCtx]
@[simp] theorem putCtx_beaconT (s : State) (h : Hoist) (c : DipCtx) : (s.putCtx h c).beaconT = s.beaconT := by
  simp [State.putCtx]
@[simp] theorem putCtx_mail (s : State) (h : Hoist) (c : DipCtx) : (s.putCtx h c).mail = 
    if s.ctxs[h].view = c.view then s.mail
    else s.mail.set h { s.mail[h] with level := s.mail[h].level ++ [.view c.view] } := by
  simp [State.putCtx]
@[simp] theorem putCtx_autoRequests (s : State) (h : Hoist) (c : DipCtx) : (s.putCtx h c).autoRequests = s.autoRequests := by
  simp [State.putCtx]
@[simp] theorem putCtx_pending (s : State) (h : Hoist) (c : DipCtx) : (s.putCtx h c).pending = s.pending := by
  simp [State.putCtx]
theorem putCtx_agenda (s : State) (h : Hoist) (c : DipCtx) : (s.putCtx h c).agenda =
    ⟨s.agenda.reports ++ [.cond .alignLost (some h) ((s.putCtx h c).alignLost h)] ++
      [.cond .areaBreach (some h) ((s.putCtx h c).areaBreach h)], s.agenda.follow⟩ := by
  have e : ∀ t : State, (t.reportConds h).alignLost h = t.alignLost h ∧ (t.reportConds h).areaBreach h = t.areaBreach h :=
    fun _ => ⟨rfl, rfl⟩
  unfold State.putCtx
  rw [(e _).1, (e _).2]
  simp
/-- With both inputs present a change of a dip context reports absent conditions only. -/
theorem putCtx_agenda_of_clear (s : State) (h : Hoist) (c : DipCtx) (k : s.stationClear h) : (s.putCtx h c).agenda =
    ⟨s.agenda.reports ++ [.cond .alignLost (some h) false] ++ [.cond .areaBreach (some h) false], s.agenda.follow⟩ := by
  have k' : (s.putCtx h c).stationClear h := by simpa [State.stationClear] using k
  rw [putCtx_agenda, alignLost_of_clear _ h k', areaBreach_of_clear _ h k']

/-! ### The end of a motion -/

@[simp] theorem stopMotion_power (s : State) (h : Hoist) : (s.stopMotion h).power = s.power := rfl
@[simp] theorem stopMotion_vbak (s : State) (h : Hoist) : (s.stopMotion h).vbak = s.vbak := rfl
@[simp] theorem stopMotion_checkGood (s : State) (h : Hoist) : (s.stopMotion h).checkGood = s.checkGood := rfl
@[simp] theorem stopMotion_kept (s : State) (h : Hoist) : (s.stopMotion h).kept = s.kept := rfl
@[simp] theorem stopMotion_link (s : State) (h : Hoist) : (s.stopMotion h).link = s.link := rfl
@[simp] theorem stopMotion_inputs (s : State) (h : Hoist) : (s.stopMotion h).inputs = s.inputs := rfl
@[simp] theorem stopMotion_drivePower (s : State) (h : Hoist) : (s.stopMotion h).drivePower = s.drivePower := rfl
@[simp] theorem stopMotion_orders (s : State) (h : Hoist) : (s.stopMotion h).orders = s.orders := rfl
@[simp] theorem stopMotion_ctxs (s : State) (h : Hoist) : (s.stopMotion h).ctxs = s.ctxs := rfl
@[simp] theorem stopMotion_bench (s : State) (h : Hoist) : (s.stopMotion h).bench = s.bench := rfl
@[simp] theorem stopMotion_benchBeacon (s : State) (h : Hoist) : (s.stopMotion h).benchBeacon = s.benchBeacon := rfl
@[simp] theorem stopMotion_holders (s : State) (h : Hoist) : (s.stopMotion h).holders = s.holders := rfl
@[simp] theorem stopMotion_waits (s : State) (h : Hoist) : (s.stopMotion h).waits = s.waits := rfl
@[simp] theorem stopMotion_nextSerial (s : State) (h : Hoist) : (s.stopMotion h).nextSerial = s.nextSerial := rfl
@[simp] theorem stopMotion_wu (s : State) (h : Hoist) : (s.stopMotion h).wu = s.wu := rfl
@[simp] theorem stopMotion_lu (s : State) (h : Hoist) : (s.stopMotion h).lu = s.lu := rfl
@[simp] theorem stopMotion_reserved (s : State) (h : Hoist) : (s.stopMotion h).reserved = s.reserved := rfl
@[simp] theorem stopMotion_nearlyFull (s : State) (h : Hoist) : (s.stopMotion h).nearlyFull = s.nearlyFull := rfl
@[simp] theorem stopMotion_tenths (s : State) (h : Hoist) : (s.stopMotion h).tenths = s.tenths := rfl
@[simp] theorem stopMotion_feeder (s : State) (h : Hoist) : (s.stopMotion h).feeder = s.feeder := rfl
@[simp] theorem stopMotion_entries (s : State) (h : Hoist) : (s.stopMotion h).entries = s.entries := rfl
@[simp] theorem stopMotion_beaconT (s : State) (h : Hoist) : (s.stopMotion h).beaconT = s.beaconT := rfl
@[simp] theorem stopMotion_mail (s : State) (h : Hoist) : (s.stopMotion h).mail = s.mail := rfl
@[simp] theorem stopMotion_autoRequests (s : State) (h : Hoist) : (s.stopMotion h).autoRequests = s.autoRequests := rfl
@[simp] theorem stopMotion_pending (s : State) (h : Hoist) : (s.stopMotion h).pending = s.pending := rfl
@[simp] theorem stopMotion_drives (s : State) (h : Hoist) : (s.stopMotion h).drives =
    s.drives.set h { s.drives[h] with motion := none, readyT := none, brakeRel := false } := rfl
theorem stopMotion_agenda_of_clear (s : State) (h : Hoist) (k : s.stationClear h) : (s.stopMotion h).agenda =
    ⟨s.agenda.reports ++ [.cond .alignLost (some h) false] ++ [.cond .areaBreach (some h) false], s.agenda.follow⟩ := by
  have k' : (s.modDrive h fun d => { d with motion := none, readyT := none, brakeRel := false }).stationClear h := k
  simp only [State.stopMotion, State.haltMotion, reportConds_agenda, alignLost_of_clear _ h k', areaBreach_of_clear _ h k', modDrive_agenda]

end Sys2Proof.Machine
end

