-- ==== Sys2Proof/Laws/Lists.lean ====
section
/-! SUPPORT. The list operations said once: the numbers of the fault kinds, a trim, a change of one entry, the free slot,
the walk of the wait list, the values of a window and a rounded quotient. -/

namespace Sys2Proof.Machine

/-! ### Fault kinds -/

@[simp] theorem FaultKind.ofIx_ix (k : FaultKind) : FaultKind.ofIx k.ix = k := by cases k <;> rfl

theorem FaultKind.ix_inj {j k : FaultKind} (h : j.ix = k.ix) : j = k := by
  rw [← FaultKind.ofIx_ix j, h, FaultKind.ofIx_ix]

@[simp] theorem faultKind?_number (k : FaultKind) : faultKind? k.number = some k := by cases k <;> rfl

/-! ### The book -/

/-- A trim removes the longest run of FINAL entries at or below the number from the oldest end. -/
theorem trimList_eq (n : Nat) (l : List Entry) :
    trimList n l = (l.takeWhile (fun e => decide (e.seq ≤ n) && e.final), l.dropWhile fun e => decide (e.seq ≤ n) && e.final) := by
  induction l with
  | nil => rfl
  | cons e es ih =>
    by_cases h : e.seq ≤ n ∧ e.final = true
    · simp [trimList, ih, h.1, h.2]
    · have h' : (decide (e.seq ≤ n) && e.final) = false := by
        rw [← Bool.not_eq_true, Bool.and_eq_true, decide_eq_true_eq]; exact h
      simp [trimList, h, h']

/-- The first entry that meets the test is changed in its place. -/
theorem reviseFirst_at (p : Entry → Bool) (f : Entry → Entry) (pre post : List Entry) (e : Entry)
    (before : ∀ x ∈ pre, p x = false) (here : p e = true) :
    reviseFirst p f (pre ++ e :: post) = (pre ++ f e :: post, (f e).amount - e.amount) := by
  induction pre with
  | nil => simp [reviseFirst, here]
  | cons x xs ih =>
    have hx : p x = false := before x (by simp)
    simp [reviseFirst, hx, ih fun y hy => before y (by simp [hy])]

/-! ### The order table -/

/-- With a free slot, the slot an order takes is one no order has. -/
theorem freeSlot_fresh (s : State) (free : s.orders.length < 24) : ∀ o ∈ s.orders, o.slot ≠ s.freeSlot := by
  have some_free : ∃ n, n ∈ List.range 24 ∧ (!s.orders.any fun o => o.slot == n) = true := by
    by_contra no
    push Not at no
    have sub : (List.range 24).toFinset ⊆ (s.orders.map Order.slot).toFinset := by
      intro n hn
      have := no n (by simpa using hn)
      simp only [ne_eq, Bool.not_eq_true, Bool.not_eq_false', List.any_eq_true, beq_iff_eq] at this
      obtain ⟨o, ho, e⟩ := this
      simp only [List.mem_toFinset, List.mem_map]
      exact ⟨o, ho, e⟩
    have card := Finset.card_le_card sub
    rw [List.toFinset_card_of_nodup (List.nodup_range)] at card
    have := List.toFinset_card_le (s.orders.map Order.slot)
    simp at card this
    omega
  obtain ⟨n, hn, hp⟩ := some_free
  intro o ho e
  cases f : (List.range 24).find? fun n => !s.orders.any fun o => o.slot == n with
  | none =>
    rw [List.find?_eq_none] at f
    exact f n hn hp
  | some m =>
    have hm := List.find?_some f
    have em : s.freeSlot = m := by unfold State.freeSlot Config.orderSlots; rw [f]; rfl
    simp only [Bool.not_eq_true', List.any_eq_false, beq_iff_eq] at hm
    exact hm o ho (e.trans em)

/-! ### The wait list -/

/-- The walk leaves only claims it was given, and touches only the zones, the list and the mail. -/
theorem walkWaits_only (older cs : List Claim) (s : State) :
    walkWaits older cs s =
      { s with holders := (walkWaits older cs s).holders, waits := (walkWaits older cs s).waits,
               mail := (walkWaits older cs s).mail } ∧
    ∀ c ∈ (walkWaits older cs s).waits, c ∈ older ∨ c ∈ cs := by
  induction cs generalizing older s with
  | nil => exact ⟨rfl, fun c h => .inl h⟩
  | cons c cs ih =>
    unfold walkWaits
    split
    · obtain ⟨a, b⟩ := ih older (s.grantClaim c)
      refine ⟨?_, fun x hx => (b x hx).imp id fun h => List.mem_cons_of_mem _ h⟩
      rw [a]; rfl
    · obtain ⟨a, b⟩ := ih (older ++ [c]) s
      refine ⟨a, fun x hx => ?_⟩
      rcases b x hx with h | h
      · rcases List.mem_append.1 h with h | h
        · exact .inl h
        · exact .inr (List.mem_cons.2 (.inl (List.mem_singleton.1 h)))
      · exact .inr (List.mem_cons_of_mem _ h)

/-- The examination of the wait list leaves only claims that waited, and touches only the zones, the list and the
mail. -/
theorem examine_only (s : State) :
    s.examine = { s with holders := s.examine.holders, waits := s.examine.waits, mail := s.examine.mail } ∧
    ∀ c ∈ s.examine.waits, c ∈ s.waits := by
  obtain ⟨a, b⟩ := walkWaits_only [] s.waits s
  exact ⟨a, fun c h => by simpa using b c h⟩

/-! ### The values of a window, a mean -/

/-- The rounded quotient is a nearest one, and of two it is the one further from zero. -/
theorem roundDiv_nearest (n : Int) (d : Nat) (hd : 0 < d) :
    2 * (roundDiv n d * d - n).natAbs ≤ d ∧
    (2 * (roundDiv n d * d - n).natAbs = d → n.natAbs ≤ (roundDiv n d * d).natAbs) := by
  have aux : ∀ m : Int, 0 ≤ m → ∃ r : Int, 0 ≤ r ∧ r < 2 * d ∧ 0 ≤ (2 * m + d) / (2 * d) * d ∧
      2 * ((2 * m + d) / (2 * d) * d) = 2 * m + d - r := by
    intro m hm
    refine ⟨(2 * m + d) % (2 * d), Int.emod_nonneg _ (by omega), Int.emod_lt_of_pos _ (by omega),
      mul_nonneg (Int.ediv_nonneg (by omega) (by omega)) (by omega), ?_⟩
    have := Int.mul_ediv_add_emod (2 * m + d) (2 * d)
    linarith [this, mul_comm ((2 * m + d) / (2 * (d : Int))) (2 * (d : Int)), mul_assoc (2 : Int) (d : Int) ((2 * m + d) / (2 * d)),
      mul_comm (d : Int) ((2 * m + d) / (2 * d))]
  unfold roundDiv
  split
  · obtain ⟨r, h0, h1, h2, h3⟩ := aux n ‹_›
    omega
  · obtain ⟨r, h0, h1, h2, h3⟩ := aux (-n) (by omega)
    rw [neg_mul]
    omega

/-- The greatest of a list is in it and no less than any of it. -/
theorem foldl_max_spec (xs : List Int) : ∀ x : Int, xs.foldl max x ∈ x :: xs ∧ ∀ y ∈ x :: xs, y ≤ xs.foldl max x := by
  induction xs with
  | nil => simp
  | cons a as ih =>
    intro x
    obtain ⟨hm, hb⟩ := ih (max x a)
    simp only [List.foldl_cons, List.mem_cons] at hm hb ⊢
    refine ⟨?_, ?_⟩
    · rcases hm with h | h
      · rw [h]; rcases max_choice x a with e | e <;> rw [e] <;> simp
      · exact .inr (.inr h)
    · have h := hb _ (.inl rfl)
      rintro y (rfl | rfl | hy)
      · exact (le_max_left _ _).trans h
      · exact (le_max_right _ _).trans h
      · exact hb y (.inr hy)

/-- The least of a list is in it and no greater than any of it. -/
theorem foldl_min_spec (xs : List Int) : ∀ x : Int, xs.foldl min x ∈ x :: xs ∧ ∀ y ∈ x :: xs, xs.foldl min x ≤ y := by
  induction xs with
  | nil => simp
  | cons a as ih =>
    intro x
    obtain ⟨hm, hb⟩ := ih (min x a)
    simp only [List.foldl_cons, List.mem_cons] at hm hb ⊢
    refine ⟨?_, ?_⟩
    · rcases hm with h | h
      · rw [h]; rcases min_choice x a with e | e <;> rw [e] <;> simp
      · exact .inr (.inr h)
    · have h := hb _ (.inl rfl)
      rintro y (rfl | rfl | hy)
      · exact h.trans (min_le_left _ _)
      · exact h.trans (min_le_right _ _)
      · exact hb y (.inr hy)

/-- The spread is the greatest difference between two of the list. -/
theorem spreadOf_eq (w : List Int) (d : Nat) (hx : ∃ a ∈ w, ∃ b ∈ w, a - b = d) (hb : ∀ a ∈ w, ∀ b ∈ w, a - b ≤ d) :
    spreadOf w = d := by
  match w with
  | [] => simp at hx
  | x :: xs =>
    obtain ⟨a, ha, b, hb', e⟩ := hx
    have h1 := foldl_max_spec xs x
    have h2 := foldl_min_spec xs x
    have := hb _ h1.1 _ h2.1
    have := h1.2 a ha
    have := h2.2 b hb'
    simp only [spreadOf, listMax, listMin]
    omega

end Sys2Proof.Machine
end

