-- ==== Sys2Proof/Laws/Claims.lean ====
section
/-! SUPPORT. The Zone Arbiter said once: the test of a claim is the three conditions of R90, what the arrival of a claim
does (R89), what an examination of the wait list grants and leaves (R92). -/

namespace Sys2Proof.Machine

/-- What a test on every zone says of one. -/
theorem zones_all (p : Fin 12 → Bool) : zones.all p = true ↔ ∀ z, p z = true :=
  ⟨fun h z => List.all_eq_true.mp h z (by revert z; decide), fun h => List.all_eq_true.mpr fun z _ => h z⟩

/-- The model's test of a claim is the three conditions of R90. -/
theorem grantable_iff (s : State) (c : Claim) : s.grantable c = true ↔ mayGrant s.holders s.kept.surfaces c := by
  unfold State.grantable State.spanFree State.runwayOk State.cleanOk inSpan
  simp only [Bool.and_eq_true, Bool.or_eq_true, zones_all, beq_iff_eq, Bool.not_eq_true', decide_eq_false_iff_not, mayGrant]
  rw [and_assoc]
  refine and_congr (forall_congr' fun z => ?_) (and_congr (forall_congr' fun z => ?_) ?_)
  · tauto
  · rcases e : s.holders[z] with _ | j
    · simp
    · simp only [Option.some.injEq, forall_eq']
      split
      · simp; omega
      · split
        · simp; omega
        · simp; omega
  · constructor
    · intro h k z a b
      rcases h with h | h
      · rw [h] at k; cases k
      · rcases h z with x | x
        · exact absurd ⟨a, b⟩ x
        · exact x
    · intro h
      cases k : c.clean
      · exact .inl rfl
      · refine .inr fun z => ?_
        by_cases x : c.first ≤ zoneNo z ∧ zoneNo z ≤ c.last
        · exact .inr (h k z x.1 x.2)
        · exact .inl x

theorem overlapsAny_false (c : Claim) (l : List Claim) : overlapsAny c l = false ↔ ∀ w ∈ l, ¬w.meets c := by
  simp [overlapsAny, spansMeet, Claim.meets]

/-- What one walk over a list of claims grants and leaves, `older` being the claims that stay. -/
theorem walkWaits_says (cs older : List Claim) (s : State) :
    ∃ (held : Nat → Vector (Option Hoist) 12) (granted : Nat → Bool), held 0 = s.holders ∧
      (∀ k c, cs[k]? = some c →
        (granted k = true ↔ mayGrant (held k) s.kept.surfaces c ∧ (∀ w ∈ older, ¬w.meets c) ∧
          ∀ j d, j < k → cs[j]? = some d → granted j = false → ¬d.meets c) ∧
        ∀ z : Fin 12, (held (k + 1))[z] =
          if granted k = true ∧ c.first ≤ zoneNo z ∧ zoneNo z ≤ c.last then some c.hoist else (held k)[z]) ∧
      (walkWaits older cs s).holders = held cs.length ∧
      (walkWaits older cs s).waits = older ++ (cs.zipIdx.filter fun x => !granted x.2).map Prod.fst ∧
      ∀ h : Hoist, (walkWaits older cs s).mail[h] = { s.mail[h] with
        grants := s.mail[h].grants ++ (cs.zipIdx.filter fun x => granted x.2 && x.1.hoist == h).map fun x => x.1.answer } := by
  induction cs generalizing older s with
  | nil => exact ⟨fun _ => s.holders, fun _ => false, rfl, by simp, rfl, by simp [walkWaits], fun h => by simp [walkWaits]⟩
  | cons c cs ih =>
    have test : (s.grantable c && !overlapsAny c older) = true ↔
        mayGrant s.holders s.kept.surfaces c ∧ ∀ w ∈ older, ¬w.meets c := by
      rw [Bool.and_eq_true, Bool.not_eq_true', overlapsAny_false, grantable_iff]
    unfold walkWaits
    split
    · rename_i g
      obtain ⟨held, granted, a, b, e, w, m⟩ := ih older (s.grantClaim c)
      refine ⟨fun | 0 => s.holders | k + 1 => held k, fun | 0 => true | k + 1 => granted k, rfl, ?_, e, ?_, fun h => ?_⟩
      · intro k d hk
        cases k with
        | zero =>
          simp only [List.getElem?_cons_zero, Option.some.injEq] at hk
          subst hk
          refine ⟨?_, fun z => ?_⟩
          · have := test.1 g
            simpa using this
          · simp only [a, State.grantClaim, modMail_holders, true_and, zoneNo]
            simp
        | succ k =>
          simp only [List.getElem?_cons_succ] at hk
          obtain ⟨x, y⟩ := b k d hk
          refine ⟨?_, y⟩
          refine x.trans (and_congr Iff.rfl (and_congr Iff.rfl ⟨fun q j d' lt e' f => ?_, fun q j d' lt e' f => ?_⟩))
          · cases j with
            | zero => cases f
            | succ j => exact q j d' (by omega) (by simpa using e') f
          · exact q (j + 1) d' (by omega) (by simpa using e') f
      · rw [w, List.zipIdx_cons']
        simp [List.filter_map, Function.comp_def]
      · rw [m h, List.zipIdx_cons']
        by_cases e : h = c.hoist
        · subst e
          simp [State.grantClaim, List.filter_map, Function.comp_def]
        · have n : (c.hoist == h) = false := by simpa using fun x : c.hoist = h => e x.symm
          have f : (c.hoist : Nat) ≠ h := fun x => e (Fin.ext x.symm)
          simp [State.grantClaim, List.filter_map, Function.comp_def, n, Vector.getElem_set_ne _ _ f]
    · rename_i g
      obtain ⟨held, granted, a, b, e, w, m⟩ := ih (older ++ [c]) s
      refine ⟨fun | 0 => s.holders | k + 1 => held k, fun | 0 => false | k + 1 => granted k, rfl, ?_, e, ?_, fun h => ?_⟩
      · intro k d hk
        cases k with
        | zero =>
          simp only [List.getElem?_cons_zero, Option.some.injEq] at hk
          subst hk
          refine ⟨?_, fun z => ?_⟩
          · rw [test] at g
            simpa using g
          · simp [a]
        | succ k =>
          simp only [List.getElem?_cons_succ] at hk
          obtain ⟨x, y⟩ := b k d hk
          refine ⟨?_, y⟩
          refine x.trans (and_congr Iff.rfl ?_)
          constructor
          · rintro ⟨p, q⟩
            refine ⟨fun w hw => p w (by simp [hw]), fun j d' lt e' f => ?_⟩
            cases j with
            | zero =>
              simp only [List.getElem?_cons_zero, Option.some.injEq] at e'
              subst e'
              exact p _ (by simp)
            | succ j => exact q j d' (by omega) (by simpa using e') f
          · rintro ⟨p, q⟩
            refine ⟨fun w hw => ?_, fun j d' lt e' f => q (j + 1) d' (by omega) (by simpa using e') f⟩
            rcases List.mem_append.1 hw with hw | hw
            · exact p w hw
            · rw [List.mem_singleton.1 hw]
              exact q 0 c (by omega) (by simp) rfl
      · rw [w, List.zipIdx_cons']
        simp [List.filter_map, Function.comp_def]
      · rw [m h, List.zipIdx_cons']
        simp [List.filter_map, Function.comp_def]

/-- What the examination of the wait list grants and leaves (R92). -/
theorem examine_says (s : State) : Examined s s.examine := by
  obtain ⟨held, granted, a, b, e, w, m⟩ := walkWaits_says s.waits [] s
  have k : s.examine.kept = s.kept := by rw [(examine_only s).1]
  refine ⟨held, granted, a, ?_, e, by simpa [State.examine] using w, m⟩
  rw [k]
  simpa using b

/-- What the arrival of a claim does (R89). -/
theorem claimArrival_says (s : State) (h : Hoist) (tag : Nat) (pass : Pass) (p : PassRec) :
    ClaimArrives s (s.claimArrival h tag pass p)
      { hoist := h, tag := tag, pass := pass, first := p.first, last := p.last, clean := (s.kept.profileOf p).clean,
        arrival := s.kept.runtime, alerted := false, serial := s.nextSerial } := by
  unfold State.claimArrival
  dsimp only
  split
  · rename_i g
    rw [Bool.and_eq_true, Bool.not_eq_true', overlapsAny_false, grantable_iff] at g
    refine ⟨fun _ => ⟨rfl, by simp [State.grantClaim], fun z => ?_⟩, fun n => absurd g n⟩
    simp [State.grantClaim, zoneNo]
  · rename_i g
    rw [Bool.and_eq_true, Bool.not_eq_true', overlapsAny_false, grantable_iff] at g
    exact ⟨fun y => absurd y g, fun _ => ⟨rfl, rfl, rfl⟩⟩

end Sys2Proof.Machine
end

