-- ==== Sys2Proof/Laws/Requests.lean ====
section
/-! SUPPORT. A request and its bytes agree: the payload of a well-formed request has a length its kind takes and reads
back as that request, with every operand at every value the wire carries; the bytes of its frame, received one by one,
carry out its row (R189 to R192). -/

namespace Sys2Proof.Machine

/-! ### Fields and numbers -/

theorem fN_one (n : Nat) : Field.bytes (fN 1 n) = [BitVec.ofNat 8 n] := by simp [Field.bytes, fN, bytesOf]
/-- A byte of a natural number. -/
theorem byte_of_nat (n k : Nat) : BitVec.ofInt 8 ((n : Int) / (k : Int)) = BitVec.ofNat 8 (n / k) := by
  rw [← Int.natCast_ediv, BitVec.ofInt_natCast]
theorem fN_two (n : Nat) : Field.bytes (fN 2 n) = [BitVec.ofNat 8 n, BitVec.ofNat 8 (n / 256)] := by
  change [BitVec.ofInt 8 ((n : Int) / (1 : Nat)), BitVec.ofInt 8 ((n : Int) / (256 : Nat))] = _
  simp only [byte_of_nat, Nat.div_one]
theorem fN_four (n : Nat) : Field.bytes (fN 4 n) =
    [BitVec.ofNat 8 n, BitVec.ofNat 8 (n / 256), BitVec.ofNat 8 (n / 65536), BitVec.ofNat 8 (n / 16777216)] := by
  change [BitVec.ofInt 8 ((n : Int) / (1 : Nat)), BitVec.ofInt 8 ((n : Int) / (256 : Nat)),
    BitVec.ofInt 8 ((n : Int) / (65536 : Nat)), BitVec.ofInt 8 ((n : Int) / (16777216 : Nat))] = _
  simp only [byte_of_nat, Nat.div_one]
theorem signed_bytes (v : Int) : Field.bytes (4, v) =
    [BitVec.ofInt 8 v, BitVec.ofInt 8 (v / 256), BitVec.ofInt 8 (v / 65536), BitVec.ofInt 8 (v / 16777216)] := by
  simp [Field.bytes, bytesOf, List.range_succ]

theorem natOf_one (n : Nat) (h : n < 256) : natOf [BitVec.ofNat 8 n] = n := by
  simp only [natOf, BitVec.toNat_ofNat]; omega
theorem natOf_two (n : Nat) (h : n < 65536) : natOf [BitVec.ofNat 8 n, BitVec.ofNat 8 (n / 256)] = n := by
  simp only [natOf, BitVec.toNat_ofNat]; omega
theorem natOf_four (n : Nat) (h : n < 4294967296) :
    natOf [BitVec.ofNat 8 n, BitVec.ofNat 8 (n / 256), BitVec.ofNat 8 (n / 65536), BitVec.ofNat 8 (n / 16777216)] =
      n := by
  simp only [natOf, BitVec.toNat_ofNat]; omega
/-- Four bytes of a signed number read back in two's complement. -/
theorem signed_four (v : Int) (h : -2147483648 ≤ v ∧ v ≤ 2147483647) :
    signed (natOf [BitVec.ofInt 8 v, BitVec.ofInt 8 (v / 256), BitVec.ofInt 8 (v / 65536),
      BitVec.ofInt 8 (v / 16777216)]) = v := by
  simp only [signed, natOf, BitVec.toNat_ofInt]
  split <;> omega

/-- A byte string sent as fields of one byte each is itself. -/
theorem fBytes_bytes (p : List Byte) : (fBytes p).flatMap Field.bytes = p := by
  induction p with
  | nil => rfl
  | cons b bs ih =>
    have e : Field.bytes (fN 1 b.toNat) = [b] := by simp [fN_one]
    simp only [fBytes, List.map_cons, List.flatMap_cons] at ih ⊢
    change Field.bytes (fN 1 b.toNat) ++ _ = _
    simp [e, ih]

/-! ### The payload of every request -/

theorem vector_four {α : Type} (x : Vector α 4) : ∃ a b c d, x = #v[a, b, c, d] :=
  ⟨x[0], x[1], x[2], x[3], by ext i h; interval_cases i <;> rfl⟩
theorem vector_six {α : Type} (x : Vector α 6) : ∃ a b c d e f, x = #v[a, b, c, d, e, f] :=
  ⟨x[0], x[1], x[2], x[3], x[4], x[5], by ext i h; interval_cases i <;> rfl⟩

/-- The payload of a well-formed request has a length its kind takes and spells that request. -/
theorem requestOf_requestPayload (i : Instr) (k : ReqKind) (fs : List Field) (t : Nat) (wf : i.wf = true)
    (e : requestFields i = some (k, fs)) (ht : i.linkTag? = some t) :
    k.lengthOk (requestPayload fs).length = true ∧ requestOf k t (requestPayload fs) = i := by
  cases i <;> simp only [requestFields, Instr.linkTag?, reduceCtorEq, Option.some.injEq, Prod.mk.injEq] at e ht <;>
    obtain ⟨rfl, rfl⟩ := e <;> subst ht
  case feederRelay tag k p =>
    simp only [Instr.wf, Instr.operandsOk, u8, payloadOk, Bool.and_eq_true, decide_eq_true_eq] at wf
    simp [requestPayload, fN_one, requestOf, num, natOf_one, wf, fBytes_bytes, ReqKind.lengthOk, within]
    omega
  case bookPost tag k m n =>
    simp only [Instr.wf, Instr.operandsOk, u8, i32, Bool.and_eq_true, decide_eq_true_eq] at wf
    simp [requestPayload, fN_one, signed_bytes, requestOf, sint, num, natOf_one, signed_four, wf, ReqKind.lengthOk]
  case weighSetup tag v =>
    rcases v with _ | ⟨mode, slots, followed, l, calib⟩
    · simp [requestPayload, requestOf, ReqKind.lengthOk, carried]
    · obtain ⟨a, b, c, d, rfl⟩ := vector_four slots
      obtain ⟨⟨z1, n1⟩, ⟨z2, n2⟩, ⟨z3, n3⟩, ⟨z4, n4⟩, rfl⟩ := vector_four calib
      simp only [Instr.wf, Instr.operandsOk, u8, u16, u32, i32, WeighFields.wf, WeighLimits.wf, Option.map_some,
        Option.getD_some, Bool.and_eq_true, decide_eq_true_eq, Vector.toList_mk, List.all_cons, List.all_nil] at wf
      simp [requestPayload, weighSetFields, hoists, fN_one, fN_two, fN_four, signed_bytes, requestOf, weighOf, limitsOf,
        calibrationAt, sint, num, natOf_one, natOf_two, natOf_four, signed_four, ReqKind.lengthOk, carried, wf]
  case orderPost tag p =>
    obtain ⟨_, _, _, _, ⟨_, _, _, _, _⟩, _ | ⟨_, _, _, _, _⟩⟩ := p <;>
    simp only [Instr.wf, Instr.operandsOk, u8, u16, u32, Bool.and_eq_true, decide_eq_true_eq, PostFields.wf, PassRec.wf,
      Option.map_some, Option.getD_some, Option.map_none, Option.getD_none] at wf <;>
    simp [requestPayload, passFields, fN_one, fN_two, fN_four, requestOf, postOf, passAt, num, ReqKind.lengthOk, natOf_one,
      natOf_two, natOf_four, wf]
  case faultSetup tag k b =>
    cases b <;>
    simp only [Instr.wf, Instr.operandsOk, u8, u16, Bool.and_eq_true, decide_eq_true_eq, FaultSetupBody.wf] at wf <;>
    simp [requestPayload, faultBodyFields, faultBodyOf, fN_one, fN_two, requestOf, num, ReqKind.lengthOk, natOf_one,
      natOf_two, wf]
  case noticeSetup tag v =>
    rcases v with _ | x
    · simp [requestPayload, requestOf, ReqKind.lengthOk, carried]
    · obtain ⟨a, b, c, d, e, f, rfl⟩ := vector_six x
      simp only [Instr.wf, Instr.operandsOk, u8, Option.map_some, Option.getD_some, Bool.and_eq_true, decide_eq_true_eq,
        Vector.toList_mk, List.all_cons, List.all_nil] at wf
      simp [requestPayload, fN_one, requestOf, num, natOf_one, ReqKind.lengthOk, carried, enablesOf, wf]
  case' cycleSetup tag v | kettleSetup tag v | levelSetup tag v | driveSetup tag v | feedSetup tag v | levelRead tag v
    | faultList tag v => cases v
  all_goals
    simp only [Instr.wf, Instr.operandsOk, u8, u16, u32, Bool.and_eq_true, decide_eq_true_eq, CycleSet.wf, KettleSet.wf,
      LevelSet.wf, DriveSet.wf, FeedFields.wf, BenchFields.wf, ProfileFields.wf, Option.map_some, Option.getD_some] at wf
  all_goals
    simp [requestPayload, fN_one, fN_two, fN_four, requestOf, num, ReqKind.lengthOk, natOf_one, natOf_two, natOf_four, wf,
      carried, cycleFields, kettleFields, levelSetFields, driveFields, cycleOf, kettleOf, levelOf, driveOf, feedOf,
      benchOf, profileOf]

/-! ### The bytes of a frame received one by one -/

/-- A byte of a frame that is not its last joins the frame being built. -/
theorem receive_more (start : Byte) (header payload check pre rest : List Byte) (b : Byte)
    (len : (header.getD (header.length - 1) 0).toNat = payload.length) (one : 1 ≤ header.length)
    (max : payload.length ≤ 240) (two : check.length = 2) (split : header ++ payload ++ check = pre ++ b :: rest)
    (more : rest ≠ []) :
    receive start header.length (start :: pre) b = (start :: pre ++ [b], .nothing) := by
  have total := congrArg List.length split
  have pos := List.length_pos_of_ne_nil more
  simp only [List.length_append, List.length_cons] at total
  have n : (pre ++ [b]).length = pre.length + 1 := by simp
  have at_len : header.length ≤ pre.length + 1 →
      ((pre ++ [b]).getD (header.length - 1) 0).toNat = payload.length := by
    intro le
    have e : (pre ++ [b]).getD (header.length - 1) 0 = (header ++ payload ++ check).getD (header.length - 1) 0 := by
      rw [split, show pre ++ b :: rest = pre ++ [b] ++ rest by simp, List.getD_append (pre ++ [b]) rest _ _ (by omega)]
    rw [e, List.append_assoc, List.getD_append _ _ _ _ (by omega), len]
  unfold receive
  dsimp only
  rw [if_neg, if_neg]
  · rw [Bool.and_eq_true, beq_iff_eq, decide_eq_true_eq, n]
    rintro ⟨x, y⟩
    rw [at_len y] at x; omega
  · rw [Bool.and_eq_true, beq_iff_eq, decide_eq_true_eq, n]
    rintro ⟨x, y⟩
    rw [at_len (by omega), Config.maxPayload] at y; omega

/-- The last byte of a frame with its check makes the frame. -/
theorem receive_last (start : Byte) (header payload pre : List Byte) (b : Byte)
    (len : (header.getD (header.length - 1) 0).toNat = payload.length) (one : 1 ≤ header.length)
    (split : header ++ payload ++ checkBytes (header ++ payload) = pre ++ [b]) :
    receive start header.length (start :: pre) b = ([], .frame header payload) := by
  have n : (pre ++ [b]).length = header.length + payload.length + 2 := by
    rw [← split]; simp [checkBytes, Nat.add_assoc]
  have l : ((pre ++ [b]).getD (header.length - 1) 0).toNat = payload.length := by
    rw [← split, List.append_assoc, List.getD_append _ _ _ _ (by omega), len]
  have t : (pre ++ [b]).take (header.length + payload.length) = header ++ payload := by
    rw [← split, List.take_append_of_le_length (by simp), ← List.length_append, List.take_length]
  have d : (pre ++ [b]).drop (header.length + payload.length) = checkBytes (header ++ payload) := by
    rw [← split, List.drop_append_of_le_length (by simp), ← List.length_append, List.drop_length]; rfl
  unfold receive
  dsimp only
  rw [l, n, if_neg, if_pos, t, d]
  · simp
  · simp; omega
  · simp; omega

/-- The frame being built, whatever else the part holds. -/
def building (s : State) (pre : List Byte) : State := s.modLink fun l => { l with rx := 0xC3 :: pre }

theorem building_more (s : State) (pre : List Byte) (b : Byte)
    (e : receive 0xC3 3 (0xC3 :: pre) b = (0xC3 :: pre ++ [b], .nothing)) :
    (building s pre).linkByte b = building s (pre ++ [b]) := by
  have r : receive Config.linkStart 3 (building s pre).link.rx b = (0xC3 :: pre ++ [b], .nothing) := e
  unfold State.linkByte
  rw [r]; rfl

theorem building_last (s : State) (pre header payload : List Byte) (b : Byte) (rx : s.link.rx = [])
    (e : receive 0xC3 3 (0xC3 :: pre) b = ([], .frame header payload)) :
    (building s pre).linkByte b = s.judgeFrame (header.getD 0 0).toNat (header.getD 1 0).toNat payload := by
  have r : receive Config.linkStart 3 (building s pre).link.rx b = ([], .frame header payload) := e
  have same : ((building s pre).modLink fun l => { l with rx := [] }) = s := by
    obtain ⟨_, _, _, _, ⟨⟩⟩ := s; simp_all [building, State.modLink]
  unfold State.linkByte
  rw [r]; dsimp only
  rw [same]

/-- The bytes of a whole frame with its check: the frame is judged. -/
theorem linkBytes_frame (s : State) (k t l : Byte) (payload : List Byte) (len : l.toNat = payload.length)
    (max : payload.length ≤ 240) (rx : s.link.rx = []) :
    (frameBytes 0xC3 [k, t, l] payload).foldl State.linkByte s = s.judgeFrame k.toNat t.toNat payload := by
  have built : ∀ (rest pre : List Byte) (b : Byte),
      [k, t, l] ++ payload ++ checkBytes ([k, t, l] ++ payload) = pre ++ rest ++ [b] →
      (rest ++ [b]).foldl State.linkByte (building s pre) = s.judgeFrame k.toNat t.toNat payload := by
    intro rest
    induction rest with
    | nil =>
      intro pre b e
      exact building_last s pre [k, t, l] payload b rx
        (receive_last 0xC3 [k, t, l] payload pre b (by simpa using len) (by simp) (by simpa using e))
    | cons c cs ih =>
      intro pre b e
      have f := receive_more 0xC3 [k, t, l] payload (checkBytes ([k, t, l] ++ payload)) pre (cs ++ [b]) c
        (by simpa using len) (by simp) max (by simp [checkBytes]) (by simpa using e) (by simp)
      rw [List.cons_append, List.foldl_cons, building_more s pre c f]
      exact ih (pre ++ [c]) b (by simpa using e)
  have first : s.linkByte 0xC3 = building s [] := by
    unfold State.linkByte; rw [rx]; rfl
  rw [frameBytes, List.foldl_cons, first]
  refine Eq.trans (congrArg (fun x => List.foldl State.linkByte (building s []) x) ?_)
    (built (([k, t, l] ++ payload ++ [(crc ([k, t, l] ++ payload) >>> 8).setWidth 8])) []
      ((crc ([k, t, l] ++ payload)).setWidth 8) ?_) <;> simp [checkBytes]

/-- The bytes of the frame of a well-formed request, the part listening: its row is carried out. -/
theorem linkBytes_request (s : State) (i : Instr) (k : ReqKind) (fs : List Field) (t : Nat) (wf : i.wf = true)
    (e : requestFields i = some (k, fs)) (ht : i.linkTag? = some t) (rx : s.link.rx = []) (full : s.linkFull = false) :
    (requestFrame k t (requestPayload fs)).foldl State.linkByte s = s.carryOut i := by
  obtain ⟨ok, same⟩ := requestOf_requestPayload i k fs t wf e ht
  have lt : t < 256 := by
    simp only [Instr.wf, ht, Option.map_some, Option.getD_some, Bool.and_eq_true, u8, decide_eq_true_eq] at wf
    exact wf.1
  have short : (requestPayload fs).length ≤ 240 := by
    generalize (requestPayload fs).length = n at ok
    cases k <;> simp [ReqKind.lengthOk, within] at ok <;> omega
  have one (n : Nat) : bytesOf 1 n = [BitVec.ofNat 8 n] := fN_one n
  unfold requestFrame
  rw [one, one, one]
  have f := linkBytes_frame s (BitVec.ofNat 8 k.code) (BitVec.ofNat 8 t) (BitVec.ofNat 8 (requestPayload fs).length)
    (requestPayload fs) (by simp; omega) short rx
  have c : k.code % 256 = k.code ∧ reqKind? k.code = some k := by cases k <;> decide
  simp only [BitVec.toNat_ofNat, Nat.mod_eq_of_lt lt, c.1] at f
  refine Eq.trans f ?_
  simp [State.judgeFrame, full, c.2, ok, same]

/-- What a received request does is what its row does. -/
theorem exec_request (s : State) (i : Instr) (t : Nat) (ht : i.linkTag? = some t) : exec i s = .next (s.carryOut i) := by
  cases i <;> first | rfl | cases ht

end Sys2Proof.Machine
end

