-- ==== Sys2Proof/Laws/Settle.lean ====
section
/-! SUPPORT. The end of a step said once: an empty agenda is nothing to do; an agenda of absent conditions and of take
attempts without an order leaves only the conditions' values; the transmitter moves a reply or begins a notice and
nothing else; a request answered is its owner's state with the reply; a reaction below HOLD is its notice alone, and what
a second occurrence applies. -/

namespace Sys2Proof.Machine

/-! ### The agenda -/

theorem settle_of_empty (s : State) (h : s.agenda = Agenda.empty) : s.settle = s := by
  unfold State.settle
  cases e : Config.agendaBound with
  | zero => rfl
  | succ n => simp [settleFor, h]

/-- A report of a condition that is not present. -/
def FaultReport.absent : FaultReport → Bool
  | .cond _ _ present => !present
  | .occur _ _ => false

/-- The condition values after a list of reports. -/
def keepReports (entries : Vector FaultEntry 14) : List FaultReport → Vector FaultEntry 14
  | [] => entries
  | .cond k h present :: rs => keepReports (entries.set k.ix (entries[k.ix].keepValue h present)) rs
  | .occur _ _ :: rs => keepReports entries rs

/-- No order waits for the hoist. -/
def Follow.idle (s : State) : Follow → Prop
  | .take h => s.offered h = none
  | .rehang _ => False

theorem idle_of_orders (s t : State) (x : Follow) (e : t.orders = s.orders) (i : x.idle s) : x.idle t := by
  cases x with
  | take h => simpa [Follow.idle, State.offered, e] using i
  | rehang h => exact i

theorem settleFor_quiet (n : Nat) (s : State) (reports : List FaultReport) (follow : List Follow)
    (a : s.agenda = ⟨reports, follow⟩) (q : reports.all FaultReport.absent = true) (f : ∀ x ∈ follow, x.idle s)
    (b : reports.length + follow.length ≤ n) :
    settleFor n s = { s with entries := keepReports s.entries reports, agenda := Agenda.empty } := by
  induction n generalizing s reports follow with
  | zero =>
    have hr : reports = [] := List.eq_nil_of_length_eq_zero (by omega)
    have hf : follow = [] := List.eq_nil_of_length_eq_zero (by omega)
    subst hr; subst hf
    cases s; simp_all [settleFor, keepReports, Agenda.empty]
  | succ n ih =>
    cases reports with
    | nil =>
      cases follow with
      | nil => cases s; simp_all [settleFor, keepReports, Agenda.empty]
      | cons x xs =>
        cases x with
        | rehang h => exact (f (.rehang h) (by simp)).elim
        | take h =>
          have o : s.offered h = none := f (.take h) (by simp)
          have ne : ¬ s.agenda = Agenda.empty := by rw [a]; simp [Agenda.empty]
          have one : s.settleOne = { s with agenda := ⟨[], xs⟩ } := by
            unfold State.settleOne; rw [a]
            simp only [State.attemptTake, State.offered] at o ⊢
            simp only [o]
          simp only [settleFor, if_neg ne, one]
          rw [ih { s with agenda := ⟨[], xs⟩ } [] xs rfl rfl (fun y hy => ?_) (by simp at b ⊢; omega)]
          exact idle_of_orders s _ y rfl (f y (by simp [hy]))
    | cons r rs =>
      cases r with
      | occur k h => simp [FaultReport.absent] at q
      | cond k h present =>
        simp only [List.all_cons, Bool.and_eq_true] at q
        have p : present = false := by simpa [FaultReport.absent] using q.1
        subst p
        have ne : ¬ s.agenda = Agenda.empty := by rw [a]; simp [Agenda.empty]
        have one : s.settleOne = { s with entries := s.entries.set k.ix (s.entries[k.ix].keepValue h false),
                                          agenda := ⟨rs, follow⟩ } := by
          unfold State.settleOne; rw [a]
          simp [State.takeReport, State.modEntry]
        simp only [settleFor, if_neg ne, one]
        rw [ih _ rs follow rfl q.2 (fun y hy => ?_) (by simp at b ⊢; omega)]
        · rfl
        · exact idle_of_orders s _ y rfl (f y hy)

/-- An agenda of absent conditions and idle take attempts leaves only the conditions' values. -/
theorem settle_quiet (s : State) (reports : List FaultReport) (follow : List Follow)
    (a : s.agenda = ⟨reports, follow⟩) (q : reports.all FaultReport.absent = true) (f : ∀ x ∈ follow, x.idle s)
    (b : reports.length + follow.length ≤ 200) :
    s.settle = { s with entries := keepReports s.entries reports, agenda := Agenda.empty } :=
  settleFor_quiet _ s reports follow a q f b

theorem offered_of_noneQueued (s : State) (h : Hoist) (q : s.noneQueued) : s.offered h = none := by
  unfold State.offered
  rw [List.find?_eq_none]
  intro o ho
  simp [q o ho]

/-! ### The transmitter -/

/-- The transmitter changes only the link. -/
theorem transmit_only_link (s : State) : s.transmit = { s with link := s.transmit.link } := by
  unfold State.transmit; split <;> rfl

/-- The replies owed are the same before and after the transmitter's choice. -/
theorem transmit_owed (s : State) : s.transmit.link.owed = s.link.owed := by
  cases ht : s.link.tx with
  | some f => simp [State.transmit, ht]
  | none =>
    cases hr : s.link.replies with
    | cons r rs => simp [State.transmit, Link.owed, State.modLink, ht, hr]
    | nil =>
      cases hm : s.link.marked <;> simp [State.transmit, State.beginNotice, Link.owed, State.modLink, ht, hr, hm]

theorem transmit_held (s : State) : s.transmit.link.held = s.link.held := by
  unfold State.transmit; split <;> rfl

/-- A reply added to a link with no frame being built, and the choice after it. -/
theorem addReply_transmit (s : State) (k : ReqKind) (tag : Nat) (r : Result) (fields : List Field)
    (rx : s.link.rx = []) : (s.addReply k.code tag r fields).transmit = s.replied k tag r fields := by
  cases ht : s.link.tx <;> cases hr : s.link.replies <;>
    simp [State.transmit, State.addReply, State.modLink, State.replied, Link.withReply, ht, hr, rx]

/-! ### Requests -/

/-- A request the part takes is its owner's state, its agenda worked off, with the reply. -/
theorem request_of_listening (s : State) (k : ReqKind) (tag : Nat) (f : State → Answer) (h : s.listening) :
    s.request k tag f =
      ((f (s.modLink fun l => { l with rx := [] })).state.addReply k.code tag
        (f (s.modLink fun l => { l with rx := [] })).result (f (s.modLink fun l => { l with rx := [] })).fields).settle.transmit := by
  have full : (s.modLink fun l => { l with rx := [] }).linkFull = false := h.2
  simp only [State.request, State.received, State.whileRunning, h.1.1, if_true, full, State.finish]
  simp

/-- A request whose owner leaves nothing to do is that state with the reply. -/
theorem request_replied (s : State) (k : ReqKind) (tag : Nat) (f : State → Answer) (h : s.listening) (t : State)
    (r : Result) (fields : List Field) (e : f (s.modLink fun l => { l with rx := [] }) = ⟨t, r, fields⟩)
    (a : t.agenda = Agenda.empty) (rx : t.link.rx = []) : s.request k tag f = t.replied k tag r fields := by
  rw [request_of_listening s k tag f h, e]
  rw [settle_of_empty (t.addReply k.code tag r fields) a]
  exact addReply_transmit t k tag r fields rx

/-- A link's rx is emptied in a reply, whatever it was. -/
theorem replied_rx (s : State) (k : ReqKind) (tag : Nat) (r : Result) (fields : List Field) :
    (s.modLink fun l => { l with rx := [] }).replied k tag r fields = s.replied k tag r fields := by
  cases ht : s.link.tx <;> cases hr : s.link.replies <;> simp [State.modLink, State.replied, Link.withReply, ht, hr]

theorem whileRunning_of_ready (s : State) (f : State → State) (h : s.ready) :
    s.whileRunning f = (f s).settle.transmit := by
  simp [State.whileRunning, h.1, State.finish]

/-! ### An occurrence that reaches no dip context -/

/-- A reaction below HOLD reaches no dip context, whichever hoists are involved (R187, R188). -/
theorem react_none (r : Reaction) (c : r.code ≤ 2) (s : State) (l : List Hoist) : l.foldl (State.react r) s = s := by
  induction l with
  | nil => rfl
  | cons h hs ih =>
    have : State.react r s h = s := by cases r <;> simp_all [Reaction.code, State.react]
    rw [List.foldl_cons, this, ih]

/-- A reaction below HOLD is its notice alone (R187, R188). -/
theorem applyReaction_none (s : State) (r : Reaction) (c : r.code ≤ 2) (l : List Hoist) :
    s.applyReaction r l = s.markIf r.notifies .fault := by
  have : r ≠ .stopAll := by rintro rfl; simp [Reaction.code] at c
  unfold State.applyReaction
  simp only [if_neg this, react_none r c]

/-- An occurrence of a CLEAR kind latches it (R176, R179). -/
theorem occurrence_of_clear (s : State) (k : FaultKind) (who : Option Hoist) (c : s.entries[k.ix].state = .clear) :
    s.occurrence k who = s.latch k who := by
  have : s.entries[k.ix].latched = false := by rw [FaultEntry.latched, c]; rfl
  exact if_neg (by rw [this]; exact Bool.false_ne_true)

/-- An occurrence of a latched kind is a second one (R181). -/
theorem occurrence_of_latched (s : State) (k : FaultKind) (who : Option Hoist) (c : s.entries[k.ix].state ≠ .clear) :
    s.occurrence k who = s.secondOccurrence k who := if_pos (bne_iff_ne.2 c)

/-- A second occurrence on an entry that is not ACTIVE only counts (R181). -/
theorem secondOccurrence_of_alarm (s : State) (k : FaultKind) (who : Option Hoist) (c : s.entries[k.ix].state ≠ .active) :
    s.secondOccurrence k who =
      (s.modEntry k fun e => e.again s.kept.runtime (s.gained k who)).loadBeacon k := by
  have e : ((s.modEntry k fun e => e.again s.kept.runtime (s.gained k who)).loadBeacon k).entries[k.ix].state =
      s.entries[k.ix].state := by
    unfold State.loadBeacon
    split <;> simp [State.modEntry, FaultEntry.again]
  exact if_neg (by rw [e]; exact c)

/-- A reaction that reaches no dip context is not applied to the hoist that joins (R181). -/
theorem reactAgain_none (s : State) (k : FaultKind) (g : Option Hoist)
    (c : g = none ∨ (s.reactionOf k).code ≤ 2 ∨ s.reactionOf k = .stopAll) :
    s.reactAgain k g = s.markIf (s.reactionOf k).notifies .fault := by
  cases g with
  | none => rfl
  | some x =>
    have : (s.reactionOf k).code ≤ 2 ∨ s.reactionOf k = .stopAll := by simpa using c
    have : ∀ t : State, t.react (s.reactionOf k) x = t := by
      intro t
      rcases this with h | h
      · revert h; cases s.reactionOf k <;> simp [Reaction.code, State.react]
      · rw [h]; rfl
    have r : (s.markIf (s.reactionOf k).notifies .fault).reactionOf k = s.reactionOf k := by
      unfold State.markIf State.mark; repeat' split
      all_goals rfl
    exact (congrArg (fun q => State.react q _ x) r).trans (this _)

end Sys2Proof.Machine
end

