-- ==== Sys2Proof/Laws/Steady.lean ====
section
/-! SUPPORT. What every shared operation keeps: the reply queue, the held place and the relay as they are, and the book's
balance, the runway order and the order table in order, the settings of WEIGH_SETUP, FAULT_SETUP and NOTICE_SETUP, and the
inputs with their change latches and the INPUT mark. One lemma an operation, composed by `Steady.trans`. -/

namespace Sys2Proof.Machine

/-- The inputs, their change latches, the INPUT mark, the frame being sent and the notice enables are as before. -/
structure SameLines (s t : State) : Prop where
  inputs : t.inputs = s.inputs
  power : t.drivePower = s.drivePower
  latches : t.link.latches = s.link.latches
  powerLatch : t.link.powerLatch = s.link.powerLatch
  mark : t.link.marks[NoticeClass.input.ix] = s.link.marks[NoticeClass.input.ix]
  tx : t.link.tx = s.link.tx
  notices : t.kept.notices = s.kept.notices

theorem SameLines.refl (s : State) : SameLines s s := ⟨rfl, rfl, rfl, rfl, rfl, rfl, rfl⟩

theorem SameLines.trans {a b c : State} (x : SameLines a b) (y : SameLines b c) : SameLines a c :=
  ⟨y.inputs.trans x.inputs, y.power.trans x.power, y.latches.trans x.latches, y.powerLatch.trans x.powerLatch,
   y.mark.trans x.mark, y.tx.trans x.tx, y.notices.trans x.notices⟩

/-- The replies, the held place, the relay, the lines and the settings are as before, and the three invariants are kept. -/
structure Steady (s t : State) : Prop where
  replies : t.link.replies = s.link.replies
  held : t.link.held = s.link.held
  relay : t.feeder.relay = s.feeder.relay
  book : s.kept.balanced → t.kept.balanced
  runway : runwayOrdered s.holders → runwayOrdered t.holders
  table : ordersOk s.orders → ordersOk t.orders
  settings : t.kept.weigh = s.kept.weigh ∧ t.kept.faults = s.kept.faults
  lines : SameLines s t

theorem Steady.refl (s : State) : Steady s s := ⟨rfl, rfl, rfl, id, id, id, ⟨rfl, rfl⟩, .refl s⟩

theorem Steady.trans {a b c : State} (x : Steady a b) (y : Steady b c) : Steady a c :=
  ⟨y.replies.trans x.replies, y.held.trans x.held, y.relay.trans x.relay, y.book ∘ x.book, y.runway ∘ x.runway,
   y.table ∘ x.table, ⟨y.settings.1.trans x.settings.1, y.settings.2.trans x.settings.2⟩, x.lines.trans y.lines⟩

/-- An operation that leaves all these parts alone. -/
theorem Steady.of_eq {s t : State} (a : t.link.replies = s.link.replies) (b : t.link.held = s.link.held)
    (c : t.feeder.relay = s.feeder.relay) (d : t.kept = s.kept) (e : t.holders = s.holders)
    (f : t.orders = s.orders) (g : SameLines s t := by exact ⟨rfl, rfl, rfl, rfl, rfl, rfl, rfl⟩) : Steady s t :=
  ⟨a, b, c, by rw [d]; exact id, by rw [e]; exact id, by rw [f]; exact id, by rw [d]; exact ⟨rfl, rfl⟩, g⟩

/-- A change of the retained area that leaves the book's four values alone. -/
theorem Retained.balanced_of_eq {r r' : Retained} (a : r'.journal = r.journal) (b : r'.base = r.base)
    (c : r'.inventory = r.inventory) (d : r'.totals = r.totals) (h : r.balanced) : r'.balanced := by
  unfold Retained.balanced Retained.sumTotals at *
  rw [a, b, c, d]; exact h

theorem Steady.of_kept {s t : State} (a : t.link.replies = s.link.replies) (b : t.link.held = s.link.held)
    (c : t.feeder.relay = s.feeder.relay) (d : s.kept.balanced → t.kept.balanced) (e : t.holders = s.holders)
    (f : t.orders = s.orders) (w : t.kept.weigh = s.kept.weigh ∧ t.kept.faults = s.kept.faults := by exact ⟨rfl, rfl⟩)
    (g : SameLines s t := by exact ⟨rfl, rfl, rfl, rfl, rfl, rfl, rfl⟩) : Steady s t :=
  ⟨a, b, c, d, by rw [e]; exact id, by rw [f]; exact id, w, g⟩

/-- An operation in two branches. -/
theorem Steady.ite {p : Prop} [Decidable p] {s a b : State} (x : Steady s a) (y : Steady s b) :
    Steady s (if p then a else b) := by
  split
  · exact x
  · exact y

theorem steady_foldl {α : Type} (f : State → α → State) (hf : ∀ s x, Steady s (f s x)) (l : List α) (s : State) :
    Steady s (l.foldl f s) := by
  induction l generalizing s with
  | nil => exact .refl s
  | cons x xs ih => exact (hf s x).trans (ih (f s x))

/-! ### Updates, marks, agenda -/

theorem modCtx_steady (s : State) (h : Hoist) (f : DipCtx → DipCtx) : Steady s (s.modCtx h f) :=
  .of_eq rfl rfl rfl rfl rfl rfl
theorem modDrive_steady (s : State) (h : Hoist) (f : DriveIf → DriveIf) : Steady s (s.modDrive h f) :=
  .of_eq rfl rfl rfl rfl rfl rfl
theorem modMail_steady (s : State) (h : Hoist) (f : Mail → Mail) : Steady s (s.modMail h f) :=
  .of_eq rfl rfl rfl rfl rfl rfl
theorem modWu_steady (s : State) (f : WeighUnit → WeighUnit) : Steady s (s.modWu f) := .of_eq rfl rfl rfl rfl rfl rfl
theorem modLu_steady (s : State) (f : LevelUnit → LevelUnit) : Steady s (s.modLu f) := .of_eq rfl rfl rfl rfl rfl rfl
theorem modEntry_steady (s : State) (k : FaultKind) (f : FaultEntry → FaultEntry) : Steady s (s.modEntry k f) :=
  .of_eq rfl rfl rfl rfl rfl rfl
theorem report_steady (s : State) (r : FaultReport) : Steady s (s.report r) := .of_eq rfl rfl rfl rfl rfl rfl
theorem followUp_steady (s : State) (f : Follow) : Steady s (s.followUp f) := .of_eq rfl rfl rfl rfl rfl rfl
theorem raise_steady (s : State) (k : FaultKind) (h : Hoist) : Steady s (s.raise k h) := report_steady s _
theorem modLink_steady (s : State) (f : Link → Link) (a : (f s.link).replies = s.link.replies)
    (b : (f s.link).held = s.link.held)
    (g : SameLines s (s.modLink f) := by exact ⟨rfl, rfl, rfl, rfl, rfl, rfl, rfl⟩) : Steady s (s.modLink f) :=
  .of_eq a b rfl rfl rfl rfl g
theorem modFeeder_steady (s : State) (f : FeederLine → FeederLine) (a : (f s.feeder).relay = s.feeder.relay) :
    Steady s (s.modFeeder f) := .of_eq rfl rfl a rfl rfl rfl
theorem modKept_steady (s : State) (f : Retained → Retained) (a : s.kept.balanced → (f s.kept).balanced)
    (w : (f s.kept).weigh = s.kept.weigh ∧ (f s.kept).faults = s.kept.faults := by exact ⟨rfl, rfl⟩)
    (g : (f s.kept).notices = s.kept.notices := by rfl) : Steady s (s.modKept f) :=
  .of_kept rfl rfl rfl a rfl rfl w ⟨rfl, rfl, rfl, rfl, rfl, rfl, g⟩

/-- A mark of another class than INPUT, which only an input's change marks. -/
theorem mark_steady (s : State) (c : NoticeClass) (n : c ≠ .input := by decide) : Steady s (s.mark c) := by
  unfold State.mark; split
  · refine modLink_steady _ _ rfl rfl ⟨rfl, rfl, rfl, rfl, ?_, rfl, rfl⟩
    cases c <;> first | exact absurd rfl n | simp [State.modLink, NoticeClass.ix]
  · exact .refl s
theorem markIf_steady (s : State) (b : Bool) (c : NoticeClass) (n : c ≠ .input := by decide) :
    Steady s (s.markIf b c) := by
  unfold State.markIf; split
  · exact mark_steady s c n
  · exact .refl s
theorem takeAll_steady (s : State) : Steady s s.takeAll := steady_foldl _ (fun s _ => followUp_steady s _) _ s
theorem reportConds_steady (s : State) (h : Hoist) : Steady s (s.reportConds h) :=
  (report_steady s _).trans (report_steady _ _)

theorem setCtx_steady (s : State) (h : Hoist) (c : DipCtx) : Steady s (s.setCtx h c) := by
  unfold State.setCtx
  have m : Steady s ((s.modCtx h fun _ => { c with starved := c.starved && c.state.moving }).markIf
      (s.ctxs[h].state != c.state || s.ctxs[h].heldFrom != c.heldFrom) .hoist) :=
    (modCtx_steady s h _).trans (markIf_steady _ _ _)
  have v : Steady s (if s.ctxs[h].view = c.view then (s.modCtx h fun _ =>
        { c with starved := c.starved && c.state.moving }).markIf
        (s.ctxs[h].state != c.state || s.ctxs[h].heldFrom != c.heldFrom) .hoist
      else ((s.modCtx h fun _ => { c with starved := c.starved && c.state.moving }).markIf
        (s.ctxs[h].state != c.state || s.ctxs[h].heldFrom != c.heldFrom) .hoist).modMail h fun m =>
          { m with level := m.level ++ [.view c.view] }) :=
    .ite m (m.trans (modMail_steady _ _ _))
  exact .ite v (v.trans (modDrive_steady _ _ _))
theorem putCtx_steady (s : State) (h : Hoist) (c : DipCtx) : Steady s (s.putCtx h c) :=
  (setCtx_steady s h c).trans (reportConds_steady _ _)

/-- A change of an order that keeps its tag. -/
theorem modOrder_steady (s : State) (h : Hoist) (f : Order → Order) (hf : ∀ o, (f o).tag = o.tag) :
    Steady s (s.modOrder h f) := by
  unfold State.modOrder; split
  · refine ⟨rfl, rfl, rfl, id, id, fun ⟨a, b⟩ => ⟨by simpa using a, ?_⟩, ⟨rfl, rfl⟩,
      ⟨rfl, rfl, rfl, rfl, rfl, rfl, rfl⟩⟩
    have e : ∀ n : Nat, Order.tag ∘ (fun o : Order => if o.slot = n then f o else o) = Order.tag := by
      intro n; funext o; by_cases q : o.slot = n <;> simp [q, hf]
    simpa [List.map_map, e] using b
  · exact .refl s

/-- Orders leave the table. -/
theorem filter_steady (s : State) (p : Order → Bool) : Steady s { s with orders := s.orders.filter p } :=
  ⟨rfl, rfl, rfl, id, id, fun ⟨a, b⟩ =>
    ⟨(List.length_filter_le _ _).trans a, b.sublist (List.filter_sublist.map _)⟩, ⟨rfl, rfl⟩,
   ⟨rfl, rfl, rfl, rfl, rfl, rfl, rfl⟩⟩

/-! ### The book -/

theorem judgeNearly_steady (s : State) : Steady s s.judgeNearly := by
  unfold State.judgeNearly; repeat' split
  · exact .refl s
  · exact Steady.trans (b := { s with nearlyFull := true }) (.of_eq rfl rfl rfl rfl rfl rfl) (mark_steady _ _)
  · exact .of_eq rfl rfl rfl rfl rfl rfl
theorem grantReserve_steady (s : State) (n : Nat) : Steady s (s.grantReserve n) :=
  Steady.trans (b := { s with reserved := s.reserved + n }) (.of_eq rfl rfl rfl rfl rfl rfl) (judgeNearly_steady _)
theorem returnReserve_steady (s : State) (n : Nat) : Steady s (s.returnReserve n) := by
  unfold State.returnReserve; split
  · exact .refl s
  · exact Steady.trans (b := { s with reserved := s.reserved - n }) (.of_eq rfl rfl rfl rfl rfl rfl)
      ((judgeNearly_steady _).trans (takeAll_steady _))

/-- A kind's sum raised by an amount raises the six sums by it. -/
theorem sumTotals_addTotal (r : Retained) (k : EntryKind) (n : Nat) (x : Int) :
    (r.addTotal k n x).sumTotals = r.sumTotals + x := by
  cases k <;> simp [Retained.addTotal, Retained.sumTotals, entryKinds, EntryKind.ix, Vector.getElem_set] <;> omega

theorem write_balanced (r : Retained) (e : Entry) (h : r.balanced) : (r.write e).balanced := by
  obtain ⟨a, b⟩ := h
  have s1 : (r.write e).sumTotals = (r.addTotal e.kind 1 e.amount).sumTotals := rfl
  refine ⟨?_, ?_⟩
  · simp [Retained.write, Retained.addTotal, amounts, a]; ring
  · rw [s1, sumTotals_addTotal, b]; rfl

theorem reviseFirst_amounts (p : Entry → Bool) (f : Entry → Entry) (l : List Entry) :
    amounts (reviseFirst p f l).1 = amounts l + (reviseFirst p f l).2 := by
  induction l with
  | nil => simp [reviseFirst, amounts]
  | cons e es ih =>
    unfold reviseFirst; split
    · simp [amounts]; ring
    · simp only [amounts, List.map_cons, List.sum_cons] at ih ⊢; rw [ih]; ring

theorem revise_balanced (r : Retained) (k : EntryKind) (n : Nat) (f : Entry → Entry) (h : r.balanced) :
    (r.revise k n f).balanced := by
  obtain ⟨a, b⟩ := h
  refine ⟨?_, ?_⟩
  · have := reviseFirst_amounts (fun e => e.seq == n && !e.final && e.kind == k) f r.journal
    simp only [Retained.revise, Retained.addTotal] at this ⊢
    rw [this, a]; ring
  · have : (r.revise k n f).sumTotals = (r.addTotal k 0
      (reviseFirst (fun e => e.seq == n && !e.final && e.kind == k) f r.journal).2).sumTotals := rfl
    rw [this, sumTotals_addTotal, b]; rfl

theorem trimList_amounts (n : Nat) (l : List Entry) :
    amounts (trimList n l).1 + amounts (trimList n l).2 = amounts l := by
  induction l with
  | nil => rfl
  | cons e es ih =>
    unfold trimList; split
    · simp only [amounts, List.map_cons, List.sum_cons] at ih ⊢; rw [← ih]; ring
    · simp [amounts]

theorem trim_balanced (r : Retained) (n : Nat) (h : r.balanced) : (r.trim n).balanced := by
  obtain ⟨a, b⟩ := h
  refine ⟨?_, b⟩
  have := trimList_amounts n r.journal
  simp only [Retained.trim]; rw [a, ← this]; ring

theorem reopen_balanced (r : Retained) : r.reopen.balanced := ⟨rfl, rfl⟩

theorem interrupt_balanced (r : Retained) (h : r.balanced) :
    ({ r with journal := r.journal.map (Entry.interrupt r.runtime) } : Retained).balanced := by
  obtain ⟨a, b⟩ := h
  refine ⟨?_, b⟩
  have e : Entry.amount ∘ Entry.interrupt r.runtime = Entry.amount := by
    funext x; simp only [Function.comp, Entry.interrupt]; split <;> rfl
  simpa [amounts, List.map_map, e] using a

theorem bookFinal_steady (s : State) (k : EntryKind) (x : Int) (n : Option Nat) : Steady s (s.bookFinal k x n) :=
  (modKept_steady s _ (write_balanced _ _)).trans ((mark_steady _ _).trans (judgeNearly_steady _))
theorem writePickup_steady (s : State) (h : Hoist) (t : Nat) (p : Pass) (sp : Nat × Nat) (w : Int) (d : Nat)
    (f : EntryFlags) : Steady s (s.writePickup h t p sp w d f) := .of_kept rfl rfl rfl (write_balanced _ _) rfl rfl
theorem bookSurface_steady (s : State) (n d : Nat) : Steady s (s.bookSurface n d) :=
  modKept_steady s _ (revise_balanced _ _ _ _)
theorem finalisePickup_steady (s : State) (n : Nat) (w : Option Int) (i : Nat) (f : EntryFlags) :
    Steady s (s.finalisePickup n w i f) := (modKept_steady s _ (revise_balanced _ _ _ _)).trans (markIf_steady _ _ _)
theorem writeAddition_steady (s : State) : Steady s s.writeAddition :=
  .of_kept rfl rfl rfl (write_balanced _ _) rfl rfl
theorem raiseAddition_steady (s : State) (n c : Nat) (x : Int) : Steady s (s.raiseAddition n c x) :=
  modKept_steady s _ (revise_balanced _ _ _ _)
theorem finaliseAddition_steady (s : State) (n : Nat) (t : Option Nat) (a b : Bool) :
    Steady s (s.finaliseAddition n t a b) := (modKept_steady s _ (revise_balanced _ _ _ _)).trans (markIf_steady _ _ _)
theorem finishCutShort_steady (s : State) : Steady s s.finishCutShort := by
  unfold State.finishCutShort
  refine Steady.trans ?_ ((markIf_steady _ _ _).trans (judgeNearly_steady _))
  exact .of_kept rfl rfl rfl (interrupt_balanced _) rfl rfl

/-! ### Zones -/

theorem loadWithdrawn_steady (s : State) (a b : Nat) : Steady s (s.loadWithdrawn a b) :=
  (modKept_steady s _ (Retained.balanced_of_eq rfl rfl rfl rfl)).trans (markIf_steady _ _ _)

/-- What a test on every zone says of one. -/
theorem zone_of_all (p : Fin 12 → Bool) (h : zones.all p = true) (z : Fin 12) : p z = true := by
  have : z ∈ zones := by revert z; decide
  exact List.all_eq_true.mp h z this

/-- A grant of a grantable claim keeps the runway order (R90). -/
theorem grant_runway (s : State) (c : Claim) (g : s.grantable c = true) (h : runwayOrdered s.holders) :
    runwayOrdered (s.grantClaim c).holders := by
  simp only [State.grantable, Bool.and_eq_true] at g
  have r := fun z => zone_of_all _ g.1.2 z
  intro y z i j hy hz ij
  simp only [State.grantClaim, modMail_holders, Fin.getElem_fin, Vector.getElem_mapIdx] at hy hz
  have ry := r y; have rz := r z
  split at hy <;> split at hz
  · simp only [Option.some.injEq] at hy hz; subst hy; subst hz; omega
  · rename_i a b
    simp only [Option.some.injEq] at hy; subst hy
    simp only [Fin.getElem_fin, hz] at rz
    have : ¬ j.val < c.hoist.val := by omega
    simp only [this, ij, if_true, if_false, decide_eq_true_eq] at rz
    simp only [zoneNo] at rz ⊢; omega
  · rename_i a b
    simp only [Option.some.injEq] at hz; subst hz
    simp only [Fin.getElem_fin, hy, ij, if_true, decide_eq_true_eq] at ry
    simp only [zoneNo] at ry ⊢; omega
  · exact h y z i j hy hz ij

theorem grantClaim_steady (s : State) (c : Claim) (g : s.grantable c = true) : Steady s (s.grantClaim c) :=
  ⟨rfl, rfl, rfl, id, grant_runway s c g, id, ⟨rfl, rfl⟩, ⟨rfl, rfl, rfl, rfl, rfl, rfl, rfl⟩⟩

theorem walkWaits_steady (older cs : List Claim) (s : State) : Steady s (walkWaits older cs s) := by
  induction cs generalizing older s with
  | nil => exact .of_eq rfl rfl rfl rfl rfl rfl
  | cons c cs ih =>
    unfold walkWaits; split
    · rename_i g
      simp only [Bool.and_eq_true] at g
      exact (grantClaim_steady s c g.1).trans (ih _ _)
    · exact ih _ _
theorem examine_steady (s : State) : Steady s s.examine := walkWaits_steady _ _ s

theorem release_runway (holders : Vector (Option Hoist) 12) (h : Hoist) (r : runwayOrdered holders) :
    runwayOrdered (holders.map fun x => if x = some h then none else x) := by
  intro y z i j hy hz ij
  simp only [Fin.getElem_fin, Vector.getElem_map] at hy hz
  split at hy
  · cases hy
  · split at hz
    · cases hz
    · exact r y z i j hy hz ij
theorem release_steady (s : State) (h : Hoist) : Steady s (s.release h) := by
  unfold State.release
  refine Steady.trans ?_ (examine_steady _)
  exact ⟨rfl, rfl, rfl, id, release_runway _ h, id, ⟨rfl, rfl⟩, ⟨rfl, rfl, rfl, rfl, rfl, rfl, rfl⟩⟩
theorem withdrawClaim_steady (s : State) (h : Hoist) : Steady s (s.withdrawClaim h) := by
  unfold State.withdrawClaim; repeat' split
  · exact Steady.trans (b := { s with waits := s.waits.filter fun c => c.hoist != h }) (.of_eq rfl rfl rfl rfl rfl rfl)
      (examine_steady _)
  · exact release_steady s h
  · exact .refl s
theorem claimArrival_steady (s : State) (h : Hoist) (t : Nat) (p : Pass) (r : PassRec) :
    Steady s (s.claimArrival h t p r) := by
  unfold State.claimArrival
  refine Steady.trans (b := ({ s with nextSerial := s.nextSerial + 1 } : State).modCtx h fun x =>
    { x with claim := some s.nextSerial }) (.of_eq rfl rfl rfl rfl rfl rfl) ?_
  dsimp only; split
  · rename_i g
    simp only [Bool.and_eq_true] at g
    exact grantClaim_steady _ _ g.1
  · exact .of_eq rfl rfl rfl rfl rfl rfl
theorem alertClaims_steady (s : State) (w : Hoist → Bool) : Steady s (s.alertClaims w) :=
  Steady.trans (b := { s with waits := s.waits.map fun c =>
    if (w c.hoist && s.alertDue c) = true then { c with alerted := true } else c })
    (.of_eq rfl rfl rfl rfl rfl rfl) (markIf_steady _ _ _)
theorem markSkimDue_steady (s : State) : Steady s s.markSkimDue := markIf_steady _ _ _

end Sys2Proof.Machine
end

