-- ==== Sys2Proof/Laws/SteadyDrive.lean ====
section
/-! SUPPORT. The operations of the Hoist Drive Interface and of the Weighing Unit keep what `Steady` says. -/

namespace Sys2Proof.Machine

/-! ### Motions -/

theorem haltMotion_steady (s : State) (h : Hoist) : Steady s (s.haltMotion h) := modDrive_steady _ _ _
theorem stopMotion_steady (s : State) (h : Hoist) : Steady s (s.stopMotion h) :=
  (haltMotion_steady _ _).trans (reportConds_steady _ _)
theorem cancelMotion_steady (s : State) (h : Hoist) : Steady s (s.cancelMotion h) := .ite (stopMotion_steady s h) (.refl s)
theorem dropMotion_steady (s : State) (h : Hoist) : Steady s (s.dropMotion h) := .ite (haltMotion_steady s h) (.refl s)
theorem motionReport_steady (s : State) (h : Hoist) (m : Moved) (c : Option FailCause) :
    Steady s (s.motionReport h m c) := modMail_steady _ _ _
theorem motionDone_steady (s : State) (h : Hoist) (m : Moved) : Steady s (s.motionDone h m) :=
  (stopMotion_steady _ _).trans (motionReport_steady _ _ _ _)
theorem motionFails_steady (s : State) (h : Hoist) (m : Moved) (c : FailCause) (k : FaultKind) :
    Steady s (s.motionFails h m c k) :=
  (stopMotion_steady _ _).trans ((raise_steady _ _ _).trans (motionReport_steady _ _ _ _))
theorem startFails_steady (s : State) (h : Hoist) (m : Moved) (c : FailCause) (k : FaultKind) :
    Steady s (s.startFails h m c k) :=
  (reportConds_steady _ _).trans ((raise_steady _ _ _).trans (motionReport_steady _ _ _ _))
theorem topError_steady (s : State) (h : Hoist) (m : Moved) : Steady s (s.topError h m) :=
  (modDrive_steady _ _ _).trans (motionFails_steady _ _ _ _ _)
theorem startDown_steady (s : State) (h : Hoist) (r l a : Nat) : Steady s (s.startDown h r l a) :=
  .ite ((modDrive_steady _ _ _).trans (topError_steady _ _ _)) (modDrive_steady _ _ _)
theorem endUp_steady (s : State) (h : Hoist) (r l a : Nat) : Steady s (s.endUp h r l a) :=
  .ite (motionDone_steady _ _ _) (startDown_steady _ _ _ _ _)
theorem startUp_steady (s : State) (h : Hoist) (r l a : Nat) : Steady s (s.startUp h r l a) :=
  .ite (.ite (((modDrive_steady _ _ _).trans (modDrive_steady _ _ _)).trans (endUp_steady _ _ _ _ _))
    ((modDrive_steady _ _ _).trans (topError_steady _ _ _))) (modDrive_steady _ _ _)
theorem topRule_steady (s : State) (h : Hoist) : Steady s (s.topRule h) := by
  unfold State.topRule; dsimp only; split
  · exact .refl s
  · exact (modDrive_steady _ _ _).trans (motionDone_steady _ _ _)
  · exact .ite (.ite ((modDrive_steady _ _ _).trans (motionDone_steady _ _ _)) (.refl s)) (topError_steady _ _ _)
  · exact .ite (.ite (.refl s) ((modDrive_steady _ _ _).trans (endUp_steady _ _ _ _ _))) (topError_steady _ _ _)
theorem loadReady_steady (s : State) (h : Hoist) : Steady s (s.loadReady h) := modDrive_steady _ _ _
theorem startMeets_steady (s : State) (h : Hoist) : Steady s (s.startMeets h) := by
  have t : Steady s (if s.inputs[h].top = true then s.topRule h else s) := .ite (topRule_steady s h) (.refl s)
  exact .ite (t.trans (loadReady_steady _ _)) t
theorem runMotion_steady (s : State) (h : Hoist) (c : MotionCmd) : Steady s (s.runMotion h c) :=
  (modDrive_steady _ _ _).trans ((reportConds_steady _ _).trans (startMeets_steady _ _))
theorem startMotion_steady (s : State) (h : Hoist) (c : MotionCmd) : Steady s (s.startMotion h c) :=
  (dropMotion_steady s h).trans
    (.ite (startFails_steady _ _ _ _ _) (.ite (startFails_steady _ _ _ _ _)
      (.ite ((reportConds_steady _ _).trans (motionReport_steady _ _ _ _)) (runMotion_steady _ _ _))))
theorem burstMeets_steady (s : State) (h : Hoist) : Steady s (s.burstMeets h) :=
  .ite (modDrive_steady _ _ _) (.ite (modDrive_steady _ _ _) (.ite (.refl s) (loadReady_steady _ _)))
theorem pulseMotion_steady (s : State) (h : Hoist) (m : Motion) : Steady s (s.pulseMotion h m) := by
  unfold State.pulseMotion; dsimp only; split
  · exact .ite ((modDrive_steady _ _ _).trans (motionFails_steady _ _ _ _ _)) (modDrive_steady _ _ _)
  · exact .ite ((modDrive_steady _ _ _).trans (motionDone_steady _ _ _)) (modDrive_steady _ _ _)
  · exact .ite (.ite ((modDrive_steady _ _ _).trans (startUp_steady _ _ _ _ _))
      ((modDrive_steady _ _ _).trans (endUp_steady _ _ _ _ _))) (modDrive_steady _ _ _)
theorem pulse_steady (s : State) (h : Hoist) : Steady s (s.pulse h) := by
  unfold State.pulse; dsimp only; repeat' split
  · exact pulseMotion_steady _ _ _
  · exact .refl s
  · exact modDrive_steady _ _ _
  · exact .refl s
  · exact .refl s
  · exact .refl s

/-! ### Weighing -/

theorem placeWeigh_steady (s : State) (h : Hoist) : Steady s (s.placeWeigh h) := by
  unfold State.placeWeigh; repeat' split
  · exact (modWu_steady _ _).trans (modCtx_steady _ _ _)
  · exact (modWu_steady _ _).trans (modCtx_steady _ _ _)
  · exact .refl s
theorem tellFree_steady (s : State) (h : Hoist) : Steady s (s.tellFree h) :=
  .ite (.ite ((modWu_steady _ _).trans (placeWeigh_steady _ _)) (modWu_steady _ _)) (.refl s)
theorem endService_steady (s : State) (q : WeighReq) : Steady s (s.endService q) :=
  (modWu_steady _ _).trans (tellFree_steady _ _)
theorem dropWeigh_steady (s : State) (h : Hoist) : Steady s (s.dropWeigh h) := by
  unfold State.dropWeigh; dsimp only
  exact (modWu_steady _ _).trans ((modMail_steady _ _ _).trans (modCtx_steady _ _ _))
theorem weighEnds_steady (s : State) (q : WeighReq) (v : Option Int) (j : Option (Nat × Nat)) :
    Steady s (s.weighEnds q v j) := by
  unfold State.weighEnds
  refine Steady.trans ?_ (endService_steady _ _)
  split
  · exact modMail_steady _ _ _
  · exact modWu_steady _ _
theorem judgeWindow_steady (s : State) (v : Service) (x : Int) : Steady s (s.judgeWindow v x) :=
  .ite (modWu_steady _ _) (.ite (weighEnds_steady _ _ _ _) (modWu_steady _ _))
theorem evaluateBath_steady (s : State) : Steady s s.evaluateBath :=
  .ite (modWu_steady _ _) ((modWu_steady _ _).trans (report_steady _ _))
theorem nextPeriod_steady (s : State) (a : Bool) : Steady s (s.nextPeriod a) := by
  unfold State.nextPeriod; split <;> exact modWu_steady _ _
theorem afterMissed_steady (s : State) : Steady s s.afterMissed := by
  unfold State.afterMissed; split
  · exact modWu_steady _ _
  · exact .refl s

end Sys2Proof.Machine
end

