-- ==== Sys2Proof/Laws/SteadyCycle.lean ====
section
/-! SUPPORT. The operations of the dip context and of the Fault Collector, and the agenda worked off, keep what `Steady`
says. -/

namespace Sys2Proof.Machine

/-! ### Closing an order -/

theorem closeOrder_steady (s : State) (h : Hoist) (how : Closing) (why : Option CloseReason) :
    Steady s (s.closeOrder h how why) := by
  unfold State.closeOrder; dsimp only; split
  · exact .refl s
  · exact (filter_steady s _).trans ((putCtx_steady _ _ _).trans ((mark_steady _ _).trans (followUp_steady _ _)))
theorem returnHeld_steady (s : State) (h : Hoist) : Steady s (s.returnHeld h) :=
  (returnReserve_steady _ _).trans (modCtx_steady _ _ _)
theorem closeUnlowered_steady (s : State) (h : Hoist) (how : Closing) (why : CloseReason) :
    Steady s (s.closeUnlowered h how why) := by
  unfold State.closeUnlowered; dsimp only
  refine Steady.trans ?_ ((returnHeld_steady _ _).trans (closeOrder_steady _ _ _ _))
  exact .ite ((dropWeigh_steady s h).trans (withdrawClaim_steady _ _)) ((dropWeigh_steady s h).trans (release_steady _ _))
theorem closeRehang_steady (s : State) (h : Hoist) (why : CloseReason) : Steady s (s.closeRehang h why) :=
  (returnHeld_steady _ _).trans (closeOrder_steady _ _ _ _)

/-! ### Staging, weigh-in, take, rehang -/

theorem stage_steady (s : State) (h : Hoist) (o : Order) (p : Pass) (n : Nat) : Steady s (s.stage h o p n) := by
  unfold State.stage; dsimp only
  refine Steady.trans ?_ (claimArrival_steady _ _ _ _ _)
  refine Steady.trans ?_ (modOrder_steady _ _ _ fun _ => rfl)
  exact putCtx_steady _ _ _
theorem toWeighIn_steady (s : State) (h : Hoist) : Steady s (s.toWeighIn h) :=
  (putCtx_steady _ _ _).trans (placeWeigh_steady _ _)
theorem checkAligned_steady (s : State) (h : Hoist) : Steady s (s.checkAligned h) :=
  .ite (toWeighIn_steady s h) (.refl s)
theorem takeGrant_steady (s : State) (h : Hoist) (g : Grant) : Steady s (s.takeGrant h g) :=
  .ite (.ite ((putCtx_steady _ _ _).trans (checkAligned_steady _ _)) (.ite (putCtx_steady _ _ _) (.refl s))) (.refl s)
theorem attemptTake_steady (s : State) (h : Hoist) : Steady s (s.attemptTake h) := by
  unfold State.attemptTake; split
  · exact .ite ((grantReserve_steady _ _).trans (stage_steady _ _ _ _ _)) (.refl s)
  · exact .refl s
theorem rehangGo_steady (s : State) (h : Hoist) : Steady s (s.rehangGo h) := by
  unfold State.rehangGo; split
  · exact .ite (stage_steady _ _ _ _ _) (.refl s)
  · exact .refl s
theorem rehangDone_steady (s : State) (h : Hoist) : Steady s (s.rehangDone h) :=
  .ite ((modCtx_steady _ _ _).trans (rehangGo_steady _ _)) (.refl s)

/-! ### Immersion, drain, weigh-out -/

theorem liftOut_steady (s : State) (h : Hoist) (r : Nat) : Steady s (s.liftOut h r) := startMotion_steady _ _ _
theorem toLifting_steady (s : State) (h : Hoist) : Steady s (s.toLifting h) :=
  (setCtx_steady _ _ _).trans (liftOut_steady _ _ _)
theorem toAbortLift_steady (s : State) (h : Hoist) : Steady s (s.toAbortLift h) :=
  (setCtx_steady _ _ _).trans (liftOut_steady _ _ _)
theorem toDwell_steady (s : State) (h : Hoist) : Steady s (s.toDwell h) := putCtx_steady _ _ _
theorem drainEnd_steady (s : State) (h : Hoist) : Steady s (s.drainEnd h) :=
  (release_steady _ _).trans ((putCtx_steady _ _ _).trans (placeWeigh_steady _ _))
theorem drainCheck_steady (s : State) (h : Hoist) : Steady s (s.drainCheck h) := .ite (drainEnd_steady s h) (.refl s)
theorem reportWithdrawal_steady (s : State) (h : Hoist) : Steady s (s.reportWithdrawal h) := by
  unfold State.reportWithdrawal; split
  · exact .ite (loadWithdrawn_steady _ _ _) (.refl s)
  · exact .refl s
theorem toDrain_steady (s : State) (h : Hoist) (t : Nat) (b : Bool) : Steady s (s.toDrain h t b) :=
  (reportWithdrawal_steady _ _).trans (setCtx_steady _ _ _)
theorem toDrainStill_steady (s : State) (h : Hoist) (t : Nat) : Steady s (s.toDrainStill h t) :=
  (toDrain_steady _ _ _ _).trans ((reportConds_steady _ _).trans (drainCheck_steady _ _))
theorem drainFromLifting_steady (s : State) (h : Hoist) (l : Latched) : Steady s (s.drainFromLifting h l) :=
  .ite (toDrainStill_steady _ _ _) ((toDrain_steady _ _ _ _).trans (startMotion_steady _ _ _))
theorem drainAborted_steady (s : State) (h : Hoist) : Steady s (s.drainAborted h) := toDrainStill_steady _ _ _
theorem endPass_steady (s : State) (h : Hoist) : Steady s (s.endPass h) := by
  unfold State.endPass; dsimp only; split
  · refine .ite ?_ (.ite (closeOrder_steady _ _ _ _) (closeOrder_steady _ _ _ _))
    refine Steady.trans ?_ (putCtx_steady _ _ _)
    exact modOrder_steady _ _ _ fun _ => rfl
  · exact .refl s
theorem weighedOut_steady (s : State) (h : Hoist) (v : Option Int) : Steady s (s.weighedOut h v) := by
  unfold State.weighedOut; dsimp only
  refine Steady.trans ?_ ((modCtx_steady _ _ _).trans (endPass_steady _ _))
  have r : Steady s (if v.isNone = true then s.raise .weighUnstable h else s) := .ite (raise_steady _ _ _) (.refl s)
  split
  · exact r.trans (finalisePickup_steady _ _ _ _ _)
  · exact r
theorem beginLowering_steady (s : State) (h : Hoist) (o : Order) (p : Pass) (w : Int) :
    Steady s (s.beginLowering h o p w) := by
  unfold State.beginLowering; dsimp only
  refine Steady.trans ?_ (startMotion_steady _ _ _)
  refine Steady.trans ?_ (setCtx_steady _ _ _)
  exact writePickup_steady _ _ _ _ _ _ _ _
theorem takeResult_steady (s : State) (h : Hoist) (a : WeighAnswer) : Steady s (s.takeResult h a) := by
  unfold State.takeResult; dsimp only; split
  · split
    · exact beginLowering_steady _ _ _ _ _
    · exact (raise_steady _ _ _).trans (closeUnlowered_steady _ _ _ _)
    · exact weighedOut_steady _ _ _
    · exact .refl s
  · exact .refl s

/-! ### Holds, aborts, resumes -/

theorem checkOverrun_steady (s : State) (h : Hoist) : Steady s (s.checkOverrun h) :=
  .ite ((modCtx_steady _ _ _).trans (raise_steady _ _ _)) (.refl s)
theorem dropFailures_steady (s : State) (h : Hoist) : Steady s (s.dropFailures h) := modMail_steady _ _ _
theorem enterHeld_steady (s : State) (h : Hoist) : Steady s (s.enterHeld h) :=
  .ite (.refl s) ((cancelMotion_steady _ _).trans ((dropWeigh_steady _ _).trans
    ((dropFailures_steady _ _).trans ((putCtx_steady _ _ _).trans (checkOverrun_steady _ _)))))
theorem holdFailed_steady (s : State) (h : Hoist) : Steady s (s.holdFailed h) := .ite (enterHeld_steady s h) (.refl s)
theorem turnAborted_steady (s : State) (h : Hoist) (w : CloseReason) : Steady s (s.turnAborted h w) := by
  unfold State.turnAborted; dsimp only
  refine Steady.trans ?_ (returnHeld_steady _ _)
  refine Steady.trans ?_ (modCtx_steady _ _ _)
  exact modOrder_steady _ _ _ fun _ => rfl
theorem cutDrain_steady (s : State) (h : Hoist) : Steady s (s.cutDrain h) :=
  .ite ((modCtx_steady _ _ _).trans (startMotion_steady _ _ _))
    ((modCtx_steady _ _ _).trans ((cancelMotion_steady _ _).trans (drainCheck_steady _ _)))
theorem parkRecal_steady (s : State) (h : Hoist) : Steady s (s.parkRecal h) :=
  (cancelMotion_steady _ _).trans ((putCtx_steady _ _ _).trans (followUp_steady _ _))
theorem abortBy_steady (s : State) (h : Hoist) (w : CloseReason) : Steady s (s.abortBy h w) := by
  unfold State.abortBy; dsimp only; split
  · exact closeUnlowered_steady _ _ _ _
  · exact closeUnlowered_steady _ _ _ _
  · exact closeUnlowered_steady _ _ _ _
  · exact closeRehang_steady _ _ _
  · exact .ite (putCtx_steady _ _ _) (toAbortLift_steady _ _)
  · exact .ite (putCtx_steady _ _ _) (toAbortLift_steady _ _)
  · exact .ite (putCtx_steady _ _ _) (toAbortLift_steady _ _)
  · exact .ite (modCtx_steady _ _ _) (cutDrain_steady _ _)
  · exact modCtx_steady _ _ _
  · exact .refl s
theorem abort_steady (s : State) (h : Hoist) (w : CloseReason) : Steady s (s.abort h w) :=
  .ite (.ite (parkRecal_steady _ _) (.refl s)) (.ite (.refl s) ((turnAborted_steady _ _ _).trans (abortBy_steady _ _ _)))
theorem toRecal_steady (s : State) (h : Hoist) (r : Option DipState) : Steady s (s.toRecal h r) :=
  (setCtx_steady _ _ _).trans (startMotion_steady _ _ _)
theorem recalWithLoad_steady (s : State) (h : Hoist) : Steady s (s.recalWithLoad h) := by
  unfold State.recalWithLoad; dsimp only
  refine Steady.trans ?_ ((modCtx_steady _ _ _).trans (toRecal_steady _ _ _))
  exact .ite (.refl s) (turnAborted_steady _ _ _)
theorem resumeRecal_steady (s : State) (h : Hoist) (st : DipState) : Steady s (s.resumeRecal h st) :=
  .ite (toRecal_steady _ _ _) (.ite (recalWithLoad_steady _ _) (toRecal_steady _ _ _))
theorem resumeDrain_steady (s : State) (h : Hoist) : Steady s (s.resumeDrain h) :=
  .ite ((setCtx_steady _ _ _).trans (startMotion_steady _ _ _))
    ((setCtx_steady _ _ _).trans ((reportConds_steady _ _).trans (drainCheck_steady _ _)))
theorem resumeInto_steady (s : State) (h : Hoist) (st : DipState) : Steady s (s.resumeInto h st) := by
  cases st
  · exact putCtx_steady _ _ _
  · exact putCtx_steady _ _ _
  · exact (putCtx_steady _ _ _).trans (checkAligned_steady _ _)
  · exact (putCtx_steady _ _ _).trans (placeWeigh_steady _ _)
  · exact (setCtx_steady _ _ _).trans (startMotion_steady _ _ _)
  · exact .ite (toLifting_steady _ _) (putCtx_steady _ _ _)
  · exact toLifting_steady _ _
  · exact resumeDrain_steady _ _
  · exact (putCtx_steady _ _ _).trans (placeWeigh_steady _ _)
  · exact (putCtx_steady _ _ _).trans (rehangGo_steady _ _)
  · exact putCtx_steady _ _ _
  · exact toAbortLift_steady _ _
  · exact toRecal_steady _ _ _
theorem resumeFrom_steady (s : State) (h : Hoist) (st : DipState) : Steady s (s.resumeFrom h st) :=
  .ite (resumeInto_steady _ _ _) (resumeRecal_steady _ _ _)
theorem drainAfterRecal_steady (s : State) (h : Hoist) : Steady s (s.drainAfterRecal h) :=
  (putCtx_steady _ _ _).trans (drainCheck_steady _ _)
theorem recalDone_steady (s : State) (h : Hoist) : Steady s (s.recalDone h) := by
  unfold State.recalDone; dsimp only; split
  · exact drainAborted_steady _ _
  · exact (putCtx_steady _ _ _).trans (followUp_steady _ _)
  · exact drainAfterRecal_steady _ _
  · exact resumeInto_steady _ _ _
/-- The upward MOVE of LOWERING has been ended by TOP (R147). -/
theorem endedAtTop_iff (s : State) (h : Hoist) : s.endedAtTop h = true ↔
    s.drives[h].count = 0 ∧ s.drives[h].motion = none ∧ ∀ r ∈ s.mail[h].motions, r.cause = none := by
  simp [State.endedAtTop, and_assoc]
theorem drainFromLowering_steady (s : State) (h : Hoist) (l : Latched) : Steady s (s.drainFromLowering h l) :=
  (modCtx_steady _ _ _).trans (drainFromLifting_steady _ _ _)
theorem takeReached_steady (s : State) (h : Hoist) (m : Moved) : Steady s (s.takeReached h m) := by
  unfold State.takeReached; dsimp only; split
  · exact .ite (toDwell_steady _ _) (.ite (drainFromLowering_steady _ _ _) (.refl s))
  · exact .ite (drainFromLifting_steady _ _ _) (.refl s)
  · exact .ite (drainAborted_steady _ _) (.refl s)
  · exact (modCtx_steady _ _ _).trans (drainCheck_steady _ _)
  · exact .ite ((modCtx_steady _ _ _).trans (drainCheck_steady _ _)) (.refl s)
  · exact .ite (recalDone_steady _ _) (.refl s)
  · exact .refl s

/-! ### Samples -/

theorem contactSeen_steady (s : State) (h : Hoist) (t : Nat) (p : Pass) (d : Nat) : Steady s (s.contactSeen h t p d) := by
  unfold State.contactSeen; dsimp only; split
  · exact (putCtx_steady _ _ _).trans ((modMail_steady _ _ _).trans (bookSurface_steady _ _ _))
  · exact (putCtx_steady _ _ _).trans (modMail_steady _ _ _)
theorem checkContact_steady (s : State) (h : Hoist) (v : Int) : Steady s (s.checkContact h v) := by
  unfold State.checkContact; dsimp only; split
  · exact .ite (contactSeen_steady _ _ _ _ _) (.refl s)
  · exact .refl s
theorem checkSnag_steady (s : State) (h : Hoist) (v w : Int) : Steady s (s.checkSnag h v w) :=
  .ite (.ite (.refl s) ((modCtx_steady _ _ _).trans (raise_steady _ _ _))) (modCtx_steady _ _ _)
theorem checkLost_steady (s : State) (h : Hoist) (v : Int) : Steady s (s.checkLost h v) :=
  .ite (.ite (.refl s) ((modCtx_steady _ _ _).trans (raise_steady _ _ _))) (modCtx_steady _ _ _)
theorem deliverSample_steady (s : State) (h : Hoist) (v : Int) : Steady s (s.deliverSample h v) := by
  have c : Steady s ((s.modCtx h fun c => { c with starved := false }).checkContact h v) :=
    (modCtx_steady _ _ _).trans (checkContact_steady _ _ _)
  unfold State.deliverSample; dsimp only; split
  · exact .ite (c.trans ((checkSnag_steady _ _ _ _).trans (checkLost_steady _ _ _))) c
  · exact c
theorem checkAge_steady (s : State) (h : Hoist) : Steady s (s.checkAge h) :=
  .ite ((modCtx_steady _ _ _).trans (raise_steady _ _ _)) (.refl s)

/-! ### The Fault Collector and the agenda -/

theorem react_steady (r : Reaction) (s : State) (h : Hoist) : Steady s (s.react r h) := by
  cases r
  · exact .refl s
  · exact .refl s
  · exact .refl s
  · exact enterHeld_steady s h
  · exact (holdFailed_steady s h).trans (abort_steady _ h _)
  · exact .refl s
theorem applyReaction_steady (s : State) (r : Reaction) (l : List Hoist) : Steady s (s.applyReaction r l) :=
  (markIf_steady _ _ _).trans (.ite (steady_foldl _ enterHeld_steady _ _) (steady_foldl _ (react_steady r) _ _))
theorem loadBeacon_steady (s : State) (k : FaultKind) : Steady s (s.loadBeacon k) :=
  .ite (.of_eq rfl rfl rfl rfl rfl rfl) (.refl s)
theorem latch_steady (s : State) (k : FaultKind) (h : Option Hoist) : Steady s (s.latch k h) := by
  have m := (modEntry_steady s k fun e =>
    { e with state := if s.kept.faults[k.ix].delay = 0 then .active else .alarm, involved := s.involvedAtLatch k h,
             firstTime := some s.kept.runtime, lastTime := some s.kept.runtime, count := some 1,
             alarmT := if s.kept.faults[k.ix].delay = 0 then none else some (s.kept.faults[k.ix].delay * 10) }).trans
    (loadBeacon_steady _ k)
  exact .ite (m.trans (applyReaction_steady _ _ _)) m
theorem reactAgain_steady (s : State) (k : FaultKind) (g : Option Hoist) : Steady s (s.reactAgain k g) := by
  cases g
  · exact markIf_steady _ _ _
  · exact (markIf_steady _ _ _).trans (react_steady _ _ _)
theorem secondOccurrence_steady (s : State) (k : FaultKind) (h : Option Hoist) : Steady s (s.secondOccurrence k h) := by
  have m := (modEntry_steady s k fun e => e.again s.kept.runtime (s.gained k h)).trans (loadBeacon_steady _ k)
  exact .ite (m.trans (reactAgain_steady _ _ _)) m
theorem occurrence_steady (s : State) (k : FaultKind) (h : Option Hoist) : Steady s (s.occurrence k h) :=
  .ite (secondOccurrence_steady s k h) (latch_steady s k h)
theorem takeReport_steady (s : State) (r : FaultReport) : Steady s (s.takeReport r) := by
  cases r
  · exact occurrence_steady _ _ _
  · exact .ite ((modEntry_steady _ _ _).trans (occurrence_steady _ _ _)) (modEntry_steady _ _ _)
theorem settleOne_steady (s : State) : Steady s s.settleOne := by
  have q : ∀ a, Steady s { s with agenda := a } := fun a => .of_eq rfl rfl rfl rfl rfl rfl
  unfold State.settleOne; split
  · exact (q _).trans (takeReport_steady _ _)
  · exact (q _).trans (attemptTake_steady _ _)
  · exact (q _).trans (rehangGo_steady _ _)
  · exact .refl s
theorem settleFor_steady (n : Nat) (s : State) : Steady s (settleFor n s) := by
  induction n generalizing s with
  | zero => exact .refl s
  | succ n ih => exact .ite (.refl s) ((settleOne_steady s).trans (ih _))
theorem settle_steady (s : State) : Steady s s.settle := settleFor_steady _ s
theorem inhibitEnd_steady (s : State) (b : Bool) : Steady s (s.inhibitEnd b) :=
  .ite ((takeAll_steady s).trans (steady_foldl _ (fun s _ => followUp_steady s _) _ _)) (.refl s)

end Sys2Proof.Machine
end

