-- ==== Sys2Proof/Tests/Slice0.lean ====
section
/-! SUPPORT. Tests: the ill-formed terms each check of WellFormed refuses, small states, a witness for the hypotheses of
every statement that has some, and one small step of most commands. -/

namespace Sys2Proof.Tests

set_option Elab.async false

open Sys2Proof Sys2Proof.Machine

/-! ### WellFormed: each check refuses an ill-formed term -/

theorem test_wf_tag : (Instr.identify 256).wf = false ∧ (Instr.identify 255).wf = true := by decide +kernel
theorem test_wf_orderTag : (Instr.orderCancel 0 4294967296).wf = false := by decide +kernel
theorem test_wf_hoist : (Instr.hoistRun 0 256).wf = false := by decide +kernel
theorem test_wf_pass :
    (PassRec.wf ⟨1, 1, 65536, 0, 0⟩ || PassRec.wf ⟨256, 1, 0, 0, 0⟩ || PassRec.wf ⟨1, 1, 0, 0, 256⟩) = false := by
  decide +kernel
theorem test_wf_profile : (Instr.profileWrite 0 256 ⟨60, 1200, 20, 300, 2, 50, 0⟩).wf = false ∧
    (Instr.profileWrite 0 0 ⟨60, 65536, 20, 300, 2, 50, 0⟩).wf = false := by decide +kernel
theorem test_wf_mass : (Instr.bookPost 0 3 2147483648 0).wf = false ∧ (Instr.bookPost 0 3 (-2147483649) 0).wf =
    false := by
  decide +kernel
theorem test_wf_setups : (Instr.cycleSetup 0 (some ⟨65536, 0, 0, 0⟩)).wf = false ∧
    (Instr.kettleSetup 0 (some ⟨0, 0, 256, 0⟩)).wf = false ∧
    (Instr.levelSetup 0 (some ⟨0, 4294967296, 0, 0, 0⟩)).wf = false ∧
    (Instr.driveSetup 0 (some ⟨0, 0, 256, 0⟩)).wf = false ∧ (Instr.noticeSetup 0 (some #v[0, 0, 0, 0, 0, 256])).wf =
    false := by
  decide +kernel
theorem test_wf_relay : (Instr.feederRelay 0 2 (List.replicate 240 0)).wf = false := by decide +kernel
theorem test_wf_feederFrames : (Instr.drop (List.replicate 241 0)).wf = false ∧ (Instr.feederOtherFrame 4 []).wf =
    false ∧
    (Instr.feederOtherFrame 9 []).wf = true := by decide +kernel
theorem test_wf_count : (Instr.samplePeriodEnd (some 8388608)).wf = false := by decide +kernel
theorem test_wf_bench : (Instr.benchDrive 0 ⟨1, 0, 1, 0, 65536, 100, 0⟩).wf = false := by decide +kernel
theorem test_wf_faultSetup : (Instr.faultSetup 0 1 (.settings 256 0 0)).wf = false ∧
    (Instr.faultSetup 0 0 (.beaconMin 65536)).wf = false := by decide +kernel
theorem test_wf_weighSetup : (WeighLimits.wf ⟨256, 0, 0, 0, 0, 0, 0, 0, 0⟩) = false ∧
    (WeighFields.wf ⟨0, #v[4, 4, 4, 4], 1, ⟨16, 50, 200, 400, 200, 1000, 500, 4400, 4650⟩,
      Vector.replicate 4 ⟨2147483648, 1⟩⟩) = false := by decide +kernel
theorem test_wf_feedSetup : (Instr.feedSetup 0 (some ⟨0, 1, ⟨1340, 1300, 250, 256, 100, 600, 20⟩⟩)).wf = false :=
    by decide +kernel

/-! ### Small states -/

/-- Every input of a station as a cycle without incident finds it. -/
def clear : StationInputs :=
  { ready := true, driveFault := false, top := false, aligned := true, areaClear := true, rehang := false }

/-- The part after its first notice, with every station clear. -/
def still : State := { State.reset with link := { State.reset.link with tx := none }, inputs := Vector.replicate 4 clear }

/-- An open book. -/
def openBook : State :=
  { still with kept := { still.kept with bookOpen := true, nextSeq := 2 } }

def passA : PassRec := { first := 3, last := 4, target := 2300, drop := 400, profile := 0 }
def passB : PassRec := { passA with first := 5, last := 6 }
def latched : Latched := { profile := Profile.cold, drainPos := 500, overrun := 300 }

/-- The order with tag 7 of hoist H1. -/
def order (two : Bool) (st : OrderState) : Order :=
  { slot := 0, tag := 7, hoist := 0, mass := 0, pass1 := passA, pass2 := if two then some passB else none, state := st,
    pass := if st = .queued then none else some .one, closePending := false, posted := 0 }

/-- A post of that order. -/
def post : PostFields := { orderTag := 7, hoist := 1, mass := 0, passCount := 1, pass1 := passA, pass2 := none }

/-- H1's dip context with the order in a state. -/
def ctxIn (st : DipState) : DipCtx :=
  { DipCtx.parked with
    state := st, order := some ⟨0, 7⟩, pass := some .one, runEnable := true, resv := if st = .rehang then 1 else 0 }

/-- The same with a load below: the pass parameters latched, the PICKUP entry 2 written. -/
def ctxDip (st : DipState) : DipCtx :=
  { ctxIn st with
    latched := some latched, weighIn := some 48120, entered := true, contact := true, clock := ⟨.running, 100⟩,
    dwellT := some 5, entrySeq := some 2 }

/-- The PROVISIONAL entry of that pass. -/
def pickup : Entry :=
  { Entry.blank .pickup 0 0 with
    seq := 2, orderTag := some 7, hoist := some 0, pass := some .one, span := some (3, 4), weighIn := some 48120 }

/-- H1 in a state with its order, its drive known at 1000 mm, the book open. -/
def with1 (c : DipCtx) (o : Order) : State :=
  { openBook with orders := [o], ctxs := openBook.ctxs.set 0 c,
                  drives := openBook.drives.set 0 { openBook.drives[0] with known := true, count := 1000 } }

/-- H1 dipping: it holds Z3 and Z4 and its entry stands in the journal. -/
def dipping (c : DipCtx) : State :=
  let s := with1 c (order false .active)
  { s with kept := { s.kept with journal := [pickup], nextSeq := 3 },
           holders := (s.holders.set 2 (some 0)).set 3 (some 0) }

/-- The same with every input absent. -/
def quietInputs (s : State) : State := { s with inputs := Vector.replicate 4 absentInputs }

/-- A message in transit for H1. -/
def mailed (s : State) (f : Mail → Mail) : State := s.modMail 0 f

/-- H1's hook at a count with a motion, its brake off. -/
def moving (s : State) (n : Nat) (m : Option Motion) : State :=
  s.modDrive 0 fun d => { d with count := n, motion := m, brakeRel := m.isSome }

/-- H1's position unknown. -/
def unknown (s : State) : State := s.modDrive 0 fun d => { d with known := false }

/-- H1 held from a state. -/
def held (c : DipCtx) : State := dipping { c with state := .held, heldFrom := some c.state }

/-- The state after a command. -/
def after (c : Instr) (s : State) : State :=
  match exec c s with
  | .next t => t
  | _ => s

/-- Every kind with one reaction and delay. -/
def reacting (r : Reaction) (delay : Nat) (s : State) : State :=
  s.modKept fun k => { k with faults := Vector.replicate 14 ⟨r, delay, true⟩ }

/-- An entry of a kind involving H1. -/
def withEntry (k : FaultKind) (st : EntryState) (s : State) : State :=
  s.modEntry k fun e => { e with state := st, involved := #v[true, false, false, false], alarmT := some 4 }

def dwelling : State := dipping (ctxDip .dwell)
def lowering : State := moving (dipping (ctxDip .lowering)) 2299 (some ⟨.move 2300, 60⟩)
def recalibrating : State := moving (dipping (ctxDip .recal)) 2299 (some ⟨.recal 8000, 60⟩)
def fullQueue : State := { still with link := { still.link with replies := List.replicate 4 ⟨1, 1, .ok, []⟩ } }
def staged : State :=
  { with1 (ctxIn .staged) (order false .active) with reserved := 1, waits := [⟨0, 7, .one, 3, 4, false, 0, false, 0⟩] }
def aligning : State :=
  { with1 { ctxIn .aligning with alignT := some 3 } (order false .active) with
    holders := (still.holders.set 2 (some 0)).set 3 (some 0), reserved := 1 }
def weighingIn : State :=
  { mailed (with1 { ctxIn .weighIn with asked := .placed, resv := 1 } (order false .active))
      (fun m => { m with results := [⟨7, .one, some 48120, 16, some 40⟩] }) with reserved := 1 }
def weighingOut : State :=
  mailed (dipping { ctxDip .weighOut with asked := .placed }) fun m => { m with results := [⟨7, .one, some 40000, 16, some 40⟩] }
def rehanging : State := { with1 (ctxIn .rehang) (order true .rehang) with reserved := 1 }
def enabled : State :=
  { with1 { DipCtx.parked with runEnable := true } (order false .active) with orders := [] }
def granted : State :=
  mailed (with1 { ctxIn .staged with claim := some 4 } (order false .active)) fun m => { m with grants := [⟨7, .one, 4⟩] }
def capture : Capture := ⟨0, 7, .one, 900, 400, 1300, 5, false⟩
def captured (c : Capture) (ring : List Nat) (now : Nat) : State :=
  { still with lu := { still.lu with fifos := still.lu.fifos.set 0 [c], ring := ring },
               kept := { still.kept with inventory := 4800000, runtime := now } }
def reported (s : State) (m : Moved) (c : Option FailCause) : State := mailed s fun x => { x with motions := [⟨m, c⟩] }
def benchReady : State := { still with link := { still.link with straps := ⟨0, 1, true⟩ } }
def benching : State := { benchReady with bench := true }
def bursting : State := benching.modDrive 0 fun d => { d with burst := some ⟨3, 9, 4⟩, brakeRel := true, readyT := some 1 }
def bench : BenchFields := ⟨1, 1, 1, 0, 10, 100, 1⟩
def service (dc : Option (Nat × Pass)) : Service := ⟨⟨0, dc⟩, [], 0, [], 0, some (16, 90)⟩
def serving (dc : Option (Nat × Pass)) : State :=
  { still with wu := { still.wu with service := some (service dc), queue := [⟨0, dc⟩] } }
def feed (f : FeederLine → FeederLine) : State := { openBook with feeder := f openBook.feeder }
def requested : State :=
  { feed fun f => { f with state := .requested, source := some .host, asked := some 5, timer := some 0, resv := 1,
                           tx := [.dispense 5] } with reserved := 1 }
def addition : Entry := { Entry.blank .addition 0 0 with seq := 2, ingots := some 0 }
def feeding : State :=
  { feed fun f => { f with state := .feeding, source := some .host, asked := some 5, timer := some 0, entry := some 2,
                           mass := some 250, count := some 3 } with
    kept := { openBook.kept with journal := [addition], nextSeq := 3 } }
def settling : State := feed fun f => { f with state := .settle, settleT := some 0 }
def relaying (hold : Option Nat) : State :=
  { feed fun f => { f with relay := some ⟨9, hold⟩, tx := [.relayed 9 [1]] } with
    link := { openBook.link with held := true } }

/-! ### Witnesses: a state and operands that meet the hypotheses of a statement, clause by clause -/

theorem witness_StepRunsFront : ({ still with pending := [.beaconTimerExpiry] } : State).pending =
    .beaconTimerExpiry :: [] := by
  decide +kernel
theorem witness_EmptyQueue : dwelling.pending = [] ∧ dwelling.power = .running := by decide +kernel
theorem witness_PowerConditionsKept :
    (after (.powerLoss false) still).power ≠ .running ∧ (after (.powerLoss true) still).power = .unpowered ∧
    still.power = .running := by decide +kernel
theorem witness_PowerOnRetainedArea : ({ still with checkGood := false } : State).checkGood = false ∧
    dwelling.checkGood = true := by decide +kernel
theorem witness_listening : still.listening ∧ dwelling.listening ∧ fullQueue.listening = False := by
  refine ⟨by decide +kernel, by decide +kernel, eq_false (by decide +kernel)⟩
theorem witness_FullQueue : (Instr.hoistHold 3 1).linkTag? = some 3 ∧ fullQueue.ready ∧ fullQueue.linkFull = true := by
  decide +kernel
theorem witness_NamedReads : still.listening ∧ benchReady.listening ∧ still.link.straps.hoists.val + 1 < 5 ∧
    benchReady.link.straps.hoists.val + 1 < 3 := by decide +kernel
def weighFields (mode : Nat) : WeighFields :=
  ⟨mode, #v[4, 4, 4, 4], 1, still.kept.weigh.limits, Vector.replicate 4 ⟨0, 65536⟩⟩
def newBand : WeighFields := { weighFields 1 with limits := { still.kept.weigh.limits with bathLow := 4300 } }
theorem witness_WeighSettings : still.weighSet? (weighFields 2) = none ∧ (still.weighSet? (weighFields 1)).isSome =
    true ∧
    ((still.weighSet? (weighFields 1)).map fun w => (w.mode, w.limits)) = some (.fixed, still.kept.weigh.limits) ∧
    (still.weighSet? newBand).isSome = true ∧ newBand.limits.bathLow ≠ still.kept.weigh.limits.bathLow ∧
    still.reactionOf .bathTemp ≠ .stopAll := by decide +kernel
theorem witness_Notices : (∀ c : Fin 6, (#v[1, 0, 1, 1, 0, 1] : Vector Nat 6)[c] ≤ 1) ∧
    (∃ c : Fin 6, 1 < (#v[1, 2, 1, 1, 0, 1] : Vector Nat 6)[c]) ∧ fullQueue.ready ∧ fullQueue.link.replies ≠ [] ∧
    (dwelling.mark .zone).link.replies = [] ∧ (dwelling.mark .zone).link.marks[NoticeClass.zone.ix] = true ∧
    (∀ d ∈ [NoticeClass.fault, .hoist], (dwelling.mark .zone).link.marks[d.ix] = false) ∧
    ∀ c ∈ noticeClasses, dwelling.link.marks[c.ix] = false := by decide +kernel
theorem witness_BrokenFrames : still.ready ∧ still.link.rx = [] ∧ 240 < (241 : Byte).toNat ∧
    ([1, 2] : List Byte).length ≤ 2 := by
  decide +kernel
theorem witness_UnknownKind : still.listening ∧ still.link.rx = [] ∧ (List.replicate 240 (0 : Byte)).length ≤ 240 ∧
    reqKind? 0 = none ∧ (reqKind? 0x11).map (fun k => k.lengthOk 240) = some false := by decide +kernel
theorem witness_RequestFrame : still.listening ∧ still.link.rx = [] ∧ (Instr.hoistRun 3 1).wf = true ∧
    requestFields (.hoistRun 3 1) = some (.hoistRun, [fN 1 1]) ∧ (Instr.hoistRun 3 1).linkTag? = some 3 ∧
    (after (.hoistRun 3 1) still).agenda = Agenda.empty := by decide +kernel
theorem witness_PostJudged : ({ still with orders := List.replicate 24 (order false .queued) } : State).postCheck post = some .queueFull ∧
    still.postCheck { post with orderTag := 0 } = some .badValue ∧
    ({ still with orders := [order false .queued] } : State).postCheck post = some .duplicateTag ∧
    still.postCheck { post with hoist := 5 } = some .notInstalled ∧ still.postCheck { post with passCount := 2 } =
    some .badValue ∧
    still.postCheck { post with pass1 := { passA with first := 5 } } = some .badValue ∧
    still.postCheck { post with pass1 := { passA with profile := 1 } } = some .badValue ∧
    still.postCheck { post with pass1 := { passA with target := 2801 } } = some .badValue ∧
    still.postCheck { post with pass1 := { passA with target := 500 } } = some .badValue ∧
    still.postCheck { post with pass1 := { passA with target := 2800 } } = none := by decide +kernel
theorem witness_QueuedPosted : still.listening ∧ still.postCheck post = none ∧ still.hoist? post.hoist = some 0 ∧
    still.ctxs[(0 : Hoist)].runEnable = false := by decide +kernel
theorem witness_QueuedCancelled : still.orderByTag 7 = none ∧
    ({ still with orders := [{ order false .active with closePending := true }] } : State).orderByTag 7 =
      some { order false .active with closePending := true } ∧
    ({ still with orders := [order false .queued] } : State).orderByTag 7 = some (order false .queued) ∧
    (order false .queued).closePending = false ∧ (order false .queued).state = .queued := by decide +kernel
theorem witness_PostedOrderTaken : enabled.listening ∧ enabled.postCheck post = none ∧ enabled.hoist? post.hoist =
    some 0 ∧
    enabled.noneQueued ∧ enabled.ctxs[(0 : Hoist)].state = .parked ∧ enabled.ctxs[(0 : Hoist)].runEnable = true ∧
    enabled.drives[(0 : Hoist)].known = true ∧ enabled.inhibit = false ∧ enabled.bench = false ∧
    enabled.canReserve post.passes.length = true := by decide +kernel
def claimA : Claim := ⟨0, 7, .one, 3, 4, false, 0, false, 0⟩
def cleanA : Claim := { claimA with clean := true }
def claimB : Claim := { claimA with hoist := 1, first := 4, last := 5, serial := 1 }
theorem witness_ClaimArrives : (mayGrant enabled.holders enabled.kept.surfaces claimA ∧
      ∀ w ∈ enabled.waits, ¬w.meets claimA) ∧
    ¬mayGrant (enabled.holders.set 2 (some 1)) enabled.kept.surfaces claimA ∧
    ¬mayGrant (enabled.holders.set 0 (some 1)) enabled.kept.surfaces claimA ∧
    ¬mayGrant enabled.holders (Vector.replicate 12 ⟨true, 1⟩) cleanA ∧
    claimB.meets claimA := by
  refine ⟨by decide +kernel, by decide +kernel, by decide +kernel, by decide +kernel, by decide +kernel⟩
theorem witness_Closed : ∀ s ∈ [staged, aligning, weighingIn], s.listening ∧ s.noneQueued ∧
    s.orderByTag 7 = some (order false .active) ∧ (order false .active).closePending = false ∧
    s.ctxs[(0 : Hoist)].order = some ⟨0, 7⟩ ∧ (s.ctxs[(0 : Hoist)].state = .staged ∨ s.ctxs[(0 : Hoist)].state =
    .aligning ∨
      s.ctxs[(0 : Hoist)].state = .weighIn) := by decide +kernel
def heldAligning : State := held { ctxIn .aligning with alignT := some 3 }
theorem witness_AlignTimeout : (aligning.ready ∧ aligning.noneQueued ∧ aligning.ctxs[(0 : Hoist)].alignT.isSome = true ∧
      aligning.ctxs[(0 : Hoist)].state = .aligning ∧ aligning.ctxs[(0 : Hoist)].order = some ⟨0, 7⟩) ∧
    heldAligning.ready ∧ heldAligning.noneQueued ∧ heldAligning.ctxs[(0 : Hoist)].alignT.isSome = true ∧
      heldAligning.ctxs[(0 : Hoist)].state = .held ∧ heldAligning.ctxs[(0 : Hoist)].heldFrom = some .aligning ∧
      heldAligning.ctxs[(0 : Hoist)].order = some ⟨0, 7⟩ := by decide +kernel
theorem witness_Run : still.listening ∧ still.hoist? 1 = some 0 ∧ still.ctxs[(0 : Hoist)].state = .parked ∧
    still.drives[(0 : Hoist)].known = false ∧ still.bench = false ∧ still.stopAll = false ∧ still.driveClear 0 ∧
    still.inputs[(0 : Hoist)].areaClear = true ∧ enabled.noneQueued ∧ enabled.drives[(0 : Hoist)].known = true := by
  decide +kernel
theorem witness_Hold : still.ctxs[(0 : Hoist)].state = .parked ∧ (held (ctxDip .dwell)).ctxs[(0 : Hoist)].state =
    .held ∧
    dwelling.listening ∧ dwelling.hoist? 1 = some 0 ∧ dwelling.ctxs[(0 : Hoist)].state ≠ .parked ∧
    dwelling.ctxs[(0 : Hoist)].state ≠ .held ∧ dwelling.stationClear 0 ∧
    (∀ l ∈ dwelling.ctxs[(0 : Hoist)].latched, dwelling.ctxs[(0 : Hoist)].clock.tenths ≤ l.profile.dwell + l.overrun) := by
  decide +kernel
theorem witness_MotionFailed : (reported lowering .move (some .driveFault)).ready ∧
    (reported lowering .move (some .driveFault)).stationClear 0 ∧
    (reported lowering .move (some .driveFault)).mail[(0 : Hoist)].motions = [⟨.move, some .driveFault⟩] ∧
    (reported lowering .move (some .driveFault)).ctxs[(0 : Hoist)].state = .lowering := by decide +kernel
theorem witness_Resume : still.ctxs[(0 : Hoist)].state ≠ .held ∧
    (withEntry .snag .active (held (ctxDip .dwell))).resumeBarred 0 = true ∧
    (∀ c ∈ [ctxIn .staged, ctxIn .weighIn, ctxDip .weighOut, ctxIn .rehang, ctxDip .dwell], (held c).listening ∧
      (held c).hoist? 1 = some 0 ∧ (held c).ctxs[(0 : Hoist)].state = .held ∧
      (held c).ctxs[(0 : Hoist)].heldFrom = some c.state ∧ (held c).resumeBarred 0 = false ∧ (held c).stationClear 0 ∧
      (held c).drives[(0 : Hoist)].known = true ∧ (held c).ctxs[(0 : Hoist)].rehangKept = false ∧
      (held c).ctxs[(0 : Hoist)].dwellT ≠ some 0) := by decide +kernel
theorem witness_ResumeMoves : (held (ctxDip .lowering)).resumeBarred 0 = false ∧
    (held (ctxDip .lowering)).stationClear 0 ∧
    (held (ctxDip .lowering)).driveClear 0 ∧ (held (ctxDip .lowering)).drives[(0 : Hoist)].known = true ∧
    (held (ctxDip .lowering)).passOf 0 = some passA ∧ (held (ctxDip .lowering)).ctxs[(0 : Hoist)].latched =
    some latched ∧
    (held (ctxDip .lowering)).drives[(0 : Hoist)].count ≠ passA.target ∧
    (unknown (held (ctxIn .weighIn))).driveClear 0 ∧ (unknown (held (ctxIn .weighIn))).drives[(0 : Hoist)].known =
    false ∧
    DipState.weighIn.loadBelow = false := by decide +kernel
theorem witness_Abort : ∀ s ∈ [lowering, dwelling, dipping (ctxDip .lifting)], s.listening ∧ s.hoist? 1 = some 0 ∧
    s.noneQueued ∧ s.orderOf 0 = some (order false .active) ∧ (order false .active).closePending = false ∧
    s.ctxs[(0 : Hoist)].latched = some latched ∧ (s.ctxs[(0 : Hoist)].state = .lowering ∨ s.ctxs[(0 : Hoist)].state =
    .dwell ∨
      s.ctxs[(0 : Hoist)].state = .lifting) ∧ s.stationClear 0 ∧ s.driveClear 0 ∧ s.drives[(0 : Hoist)].known = true ∧
    latched.drainPos < s.drives[(0 : Hoist)].count := by decide +kernel
def closing : State := { dwelling with orders := [{ order false .active with closePending := true }] }
def parking (st : DipState) : State :=
  let s := with1 { DipCtx.parked with state := st, heldFrom := if st = .held then some .recal else none,
                                      ret := some .parked } (order false .active)
  { s with orders := [] }
theorem witness_AbortParks : closing.listening ∧ closing.orderOf 0 = some { order false .active with closePending := true } ∧
    closing.ctxs[(0 : Hoist)].state ≠ .parked ∧ ∀ st ∈ [DipState.recal, .held], (parking st).listening ∧
      (parking st).hoist? 1 = some 0 ∧ (parking st).noneQueued ∧ (parking st).stationClear 0 ∧
      (parking st).ctxs[(0 : Hoist)].order = none ∧ (parking st).ctxs[(0 : Hoist)].effective = .recal ∧
      (parking st).ctxs[(0 : Hoist)].ret = some .parked := by decide +kernel
def recalDrain : DipCtx := { ctxDip .recal with ret := some .drain }
theorem witness_AbortElsewhere : ∀ c ∈ [ctxIn .staged, ctxIn .aligning, ctxIn .weighIn, ctxIn .rehang, ctxDip .weighOut,
      recalDrain, ctxDip .drain, ctxDip .lowering, ctxDip .dwell, ctxDip .lifting],
    (∀ s ∈ [dipping c, held c], s.listening ∧ s.hoist? 1 = some 0 ∧ s.noneQueued ∧
      s.ctxs[(0 : Hoist)].order = some ⟨0, 7⟩ ∧ s.orderOf 0 = some (order false .active) ∧ s.stationClear 0 ∧
      s.driveClear 0 ∧ s.drives[(0 : Hoist)].known = true ∧ s.ctxs[(0 : Hoist)].effective = c.state ∧
      s.ctxs[(0 : Hoist)].ret = c.ret) ∧
    (held c).ctxs[(0 : Hoist)].heldFrom = some c.state := by decide +kernel
theorem witness_AbortDrains : (ctxDip .drain).latched = some latched ∧
    latched.drainPos < (dipping (ctxDip .drain)).drives[(0 : Hoist)].count ∧
    (moving (dipping (ctxDip .drain)) 500 none).drives[(0 : Hoist)].count ≤ latched.drainPos := by decide +kernel
theorem witness_CancelAborts : ∀ s ∈ [lowering, dwelling, dipping (ctxDip .lifting), held (ctxDip .dwell), dipping recalDrain],
    s.listening ∧ s.orderByTag 7 = some (order false .active) ∧ (order false .active).closePending = false ∧
    (order false .active).state ≠ .queued ∧ s.hoist? 1 = some 0 ∧
    s.ctxs[(0 : Hoist)].state ∈ [.lowering, .dwell, .lifting, .held, .recal] := by decide +kernel
/-- The same with a second pass. -/
def two (s : State) : State := { s with orders := [order true .active] }
theorem witness_CancelLater : rehanging.listening ∧ rehanging.orderByTag 7 = some (order true .rehang) ∧
    rehanging.noneQueued ∧ rehanging.ctxs[(0 : Hoist)].order = some ⟨0, 7⟩ ∧ rehanging.ctxs[(0 : Hoist)].state = .rehang ∧
    (∀ st ∈ [DipState.drain, .weighOut], (two (dipping (ctxDip st))).listening ∧
      (two (dipping (ctxDip st))).orderByTag 7 = some (order true .active) ∧
      (two (dipping (ctxDip st))).noneQueued ∧ (two (dipping (ctxDip st))).ctxs[(0 : Hoist)].pass = some .one ∧
      (order true .active).pass2.isSome = true ∧ (dipping (ctxDip st)).orderByTag 7 = some (order false .active) ∧
      (order false .active).pass2 = none) := by decide +kernel
/-- H1 held from the state it stands in. -/
def pause (s : State) : State := s.modCtx 0 fun c => { c with state := .held, heldFrom := some c.state }
def resuming : List State :=
  [pause staged, pause rehanging, pause (quietInputs aligning), pause aligning, held (ctxDip .weighIn),
   held (ctxDip .weighOut), held (ctxDip .dwell), held { ctxDip .dwell with dwellT := some 0 }, held (ctxDip .lowering),
   moving (held (ctxDip .lowering)) 2300 none, held (ctxDip .lifting), moving (held (ctxDip .lifting)) 500 none,
   held (ctxDip .abortLift), held (ctxDip .drain), moving (held (ctxDip .drain)) 500 none,
   moving (held { ctxDip .drain with drainExpired := true }) 500 none, held (ctxDip .recal), held recalDrain]
theorem witness_Resumes : (∀ s ∈ resuming, s.listening ∧ s.hoist? 1 = some 0 ∧ s.ctxs[(0 : Hoist)].state = .held ∧
      s.ctxs[(0 : Hoist)].heldFrom.isSome = true ∧ s.resumeBarred 0 = false ∧ s.drives[(0 : Hoist)].known = true) ∧
    (∀ s ∈ resuming.drop 4, s.ctxs[(0 : Hoist)].latched = some latched ∧ s.stationClear 0 ∧ s.driveClear 0 ∧
      s.passOf 0 = some passA) ∧ passA.target = 2300 ∧ latched.drainPos = 500 ∧
    (pause (quietInputs aligning)).inputs[(0 : Hoist)].aligned = false ∧
    (pause aligning).inputs[(0 : Hoist)].aligned = true := by decide +kernel
theorem witness_ResumesRehang : (pause (after (.rehangDone 3 1) (pause rehanging))).ctxs[(0 : Hoist)].rehangKept = true ∧
    (after (.rehangDone 3 1) (pause rehanging)).ctxs[(0 : Hoist)].heldFrom = some .rehang ∧
    (after (.rehangDone 3 1) (pause rehanging)).listening ∧
    (after (.rehangDone 3 1) (pause rehanging)).inhibit = false ∧
    (after (.rehangDone 3 1) (pause rehanging)).orderOf 0 = some (order true .rehang) := by decide +kernel
theorem witness_ResumesRecal : ∀ st ∈ [DipState.lowering, .dwell, .lifting, .abortLift],
    (unknown (held (ctxDip st))).listening ∧ (unknown (held (ctxDip st))).resumeBarred 0 = false ∧
    (unknown (held (ctxDip st))).noneQueued ∧ (unknown (held (ctxDip st))).drives[(0 : Hoist)].known = false ∧
    st.loadBelow = true ∧ (unknown (held (ctxDip st))).orderOf 0 = some (order false .active) := by decide +kernel
theorem witness_Rehang : still.ctxs[(0 : Hoist)].effective ≠ .rehang ∧ rehanging.listening ∧ rehanging.hoist? 1 =
    some 0 ∧
    rehanging.ctxs[(0 : Hoist)].state = .rehang ∧ rehanging.inhibit = false ∧
    rehanging.orderOf 0 = some (order true .rehang) ∧ (withEntry .bathTemp .active rehanging).inhibit = true := by
  decide +kernel
theorem witness_BookOpens : 20000000 < 20000001 ∧ dwelling.kept.bookOpen = true ∧ dwelling.kept.journal ≠ [] ∧
    still.noneQueued ∧ still.kept.bookOpen = false ∧ openBook.kept.bookOpen = true ∧ openBook.kept.journal = [] ∧
    openBook.reserved = 0 ∧ openBook.kept.seqSpent = false := by decide +kernel
theorem witness_PostBooked : EntryKind.dross.code = 3 ∧ EntryKind.ash.code = 4 ∧ EntryKind.correction.code = 5 ∧
    still.kept.bookOpen = false ∧ openBook.kept.bookOpen = true ∧ openBook.free = 256 ∧
    openBook.reserved < openBook.kept.seqLeft ∧ ({ openBook with reserved := 256 } : State).free = 0 :=
    by decide +kernel
theorem witness_Trim : still.kept.bookOpen = false ∧ dwelling.listening ∧ dwelling.kept.bookOpen = true ∧
    dwelling.noneQueued := by
  decide +kernel
theorem witness_Skim : ¬(1 ≤ 0 ∧ 0 ≤ 12 ∧ 12 ≤ 12) ∧ ¬(1 ≤ 1 ∧ 1 ≤ 13 ∧ 13 ≤ 12) ∧
    dwelling.holders[(2 : Fin 12)] = some 0 ∧ (∀ y : Fin 12, y < 2 → dwelling.holders[y] = none) ∧
    (∀ z : Fin 12, 1 ≤ zoneNo z → zoneNo z ≤ 2 → dwelling.holders[z] = none) ∧
    (∀ z : Fin 12, 5 ≤ zoneNo z → zoneNo z ≤ 12 → dwelling.holders[z] = none) := by decide +kernel
def heldStaged : State :=
  mailed (with1 { ctxIn .held with heldFrom := some .staged, claim := some 4 } (order false .active)) fun m =>
    { m with grants := [⟨7, .one, 4⟩] }
theorem witness_GrantHeld : heldStaged.ready ∧ heldStaged.mail[(0 : Hoist)].grants = [⟨7, .one, 4⟩] ∧
    heldStaged.ctxs[(0 : Hoist)].claim = some 4 ∧ heldStaged.ctxs[(0 : Hoist)].order.map OrderRef.tag = some 7 ∧
    heldStaged.ctxs[(0 : Hoist)].pass = some .one ∧ heldStaged.ctxs[(0 : Hoist)].state = .held ∧
    heldStaged.ctxs[(0 : Hoist)].heldFrom = some .staged := by decide +kernel
theorem witness_Grant : granted.ready ∧ granted.mail[(0 : Hoist)].grants = [⟨7, .one, 4⟩] ∧
    granted.ctxs[(0 : Hoist)].claim = some 4 ∧ granted.ctxs[(0 : Hoist)].order.map OrderRef.tag = some 7 ∧
    granted.ctxs[(0 : Hoist)].pass = some .one ∧ granted.ctxs[(0 : Hoist)].state = .staged ∧
    granted.inputs[(0 : Hoist)].aligned = true ∧
    (mailed staged fun m => { m with grants := [⟨7, .one, 4⟩] }).ctxs[(0 : Hoist)].claim ≠ some 4 := by decide +kernel
theorem witness_WeighNow : still.hoist? 1 = some 0 ∧ still.ctxs[(0 : Hoist)].state = .parked ∧
    (∀ q ∈ still.wu.queue, q.hoist ≠ 0) ∧ (∃ q ∈ (serving none).wu.queue, q.hoist = 0) ∧
    dwelling.ctxs[(0 : Hoist)].state ≠ .parked := by decide +kernel
theorem witness_WeighTimer : ∀ d ∈ [none, some (7, Pass.one)], (serving d).ready ∧
    (serving d).wu.service = some (service d) ∧ (service d).timer = 0 ∧
    (serving d).wu.waiting[(service d).req.hoist] = false := by
  decide +kernel
def servingLonger : State :=
  { serving none with wu := { (serving none).wu with service := some { service none with timer := 3 } } }
theorem witness_WeighTimer_above : servingLonger.ready ∧ servingLonger.wu.service.isSome = true ∧
    (∀ v ∈ servingLonger.wu.service, v.timer ≠ 0) ∧ still.ready ∧ still.wu.service = none := by decide +kernel
def settled : State := { still with wu := { still.wu with settled := some 0 } }
def asked : State := { still with wu := { still.wu with queue := [⟨0, none⟩] } }
theorem witness_SamplePeriod : settled.ready ∧ (∀ h : Hoist, settled.ctxs[h].state = .parked) ∧ settled.wu.service =
    none ∧
    ¬(4990 < settled.wu.chans[tempChannel].age ∧ settled.wu.chans[tempChannel].age ≤ 5000) ∧
    settled.wu.settled = some settled.wu.chan ∧ settled.wu.chan = loadChannel 0 ∧
    still.wu.settled ≠ some still.wu.chan ∧ still.wu.queue = [] ∧ asked.wu.queue = [⟨0, none⟩] ∧ asked.ready ∧
    asked.wu.service = none := by decide +kernel
/-- H1 in a state, its load channel settled, other hoists at rest. -/
def sampled (c : DipCtx) : State :=
  let s := dipping c
  { s with wu := { s.wu with settled := some 0 } }
def mild (s : State) : State := reacting .notify 0 s
theorem witness_Sample : ∀ s ∈ [sampled { ctxDip .lowering with contact := false }, mild (sampled (ctxDip .dwell)),
      mild (sampled { ctxDip .lifting with weighIn := some 0, snag := true }), mild (sampled (ctxDip .drain))],
    s.ready ∧ s.installed 0 = true ∧ ¬(4990 < s.wu.chans[tempChannel].age ∧ s.wu.chans[tempChannel].age ≤ 5000) ∧
    (∀ i : Hoist, i ≠ 0 → s.ctxs[i].state.moving = false) ∧ s.wu.settled = some s.wu.chan ∧ s.wu.chan = loadChannel 0 ∧
    s.wu.service = none ∧ s.ctxs[(0 : Hoist)].state.monitored = true ∧ s.ctxs[(0 : Hoist)].weighIn.isSome = true ∧
    s.ctxs[(0 : Hoist)].latched = some latched ∧ s.ctxs[(0 : Hoist)].order = some ⟨0, 7⟩ ∧
    s.ctxs[(0 : Hoist)].pass = some .one ∧ s.passOf 0 = some passA ∧ s.stationClear 0 ∧
    s.ctxs[(0 : Hoist)].entrySeq = some pickup.seq ∧ s.kept.journal = [] ++ pickup :: [] ∧
    s.entries[FaultKind.snag.ix].state = .clear ∧ s.entries[FaultKind.loadLost.ix].state = .clear := by decide +kernel
theorem witness_SampleValues : ((still.kept.weigh.limits.contact : Int) < 48120 - toLoad still.kept.weigh.calib[0] 40000 ∧
      (0 : Int) + still.kept.weigh.limits.snag < toLoad still.kept.weigh.calib[0] 40000 ∧
      toLoad still.kept.weigh.calib[0] 40000 ≤ (48120 : Int) + still.kept.weigh.limits.snag ∧
      toLoad still.kept.weigh.calib[0] 345 < still.kept.weigh.limits.slack) ∧
    (mild dwelling).latchesAlone .snag ∧ (mild dwelling).latchesAlone .loadLost ∧
    (mild dwelling).latchesAlone .scanStarved ∧ (mild dwelling).latchesAlone .bathTemp ∧
    (mild dwelling).latchesAlone .weighUnstable ∧ (mild dwelling).latchesAlone .levelMismatch := by decide +kernel
/-- The readings of H1 and of the bath at given ages. -/
def aged (load temp : Nat) (s : State) : State :=
  let a : Chan := { s.wu.chans[(0 : Channel)] with age := load }
  let b : Chan := { s.wu.chans[tempChannel] with age := temp }
  { s with wu := { s.wu with chans := (s.wu.chans.set 0 a).set 4 b } }
theorem witness_SampleAges : lowering.ctxs[(0 : Hoist)].state.moving = true ∧
    (aged 391 0 lowering).kept.weigh.limits.ageLimit < min 65535 ((aged 391 0 lowering).wu.chans[loadChannel 0].age + 10) ∧
    min 65535 ((aged 390 0 lowering).wu.chans[loadChannel 0].age + 10) ≤ (aged 390 0 lowering).kept.weigh.limits.ageLimit ∧
    lowering.ctxs[(0 : Hoist)].starved = false := by decide +kernel
/-- A weighing of H1 being served, with a window of three. -/
def windowed (dc : Option (Nat × Pass)) : State :=
  let s := still.modKept fun r => { r with weigh := { r.weigh with limits := { r.weigh.limits with window := 3 } } }
  { s with wu := { s.wu with settled := some 0, forService := true, queue := [⟨0, dc⟩, ⟨1, none⟩],
                             service := some { service dc with window := [40, 41] } } }
theorem witness_Window : (∀ dc ∈ [none, some (7, Pass.one)], (windowed dc).ready ∧ (windowed dc).installed 0 = true ∧
      (∀ i : Hoist, (windowed dc).ctxs[i].state.moving = false) ∧
      (windowed dc).wu.settled = some (windowed dc).wu.chan ∧ (windowed dc).wu.chan = loadChannel 0 ∧
      (windowed dc).wu.forService = true ∧ (windowed dc).ctxs[(0 : Hoist)].state.monitored = false ∧
      (windowed dc).wu.waiting[(0 : Hoist)] = false ∧ (windowed dc).kept.weigh.limits.window = 3 ∧
      (windowed dc).kept.weigh.limits.band = 50) ∧
    ((∃ a ∈ [40, 41, (90 : Int)], ∃ b ∈ [40, 41, (90 : Int)], a - b = 50) ∧
      ∀ a ∈ [40, 41, (90 : Int)], ∀ b ∈ [40, 41, (90 : Int)], a - b ≤ 50) ∧
    (∃ a ∈ [40, 41, (91 : Int)], ∃ b ∈ [40, 41, (91 : Int)], a - b = 51) ∧
      ∀ a ∈ [40, 41, (91 : Int)], ∀ b ∈ [40, 41, (91 : Int)], a - b ≤ 51 := by decide +kernel
/-- The temperature channel settled, BATH_TEMP as last evaluated. -/
def bathed (b : Option BathCond) : State :=
  let s := mild still
  { s with wu := { s.wu with chan := tempChannel, settled := some tempChannel, bath := b } }
theorem witness_Bath : (∀ b ∈ [none, some BathCond.absent, some .stale], (bathed b).ready ∧
      (∀ h : Hoist, (bathed b).ctxs[h].state.moving = false) ∧ (bathed b).wu.settled = some (bathed b).wu.chan ∧
      (bathed b).wu.chan = tempChannel ∧ (bathed b).entries[FaultKind.bathTemp.ix].presentLine = false ∧
      (bathed b).latchesAlone .bathTemp ∧ (bathed b).kept.weigh.limits.bathLow = 4400 ∧
      (bathed b).kept.weigh.limits.bathHigh = 4650) ∧
    still.reactionOf .bathTemp ≠ .stopAll ∧ (aged 0 4991 still).wu.chans[tempChannel].age = 4991 ∧ (aged 0 5000 still).wu.chans[tempChannel].value = none := by
  decide +kernel
theorem witness_WeighIn : weighingIn.ready ∧ weighingIn.mail[(0 : Hoist)].results = [⟨7, .one, some 48120, 16, some 40⟩] ∧
    weighingIn.ctxs[(0 : Hoist)].state = .weighIn ∧ weighingIn.ctxs[(0 : Hoist)].asked = .placed ∧
    weighingIn.ctxs[(0 : Hoist)].order = some ⟨0, 7⟩ ∧ weighingIn.ctxs[(0 : Hoist)].pass = some .one ∧
    weighingIn.orderOf 0 = some (order false .active) ∧ weighingIn.stationClear 0 ∧ weighingIn.driveClear 0 ∧
    weighingIn.drives[(0 : Hoist)].known = true ∧ weighingIn.drives[(0 : Hoist)].count ≠ passA.target :=
    by decide +kernel
theorem witness_WeighOut : weighingOut.ready ∧ weighingOut.noneQueued ∧
    weighingOut.mail[(0 : Hoist)].results = [⟨7, .one, some 40000, 16, some 40⟩] ∧ weighingOut.ctxs[(0 : Hoist)].state = .weighOut ∧
    weighingOut.ctxs[(0 : Hoist)].asked = .placed ∧ weighingOut.ctxs[(0 : Hoist)].order = some ⟨0, 7⟩ ∧
    weighingOut.ctxs[(0 : Hoist)].pass = some .one ∧ weighingOut.orderOf 0 = some (order false .active) ∧
    weighingOut.ctxs[(0 : Hoist)].weighIn = some 48120 ∧ weighingOut.ctxs[(0 : Hoist)].entrySeq = some pickup.seq ∧
    weighingOut.kept.journal = [] ++ pickup :: [] ∧ pickup.kind = .pickup ∧ pickup.final = false ∧ pickup.amount = 0 ∧
    pickup.weighIn = some 48120 := by decide +kernel
/-- A result in transit for H1's weighing. -/
def weighed (s : State) (v : Option Int) : State := mailed (mild s) fun m => { m with results := [⟨7, .one, v, 16, some 40⟩] }
theorem witness_Weighed : (∀ v ∈ [none, some 40000, some (48121 : Int)],
      ∀ s ∈ [weighed weighingOut v, weighed (two weighingOut) v, weighed { weighingOut with
        orders := [{ order true .active with closePending := true }] } v], s.ready ∧ s.noneQueued ∧
      s.mail[(0 : Hoist)].results = [⟨7, .one, v, 16, some 40⟩] ∧ s.ctxs[(0 : Hoist)].state = .weighOut ∧
      s.ctxs[(0 : Hoist)].asked = .placed ∧ s.ctxs[(0 : Hoist)].order = some ⟨0, 7⟩ ∧
      s.ctxs[(0 : Hoist)].pass = some .one ∧ (s.orderOf 0).isSome = true ∧ s.installed 0 = true ∧
      s.latchesAlone .weighUnstable ∧ s.ctxs[(0 : Hoist)].weighIn = some 48120 ∧
      s.ctxs[(0 : Hoist)].entrySeq = some pickup.seq ∧ s.kept.journal = [] ++ pickup :: []) ∧
    (weighed weighingIn none).ctxs[(0 : Hoist)].state = .weighIn ∧ (weighed weighingIn none).noneQueued ∧
    (weighed weighingIn none).ctxs[(0 : Hoist)].asked = .placed ∧ (weighed weighingIn none).latchesAlone .weighUnstable := by
  decide +kernel
def arriving (s : State) : State := mailed s fun m => { m with level := [.capture capture] }
def frozen : State := { dwelling with lu := { dwelling.lu with frozen := true } }
def crowded : State := { dwelling with lu := { dwelling.lu with fifos := Vector.replicate 4 (List.replicate 4 capture) } }
theorem witness_Captures : (arriving dwelling).ready ∧ (arriving dwelling).mail[(0 : Hoist)].level =
    [.capture capture] ∧
    capture.hoist = 0 ∧ dwelling.lu.frozen = false ∧ dwelling.lu.fifos[(0 : Hoist)].length < 4 ∧ frozen.lu.frozen =
    true ∧
    crowded.lu.frozen = false ∧ 4 ≤ crowded.lu.fifos[(0 : Hoist)].length ∧
    crowded.ctxs[(0 : Hoist)].order.map OrderRef.tag = some capture.tag ∧
    crowded.ctxs[(0 : Hoist)].pass = some capture.pass := by decide +kernel
theorem witness_View : (mailed still fun m => { m with level := [.view HoistView.parked] }).mail[(0 : Hoist)].level =
    [.view HoistView.parked] := by decide +kernel
theorem witness_Processed : (captured capture [] 0).ready ∧ (captured capture [] 0).quiet = true ∧
    (captured capture [] 0).lu.fifos[(0 : Hoist)] = [capture] ∧
    (∀ i : Hoist, i ≠ 0 → (captured capture [] 0).lu.fifos[i] = []) ∧ capture.displaced = false ∧
    (captured { capture with time := 0 } [] 120).tenthsCount - 0 ≤ 10 * still.kept.level.ageLimit ∧
    10 * still.kept.level.ageLimit < (captured { capture with time := 0 } [] 121).tenthsCount - 0 ∧
    still.kept.feed.auto = false ∧ (captured capture [] 0).predicted = 1300 ∧
    ({ capture with displaced := true } : Capture).displaced = true := by decide +kernel
/-- An accepted capture far from the book's level, with the auto-feed on. -/
def deep (n : Nat) : State :=
  (mild (captured { capture with depth := n } [] 0)).modKept fun r =>
    { r with bookOpen := true, feed := { r.feed with auto := true } }
theorem witness_Mismatch : ∀ n ∈ [1240, 1360, 1361], (deep n).ready ∧ (deep n).quiet = true ∧
    (deep n).lu.fifos[(0 : Hoist)] = [{ capture with depth := n }] ∧
    (∀ i : Hoist, i ≠ 0 → (deep n).lu.fifos[i] = []) ∧
    (deep n).tenthsCount - 5 ≤ 10 * (deep n).kept.level.ageLimit ∧ (deep n).latchesAlone .levelMismatch ∧
    (2 * [n].sum + [n].length) / (2 * [n].length) = n ∧ (deep n).predicted = 1300 ∧ (deep n).kept.level.band = 60 ∧
    (deep n).kept.feed.auto = true ∧ (deep n).kept.feed.numbers.threshold = 1340 ∧ (deep n).feeder.state = .idle ∧
    (deep n).feeder.relay = none ∧ (deep n).autoRequests = [] ∧
    (deep n).kept.journal.length + (deep n).reserved < 256 := by decide +kernel
theorem witness_BenchEntered : benching.bench = true ∧ still.bench = false ∧ still.link.straps.benchPermit = false ∧
    benchReady.bench = false ∧ benchReady.link.straps.benchPermit = true ∧
    (∀ h : Hoist, benchReady.ctxs[h].state = .parked) ∧ benchReady.feeder.state = .idle ∧ benchReady.listening ∧
    benching.listening ∧ benching.noneQueued := by decide +kernel
theorem witness_BenchDriven : benching.hoist? 3 = none ∧ benching.hoist? 1 = some 0 ∧ bench.ok = true ∧
    ({ bench with rate := 0 } : BenchFields).ok = false ∧ benching.driveClear 0 ∧
    benching.drives[(0 : Hoist)].burst = none := by decide +kernel
theorem witness_Pulses : lowering.ready ∧ lowering.drives[(0 : Hoist)].motion = some ⟨.move 2300, 60⟩ ∧
    lowering.stationClear 0 ∧ lowering.inputs[(0 : Hoist)].ready = true ∧ lowering.drives[(0 : Hoist)].brakeRel = true ∧
    lowering.ctxs[(0 : Hoist)].state.steps = true ∧ lowering.drives[(0 : Hoist)].dir = false ∧
    min 8000 (lowering.drives[(0 : Hoist)].count + 1) = 2300 ∧
    recalibrating.drives[(0 : Hoist)].motion = some ⟨.recal 8000, 60⟩ ∧
    recalibrating.drives[(0 : Hoist)].travel + 1 < 8000 ∧ dwelling.ctxs[(0 : Hoist)].state.steps = false :=
    by decide +kernel
def waiting : State := (reacting .hold 3 lowering).modDrive 0 fun d => { d with readyT := some 1 }
theorem witness_ReadyTimeout : waiting.ready ∧ waiting.drives[(0 : Hoist)].readyT.isSome = true ∧
    waiting.drives[(0 : Hoist)].motion = some ⟨.move 2300, 60⟩ ∧ waiting.stationClear 0 ∧ waiting.installed 0 = true ∧
    waiting.entries[FaultKind.driveFault.ix].state = .clear ∧ waiting.kept.faults[FaultKind.driveFault.ix].delay ≠ 0 ∧
    (bursting.drives[(0 : Hoist)].readyT.isSome = true ∧ bursting.drives[(0 : Hoist)].motion = none ∧
    bursting.drives[(0 : Hoist)].burst = some ⟨3, 9, 4⟩) := by decide +kernel
theorem witness_DriveInputs : waiting.inputs[(0 : Hoist)].ready = true ∧ waiting.inputs[(0 : Hoist)].driveFault =
    false ∧
    (after (.readyChange 0 false) lowering).inputs[(0 : Hoist)].ready = false ∧
    (after (.readyChange 0 false) lowering).drives[(0 : Hoist)].motion.isSome = true ∧
    recalibrating.inputs[(0 : Hoist)].top = false ∧ recalibrating.stationClear 0 ∧
    still.drives[(0 : Hoist)].motion = none ∧ still.drives[(0 : Hoist)].burst = none := by decide +kernel
def shaking (left : Nat) (down : Bool) (n : Nat) : State :=
  moving (dipping (ctxDip .drain)) n (some ⟨.shake left 50 down (if down then n + 50 else n - 50), 200⟩)
def rising (n : Nat) : State :=
  (moving (dipping (ctxDip .lifting)) n (some ⟨.move 5, 20⟩)).modDrive 0 fun d => { d with dir := true }
def sinking (n : Nat) : State := moving (dipping (ctxDip .lowering)) n (some ⟨.move 2300, 60⟩)
theorem witness_Top : (∀ s ∈ [rising 20, sinking 20, shaking 1 false 20, shaking 2 false 20, shaking 2 true 20,
      reacting .hold 3 (rising 21), reacting .hold 3 (sinking 21), reacting .hold 3 (shaking 2 true 21)], s.ready ∧
      s.inputs[(0 : Hoist)].top = false ∧ s.stationClear 0 ∧ s.installed 0 = true ∧
      s.entries[FaultKind.positionError.ix].state = .clear) ∧
    (rising 20).drives[(0 : Hoist)].dir = true ∧ (sinking 20).drives[(0 : Hoist)].dir = false ∧
    (reacting .hold 3 (rising 21)).kept.faults[FaultKind.positionError.ix].delay ≠ 0 := by decide +kernel
theorem witness_Inputs : still.ready ∧ still.drives[(0 : Hoist)].motion = none ∧ still.drives[(0 : Hoist)].burst =
    none ∧
    still.ctxs[(0 : Hoist)].state = .parked ∧ (∀ z : Fin 12, still.holders[z] ≠ some 0) ∧
    (quietInputs aligning).ctxs[(0 : Hoist)].state = .aligning ∧ (quietInputs aligning).inputs[(0 : Hoist)].aligned =
    false ∧
    (after (.drivePowerChange false) still).drivePower = false ∧
    (∀ line ∈ [InputLine.ready, .driveFault, .top, .aligned, .areaClear, .rehang],
      line.of still.inputs[(0 : Hoist)] ≠ !line.of still.inputs[(0 : Hoist)]) ∧ still.link.tx = none ∧
    still.link.replies = [] ∧ still.link.latches[(0 : Hoist)].top = false ∧
    (still.modKept fun r => { r with notices := Vector.replicate 6 true }).kept.notices[NoticeClass.input.ix] = true ∧
    State.reset.link.tx.isSome = true := by decide +kernel
theorem witness_InputsAnywhere : (∀ s ∈ [dwelling, lowering, bursting, recalibrating], s.ready ∧
      ∀ line ∈ [InputLine.ready, .driveFault, .top, .aligned, .areaClear, .rehang],
        line.of s.inputs[(0 : Hoist)] ≠ !line.of s.inputs[(0 : Hoist)]) ∧
    dwelling.drivePower ≠ false ∧ (after (.drivePowerChange false) dwelling).drivePower ≠ true ∧
    (after (.drivePowerChange false) dwelling).ready := by decide +kernel
/-- A kind latched by H2, with a count. -/
def joined (k : FaultKind) (st : EntryState) (n : Nat) (s : State) : State :=
  s.modEntry k fun e => { e with state := st, involved := #v[false, true, false, false], count := some n }
theorem witness_Joins : (∀ r ∈ [Reaction.hold, .abort], ∀ s ∈ [joined .alignLost .active 254 (reacting r 9 dwelling),
      joined .alignLost .active 255 (reacting r 0 lowering), joined .areaBreach .active 1 (reacting r 0 lowering)],
      s.ready ∧ s.installed 0 = true ∧ s.noneQueued ∧ s.orderOf 0 = some (order false .active) ∧ s.driveClear 0 ∧
      s.mail[(0 : Hoist)].motions = []) ∧
    (joined .alignLost .active 254 (reacting .hold 9 dwelling)).applies .alignLost 0 ∧
    (joined .areaBreach .active 1 (reacting .abort 0 lowering)).applies .areaBreach 0 ∧
    (joined .alignLost .alarm 254 (reacting .hold 9 dwelling)).reachesNone .alignLost 0 ∧
    (withEntry .alignLost .active (reacting .hold 0 dwelling)).reachesNone .alignLost 0 ∧
    (joined .alignLost .active 1 (reacting .stopAll 0 dwelling)).reachesNone .alignLost 0 ∧
    (mild dwelling).reachesNone .alignLost 0 ∧ (reacting .hold 3 lowering).reachesNone .areaBreach 0 := by
  refine ⟨by decide +kernel, by decide +kernel, by decide +kernel, ?_, ?_, ?_, ?_, ?_⟩ <;>
    simp only [State.reachesNone, State.applies] <;> decide +kernel
/-- The ALIGNED or AREA_CLEAR of H1 absent. -/
def absentAt (line : InputLine) (s : State) : State := s.modInputs 0 fun i => line.put i false
theorem witness_AlignLost : ∀ s ∈ [mild dwelling, reacting .hold 0 dwelling, reacting .abort 0 dwelling,
      reacting .abort 0 lowering, reacting .abort 0 (dipping (ctxDip .lifting))], s.ready ∧ s.installed 0 = true ∧
    s.inputs[(0 : Hoist)].areaClear = true ∧ s.holders[(2 : Fin 12)] = some 0 ∧
    (∃ st ∈ s.ctxs[(0 : Hoist)].standsIn, st.needsAligned = true) ∧
    InputLine.aligned.of s.inputs[(0 : Hoist)] = true ∧ InputLine.aligned.of (absentAt .aligned s).inputs[(0 : Hoist)] =
      false ∧
    s.entries[FaultKind.alignLost.ix].present[(0 : Hoist)] = false ∧ s.entries[FaultKind.alignLost.ix].state = .clear ∧
    s.kept.faults[FaultKind.alignLost.ix].delay = 0 ∧ s.noneQueued ∧ s.orderOf 0 = some (order false .active) ∧
    s.ctxs[(0 : Hoist)].latched = some latched ∧
    s.ctxs[(0 : Hoist)].clock.tenths ≤ latched.profile.dwell + latched.overrun ∧ s.driveClear 0 ∧
    s.drives[(0 : Hoist)].known = true ∧ s.mail[(0 : Hoist)].motions = [] := by decide +kernel
theorem witness_AreaBreach : ∀ s ∈ [mild lowering, reacting .hold 0 recalibrating, reacting .abort 0 lowering,
      shaking 2 true 520], s.ready ∧ s.installed 0 = true ∧ s.inputs[(0 : Hoist)].aligned = true ∧
    (s.ctxs[(0 : Hoist)].state.moving = true ∨
      (s.ctxs[(0 : Hoist)].state = .drain ∧ s.drives[(0 : Hoist)].motion.isSome = true)) ∧
    InputLine.areaClear.of s.inputs[(0 : Hoist)] = true ∧
    InputLine.areaClear.of (absentAt .areaClear s).inputs[(0 : Hoist)] = false ∧
    s.entries[FaultKind.areaBreach.ix].present[(0 : Hoist)] = false ∧
    s.entries[FaultKind.areaBreach.ix].state = .clear := by decide +kernel
def arrived : State := reported (moving (dipping (ctxDip .lowering)) 2300 none) .move none
def lifted : State := reported (moving (dipping (ctxDip .lifting)) 500 none) .move none
def homed : State :=
  let s := with1 { DipCtx.parked with state := .recal, ret := some .parked } (order false .active)
  reported { s with orders := [] } .recal none
theorem witness_Arrived : arrived.ready ∧ arrived.stationClear 0 ∧ arrived.mail[(0 : Hoist)].motions = [⟨.move, none⟩] ∧
    arrived.ctxs[(0 : Hoist)].state = .lowering ∧ arrived.passOf 0 = some passA ∧
    arrived.drives[(0 : Hoist)].count = passA.target ∧ arrived.ctxs[(0 : Hoist)].latched = some latched :=
    by decide +kernel
theorem witness_Lifted : lifted.ready ∧ lifted.stationClear 0 ∧ lifted.mail[(0 : Hoist)].motions = [⟨.move, none⟩] ∧
    lifted.ctxs[(0 : Hoist)].state = .lifting ∧ lifted.passOf 0 = some passA ∧
    lifted.ctxs[(0 : Hoist)].latched = some latched ∧ lifted.drives[(0 : Hoist)].count ≤ latched.drainPos ∧
    lifted.ctxs[(0 : Hoist)].entered = true ∧ lifted.ctxs[(0 : Hoist)].clock.run = .running ∧
    0 < latched.profile.shakes ∧
    lifted.driveClear 0 ∧ lifted.drives[(0 : Hoist)].known = true := by decide +kernel
/-- H1's dip context with the shakes and the drain time of its profile. -/
def shaken (shakes drain : Nat) (c : DipCtx) : DipCtx :=
  { c with latched := some { latched with profile := { latched.profile with shakes := shakes, drain := drain } } }
/-- A report of H1's hook at the top, its position known. -/
def topped (c : DipCtx) (m : Moved) : State := reported (moving (dipping c) 0 none) m none
theorem witness_Discarded : (∀ st ∈ [DipState.parked, .staged, .aligning, .weighIn, .dwell, .weighOut, .rehang, .held],
      (topped (ctxIn st) .move).ready ∧ (topped (ctxIn st) .move).ctxs[(0 : Hoist)].state = st) ∧
    (topped (ctxDip .recal) .move).mail[(0 : Hoist)].motions = [⟨.move, none⟩] ∧
    (topped (ctxDip .lifting) .shake).mail[(0 : Hoist)].motions = [⟨.shake, none⟩] ∧
    (topped (ctxDip .drain) .recal).mail[(0 : Hoist)].motions = [⟨.recal, none⟩] := by decide +kernel
theorem witness_LoadOut : (∀ n ∈ [0, 2], ∀ d ∈ [0, 300], ∀ st ∈ [DipState.lifting, .lowering, .abortLift],
      (topped (shaken n d (ctxDip st)) .move).ready ∧ (topped (shaken n d (ctxDip st)) .move).stationClear 0 ∧
      (topped (shaken n d (ctxDip st)) .move).driveClear 0 ∧
      (topped (shaken n d (ctxDip st)) .move).mail[(0 : Hoist)].motions = [⟨.move, none⟩] ∧
      (topped (shaken n d (ctxDip st)) .move).passOf 0 = some passA ∧
      (topped (shaken n d (ctxDip st)) .move).drives[(0 : Hoist)].known = true ∧
      (topped (shaken n d (ctxDip st)) .move).drives[(0 : Hoist)].motion = none ∧
      (topped (shaken n d (ctxDip st)) .move).drives[(0 : Hoist)].count = 0) ∧ passA.target ≠ 0 ∧
    (topped (ctxDip .recal) .recal).ready ∧ (topped (ctxDip .recal) .recal).stationClear 0 ∧
    (topped (ctxDip .recal) .recal).ctxs[(0 : Hoist)].ret = none ∧
    (topped (ctxDip .recal) .recal).drives[(0 : Hoist)].known = true := by decide +kernel
/-- H1's dip context in DRAIN, or in RECAL with that return state, with its timer. -/
def drainAt (st : DipState) (timer : Option Nat) : DipCtx :=
  { ctxDip st with ret := if st = .recal then some .drain else none, drainT := timer, shakeDone := true }
theorem witness_DrainGoesOn : ∀ t ∈ [some 0, some 7], ∀ st ∈ [DipState.drain, .recal],
    (topped (drainAt st t) .move).ready ∧ (topped (drainAt st t) .move).stationClear 0 ∧
    (topped (drainAt st t) .move).ctxs[(0 : Hoist)].returning = false ∧
    (topped (drainAt st t) .move).ctxs[(0 : Hoist)].recalAbort = false ∧
    (topped (drainAt st t) .move).ctxs[(0 : Hoist)].drainT = t ∧
    (topped (drainAt st t) .move).drives[(0 : Hoist)].motion = none ∧
    (topped (drainAt st t) .move).drives[(0 : Hoist)].known = true := by decide +kernel
theorem witness_Returns : (∀ st ∈ [DipState.staged, .aligning, .weighIn, .weighOut, .rehang], ∀ k ∈ [true, false],
      (topped { ctxDip .recal with ret := some st, rehangKept := k } .recal).ready ∧
      (topped { ctxDip .recal with ret := some st, rehangKept := k } .recal).ctxs[(0 : Hoist)].rehangKept = k ∧
      (topped { ctxDip .recal with ret := some st, rehangKept := k } .recal).drives[(0 : Hoist)].known = true ∧
      (topped { ctxDip .recal with ret := some st, rehangKept := k } .recal).inhibit = false ∧
      (topped { ctxDip .recal with ret := some st, rehangKept := k } .recal).orderOf 0 = some (order false .active)) ∧
    still.inputs[(0 : Hoist)].aligned = true ∧ (quietInputs still).inputs[(0 : Hoist)].aligned = false := by
  decide +kernel
theorem witness_Homed : homed.ready ∧ homed.stationClear 0 ∧ homed.mail[(0 : Hoist)].motions = [⟨.recal, none⟩] ∧
    homed.noneQueued ∧ homed.ctxs[(0 : Hoist)].state = .recal ∧ homed.ctxs[(0 : Hoist)].ret = some .parked ∧
    homed.drives[(0 : Hoist)].known = true := by decide +kernel
def draining (done : Bool) : State := dipping { ctxDip .drain with drainT := some 0, shakeDone := done }
theorem witness_DipTimers : dwelling.ctxs[(0 : Hoist)].dwellT.isSome = true ∧ dwelling.ctxs[(0 : Hoist)].latched =
    some latched ∧
    dwelling.ctxs[(0 : Hoist)].state = .dwell ∧ dwelling.stationClear 0 ∧ dwelling.driveClear 0 ∧
    dwelling.drives[(0 : Hoist)].known = true ∧ latched.drainPos < dwelling.drives[(0 : Hoist)].count ∧
    (held (ctxDip .dwell)).ctxs[(0 : Hoist)].state = .held ∧
    ∀ d : Bool, (draining d).ready ∧ (draining d).ctxs[(0 : Hoist)].drainT.isSome = true ∧
      (draining d).ctxs[(0 : Hoist)].state = .drain ∧ (draining d).ctxs[(0 : Hoist)].returning = false ∧
      (draining d).stationClear 0 ∧ (draining d).ctxs[(0 : Hoist)].shakeDone = d := by decide +kernel
theorem witness_Overrun : ∀ st ∈ [DipState.lowering, .dwell, .lifting], (reacting .hold 3 (held (ctxDip st))).ready ∧
    (reacting .hold 3 (held (ctxDip st))).ctxs[(0 : Hoist)].state = .held ∧
    (reacting .hold 3 (held (ctxDip st))).ctxs[(0 : Hoist)].latched = some latched ∧
    (reacting .hold 3 (held (ctxDip st))).ctxs[(0 : Hoist)].heldFrom = some st ∧
    (reacting .hold 3 (held (ctxDip st))).ctxs[(0 : Hoist)].contact = true ∧
    (reacting .hold 3 (held (ctxDip st))).ctxs[(0 : Hoist)].overrunRaised = false ∧
    (reacting .hold 3 (held (ctxDip st))).kept.faults[FaultKind.dwellOverrun.ix].delay ≠ 0 := by decide +kernel
/-- A held hoist out of line, with ALIGN_LOST occurring on it. -/
def misaligned : State :=
  ((joined .dwellOverrun .active 3 (reacting .abort 0 (held (ctxDip .lifting)))).modEntry .alignLost fun e =>
    { e with present := e.present.set 0 true }).modInputs 0 fun i => { i with aligned := false }
theorem witness_OverrunJoins : (∀ s ∈ [misaligned,
      joined .dwellOverrun .active 3 (reacting .hold 0 (held (ctxDip .dwell))),
      joined .dwellOverrun .active 3 (reacting .abort 0 (held (ctxDip .lifting)))], s.ready ∧ s.installed 0 = true ∧
      s.ctxs[(0 : Hoist)].overrunRaised = false ∧ s.ctxs[(0 : Hoist)].latched = some latched ∧ s.noneQueued ∧
      s.orderOf 0 = some (order false .active) ∧ (order false .active).closePending = false) ∧
    (joined .dwellOverrun .active 3 (reacting .hold 0 (held (ctxDip .dwell)))).reactionOf .dwellOverrun = .hold ∧
    (joined .dwellOverrun .active 3 (reacting .abort 0 (held (ctxDip .lifting)))).applies .dwellOverrun 0 ∧
    (held (ctxDip .lifting)).inputs[(0 : Hoist)].aligned = true ∧
    (misaligned.entries[FaultKind.alignLost.ix].present[(0 : Hoist)] = true ∧ misaligned.inputs[(0 : Hoist)].aligned =
      false ∧ misaligned.reactionOf .dwellOverrun = .abort) ∧
    (mild (held (ctxDip .dwell))).reachesNone .dwellOverrun 0 := by
  refine ⟨by decide +kernel, by decide +kernel, by decide +kernel, by decide +kernel, by decide +kernel, ?_⟩
  simp only [State.reachesNone, State.applies]
  decide +kernel
def asking : State :=
  { openBook with autoRequests := [4], kept := { openBook.kept with feed := { openBook.kept.feed with auto := true } } }
def twoSent : State :=
  { requested with feeder := { requested.feeder with tx := [.dispense 4, .dispense 5] } }
theorem witness_Feed : openBook.listening ∧ openBook.bench = false ∧ openBook.feeder.state = .idle ∧
    openBook.feeder.relay = none ∧ openBook.kept.bookOpen = true ∧ openBook.canReserve 1 = true ∧
    asking.autoRequests = [4] ∧ asking.kept.feed.auto = true ∧ asking.canReserve 1 = true ∧ asking.feeder.state =
    .idle ∧
    ({ requested with autoRequests := [4] } : State).feeder.state ≠ .idle ∧ requested.feeder.tx = [.dispense 5] ∧
    requested.feeder.state = .requested ∧ (∀ n, FeederTx.dispense n ∉ requested.feeder.tx.drop 1) ∧
    twoSent.feeder.tx = .dispense 4 :: [.dispense 5] ∧ FeederTx.dispense 5 ∈ twoSent.feeder.tx.drop 1 := by
  refine ⟨?_, ?_, ?_, ?_, ?_, ?_, ?_, ?_, ?_, ?_, ?_, ?_, ?_, fun _ => List.not_mem_nil, ?_, ?_⟩ <;> decide +kernel
theorem witness_FeederFrames : requested.ready ∧ requested.feeder.relay = none ∧ requested.feeder.state = .requested ∧
    requested.noneQueued ∧ feeding.ready ∧ feeding.feeder.relay = none ∧ feeding.feeder.state = .feeding ∧
    1 ≤ (1 : Byte).toNat ∧ (20 : Byte).toNat ≤ 20 ∧ feeding.feeder.count = some 3 ∧ feeding.feeder.mass = some 250 ∧
    feeding.feeder.entry = some 2 ∧ (3 : Byte).toNat ≤ 3 ∧ 3 < (4 : Byte).toNat ∧
    feeding.kept.journal = [] ++ addition :: [] ∧ addition.seq = 2 ∧ addition.kind = .addition ∧ addition.final =
    false ∧
    0 < feeding.kept.feed.numbers.settle := by decide +kernel
theorem witness_FeederRefused : openBook.feeder.state = .idle ∧ settling.feeder.state = .settle ∧
    settling.feeder.rx = [] ∧
    openBook.ready ∧ openBook.feeder.relay = none ∧ settling.ready ∧ settling.feeder.relay = none := by decide +kernel
theorem witness_FrameFits : frameFits 2 [] ∧ frameFits 3 [9] ∧ frameFits 4 [1] ∧ frameFits 4 [20] ∧ frameFits 5 [0] ∧
    frameFits 9 [1, 2] ∧ ¬frameFits 2 [1] ∧ ¬frameFits 3 [] ∧ ¬frameFits 4 [0] ∧ ¬frameFits 4 [21] ∧ ¬frameFits 5 [1, 2] ∧
    (240 : Nat) < (241 : Byte).toNat := by
  refine ⟨?_, ?_, ?_, ?_, ?_, ?_, ?_, ?_, ?_, ?_, ?_, ?_⟩ <;> decide +kernel
theorem witness_FeederTimers : requested.feeder.timer = some 0 ∧ feeding.feeder.timer = some 0 ∧ openBook.feeder.timer ≠ some 0 ∧
    requested.entries[FaultKind.feederSilent.ix].state = .clear ∧ (requested.reactionOf .feederSilent).code ≤ 2 ∧
    feeding.entries[FaultKind.feederSilent.ix].state = .clear ∧ (feeding.reactionOf .feederSilent).code ≤ 2 := by
  decide +kernel
def twoRelayed : State :=
  { relaying none with feeder := { (relaying none).feeder with tx := [.relayed 9 [1], .relayed 9 [2]] } }
theorem witness_Relay : openBook.kept.feed.relay = true ∧ (relaying none).ready ∧
    (relaying none).feeder.tx = [.relayed 9 [1]] ∧ (relaying none).feeder.relay = some ⟨9, none⟩ ∧
    (relaying (some 5)).feeder.relay = some ⟨9, some 5⟩ ∧
    twoRelayed.feeder.tx = .relayed 9 [1] :: [.relayed 9 [2]] ∧
    FeederTx.relayed 9 [2] ∈ twoRelayed.feeder.tx.drop 1 := by decide +kernel
theorem witness_FaultAck : State.reset.listening ∧ State.reset.entries[FaultKind.retainedLost.ix].state ≠ .clear ∧
    FaultKind.retainedLost.isCondition = false ∧ State.reset.inhibit = false ∧ FaultKind.retainedLost.number = 14 ∧
    still.entries[FaultKind.snag.ix].state = .clear ∧
    (after (.drivePowerChange false) still).entries[FaultKind.drivePowerLoss.ix].state ≠ .clear ∧
    (after (.drivePowerChange false) still).condPresent .drivePowerLoss = true := by decide +kernel
def inhibited (s : State) : State := withEntry .bathTemp .active s
def remembering : State := inhibited (with1 { ctxIn .rehang with rehangKept := true } (order true .rehang))
def offering : State := inhibited (with1 { DipCtx.parked with runEnable := true } (order false .queued))
theorem witness_InhibitEnds : (∀ s ∈ [inhibited openBook, remembering, offering], s.listening ∧ s.imposes .bathTemp ∧
      (∀ j ∈ faultKinds, j ≠ .bathTemp → ¬s.imposes j) ∧ s.condPresent .bathTemp = false) ∧
    (inhibited openBook).noneQueued ∧ (∀ i, ¬(inhibited openBook).remembers i) ∧ remembering.noneQueued ∧
    remembering.remembers 0 ∧ (∀ i : Hoist, i ≠ 0 → ¬remembering.remembers i) ∧
    remembering.orderOf 0 = some (order true .rehang) ∧ (∀ x ∈ offering.orders, x.state = .queued → x.hoist = 0) ∧
    (∀ i, ¬offering.remembers i) ∧ offering.offered 0 = some (order false .queued) ∧ offering.installed 0 = true ∧
    offering.ctxs[(0 : Hoist)].state = .parked ∧ offering.ctxs[(0 : Hoist)].runEnable = true ∧
    offering.drives[(0 : Hoist)].known = true ∧ offering.bench = false ∧ offering.canReserve 1 = true ∧
    (withEntry .snag .active (inhibited openBook)).imposes .bathTemp := by decide +kernel
theorem witness_FaultSetup : Reaction.stopAll.code = 5 ∧ 600 ≤ 600 ∧ 5 < 6 ∧ 600 < 601 ∧
    (FaultKind.drivePowerLoss = .drivePowerLoss ∧ Reaction.hold ≠ .stopAll) ∧
    still.entries[FaultKind.snag.ix].state = .clear ∧
    (withEntry .weighUnstable .active dwelling).entries[FaultKind.weighUnstable.ix].state = .active ∧
    (withEntry .weighUnstable .active dwelling).reactionOf .weighUnstable = .notify ∧
    (withEntry .weighUnstable .active dwelling).inhibit = false ∧
    (∀ i : Fin 4, (withEntry .weighUnstable .active dwelling).entries[FaultKind.weighUnstable.ix].involved[i] =
      decide (i = 0)) ∧
    Reaction.record.code < Reaction.notify.code ∧ Reaction.notify.code < Reaction.inhibit.code ∧
    Reaction.inhibit.code = 2 ∧ Reaction.notify.code < Reaction.hold.code ∧
    (inhibited openBook).reactionOf .bathTemp = .inhibit := by decide +kernel
def alarming (r : Reaction) : State := withEntry .snag .alarm (reacting r 3 dwelling)
theorem witness_Alarm : (alarming .notify).ready ∧ (alarming .notify).entries[FaultKind.snag.ix].state = .alarm ∧
    ((alarming .notify).reactionOf .snag).code ≤ 2 ∧ (alarming .hold).entries[FaultKind.snag.ix].state = .alarm ∧
    (alarming .hold).reactionOf .snag = .hold ∧
    (∀ i : Fin 4, (alarming .hold).entries[FaultKind.snag.ix].involved[i] = decide (i = 0)) ∧
    (alarming .hold).ctxs[(0 : Hoist)].state = .dwell ∧ (alarming .hold).stationClear 0 ∧
    (∀ l ∈ (alarming .hold).ctxs[(0 : Hoist)].latched,
      (alarming .hold).ctxs[(0 : Hoist)].clock.tenths ≤ l.profile.dwell + l.overrun) := by decide +kernel
theorem witness_DrivePowerLoss : dwelling.ready ∧ dwelling.drivePower = true ∧
    dwelling.entries[FaultKind.drivePowerLoss.ix].state = .clear ∧
    dwelling.entries[FaultKind.drivePowerLoss.ix].presentLine = false ∧ dwelling.reactionOf .drivePowerLoss = .stopAll ∧
    dwelling.kept.faults[FaultKind.drivePowerLoss.ix].delay = 0 ∧ (∀ h : Hoist, dwelling.stationClear h) ∧
    (∀ (h : Hoist), ∀ l ∈ dwelling.ctxs[h].latched, dwelling.ctxs[h].clock.tenths ≤ l.profile.dwell + l.overrun) := by
  decide +kernel
theorem witness_Invariants : step dwelling = .next dwelling.tick ∧ openBook.kept.balanced ∧
    runwayOrdered dwelling.holders ∧
    ordersOk dwelling.orders ∧ (relaying none).placesOk := by
  refine ⟨rfl, by unfold Retained.balanced; decide +kernel, by unfold runwayOrdered; decide +kernel,
    by unfold ordersOk; decide +kernel, by unfold State.placesOk; decide +kernel⟩

/-! ### Commands: one step each, on numbers of the spec -/

/-- The last reply made. -/
def answer (s : State) : Option Reply := s.link.owed.getLast?

theorem test_crc : crc [0x31, 0x32, 0x33, 0x34, 0x35, 0x36, 0x37, 0x38, 0x39] = 0x29B1#16 := by decide +kernel
theorem test_identify : ((answer (after (.identify 3) still)).map Reply.payload) =
    some [0, 0x71, 0x2A, 0xD4, 0, 1, 0, 3, 0, 0, 1] := by decide +kernel
theorem test_replyKind : (answer (after (.identify 3) still)).map (fun r => (r.kind, r.tag)) = some (0x81, 3) := by
  decide +kernel
theorem test_powerOn_cold : (after (.powerOn ⟨⟨0, 3, false⟩, Vector.replicate 4 absentInputs, true, true⟩)
    { dwelling with checkGood := false }) = { State.reset with pending := [] } := by decide +kernel
theorem test_powerOn_interrupts :
    (after (.powerOn ⟨⟨0, 3, false⟩, Vector.replicate 4 clear, true, true⟩) dwelling).ctxs[(0 : Hoist)].last =
    some ⟨7, .interrupted, some .power⟩ := by decide +kernel
theorem test_powerLoss : (after .retentionSupplyLoss (after (.powerLoss true) still)).checkGood = false ∧
    (after (.powerLoss true) (after .retentionSupplyLoss still)).checkGood = false ∧
    (after (.powerLoss true) still).checkGood = true := by decide +kernel
theorem test_restart : (after (.restart 3) dwelling).kept.journal.map (fun e => (e.final, e.flags.interrupted)) =
    [(true, true)] := by
  decide +kernel
theorem test_frameRejected : (answer (after (.clFrameRejected (frameBytes 0xC3 [0x7F, 9, 0] [])) still)).map
    (fun r => (r.kind, r.tag, r.result)) = some (0xFF, 9, .unknownKind) := by decide +kernel
theorem test_frameBadCheck : (after (.clFrameRejected [0xC3, 1, 9, 0, 0, 0]) still).link.badChecks = 1 :=
    by decide +kernel
theorem test_requestFrame : requestOf .bookPost 3 (requestPayload [fN 1 5, (4, -7), fN 1 9]) = .bookPost 3 5 (-7) 9 ∧
    requestPayload [fN 1 5, (4, -7), fN 1 9] = [5, 0xF9, 0xFF, 0xFF, 0xFF, 9] ∧
    after (.clFrameRejected (requestFrame .hoistStop 3 [1])) enabled = after (.hoistStop 3 1) enabled := by
  decide +kernel
theorem test_frameGap : (after (.clFrameGap [0xC3, 1]) still).link.gaps = 1 := by decide +kernel
theorem test_txFrameEnd : (after .txFrameEnd (dwelling.mark .zone)).link.tx.isSome = true := by decide +kernel
theorem test_status : ((answer (after (.status 3) still)).map fun r => r.payload.length) = some 74 := by decide +kernel
theorem test_noticeSetup : (after (.noticeSetup 3 (some #v[1, 0, 1, 1, 0, 1])) still).kept.notices =
    #v[true, false, true, true, false, true] := by decide +kernel
theorem test_inputRead : (after (.inputRead 3) (after (.readyChange 0 false) still)).link.latches[(0 : Hoist)].ready = false := by
  decide +kernel
theorem test_orderPost : (after (.orderPost 3 post) still).orders = [order false .queued] := by decide +kernel
theorem test_orderPost_taken : (after (.orderPost 3 post) enabled).holders =
    #v[none, none, some 0, some 0, none, none, none, none, none, none, none, none] := by decide +kernel
theorem test_orderCancel : (after (.orderCancel 3 7) aligning).ctxs[(0 : Hoist)].last =
    some ⟨7, .cancelled, some .request⟩ := by
  decide +kernel
theorem test_orderQuery : (answer (after (.orderQuery 3 8) dwelling)).map Reply.result = some .noSuchOrder :=
    by decide +kernel
theorem test_queueList : (answer (after (.queueList 3) dwelling)).map (fun r => r.fields.headD (0, 0)) =
    some (1, 1) := by
  decide +kernel
theorem test_profileWrite : (after (.profileWrite 3 15 ⟨10, 10, 5, 6000, 15, 20, 1⟩) still).kept.profileOk 15 =
    true := by
  decide +kernel
theorem test_profileRead : (answer (after (.profileRead 3 16) still)).map Reply.result = some .badValue :=
    by decide +kernel
theorem test_hoistStatus : (answer (after (.hoistStatus 3 5) still)).map Reply.result = some .notInstalled :=
    by decide +kernel
theorem test_hoistRun : (after (.hoistRun 3 1) still).drives[(0 : Hoist)].motion = some ⟨.recal 8000, 100⟩ :=
    by decide +kernel
theorem test_hoistStop : (after (.hoistStop 3 1) dwelling).ctxs[(0 : Hoist)].runEnable = false := by decide +kernel
theorem test_hoistHold : (after (.hoistHold 3 1) lowering).ctxs[(0 : Hoist)].heldFrom = some .lowering :=
    by decide +kernel
theorem test_hoistResume : (after (.hoistResume 3 1) (held (ctxDip .lowering))).drives[(0 : Hoist)].motion =
    some ⟨.move 2300, 60⟩ := by decide +kernel
theorem test_hoistAbort : (after (.hoistAbort 3 1) dwelling).drives[(0 : Hoist)].motion = some ⟨.move 500, 150⟩ := by
  decide +kernel
theorem test_hoistAbort_drain : (after (.hoistAbort 3 1) (moving (dipping (ctxDip .drain)) 500 none)).ctxs[(0 : Hoist)].state = .weighOut ∧
    (after (.hoistAbort 3 1) (held (ctxDip .lowering))).ctxs[(0 : Hoist)].heldFrom = some .abortLift := by decide +kernel
theorem test_rehangDone : (after (.rehangDone 3 1) rehanging).ctxs[(0 : Hoist)].pass = some .two := by decide +kernel
theorem test_cycleSetup : (answer (after (.cycleSetup 3 none) still)).map Reply.payload =
    some [0, 120, 0, 150, 0, 100, 0, 44, 1] := by decide +kernel
theorem test_bookOpen : (after (.bookOpen 3 4800000) still).kept.inventory = 4800000 := by decide +kernel
theorem test_bookPost : (after (.bookPost 3 3 120 9) openBook).kept.inventory = -120 := by decide +kernel
theorem test_bookRead : (answer (after (.bookRead 3 0) dwelling)).map (fun r => r.fields.headD (0, 0)) =
    some (1, 1) := by
  decide +kernel
theorem test_bookTrim : (after (.bookTrim 3 9) (after (.bookPost 3 3 120 9) openBook)).kept.base = -120 :=
    by decide +kernel
theorem test_bookSummary : (answer (after (.bookSummary 3) dwelling)).map Reply.result = some .ok := by decide +kernel
theorem test_kettleSetup : (answer (after (.kettleSetup 3 (some ⟨900, 900, 6, 300⟩)) still)).map Reply.result =
    some .badValue := by
  decide +kernel
theorem test_skimDone : (answer (after (.skimDone 3 1 3) dwelling)).map (fun r => (r.result, r.fields)) =
    some (.zoneHeld, [(1, 3), (1, 1)]) := by decide +kernel
def queueing : State :=
  { staged with waits := [cleanA, claimB, { claimA with hoist := 2, first := 8, last := 9, serial := 2 }],
                kept := { staged.kept with surfaces := staged.kept.surfaces.set 2 ⟨true, 1⟩ } }
theorem test_skimDone_examines : (after (.skimDone 3 12 12) queueing).waits.map Claim.hoist = [0, 1] ∧
    (after (.skimDone 3 3 3) queueing).waits.map Claim.hoist = [1] ∧
    (after (.skimDone 3 3 3) queueing).mail.toList.map (fun m => m.grants.length) = [1, 0, 1, 0] := by decide +kernel
theorem test_zoneStatus : ((answer (after (.zoneStatus 3) still)).map fun r => r.payload.length) = some 57 :=
    by decide +kernel
theorem test_claimGrant : (after (.claimGrant 0) (quietInputs granted)).ctxs[(0 : Hoist)].alignT = some 1200 :=
    by decide +kernel
theorem test_claimWaitAlert :
    (after (.claimWaitAlert 0) { staged with kept := { staged.kept with runtime := 301 } }).waits.map
    Claim.alerted = [true] := by decide +kernel
theorem test_weighNow : (after (.weighNow 3 1) still).wu.queue = [⟨0, none⟩] := by decide +kernel
theorem test_weighRead : (answer (after (.weighRead 3) still)).map Reply.result = some .ok := by decide +kernel
theorem test_weighSetup : (after (.weighSetup 3 (some (weighFields 1))) still).wu.fresh = true := by decide +kernel
theorem test_samplePeriod : (after (.samplePeriodEnd (some (-345))) settled).wu.chans[(0 : Channel)].value =
    some (-345) := by
  decide +kernel
theorem test_samplePeriod_missed : (after (.samplePeriodEnd none) asked).wu.service.map Service.timer = some 200 ∧
    (after (.samplePeriodEnd none) asked).wu.chan = asked.wu.chan := by decide +kernel
theorem test_weighTimer : (after .weighTimerExpiry (serving none)).wu.record = some ⟨0, none, 16, some 90, 0⟩ :=
    by decide +kernel
theorem test_weighTimer_above : (after .weighTimerExpiry servingLonger).wu = servingLonger.wu := by decide +kernel
theorem test_weighResult : (after (.weighResult 0) weighingOut).kept.inventory = 8120 := by decide +kernel
theorem test_weighResult_in : (after (.weighResult 0) weighingIn).drives[(0 : Hoist)].motion =
    some ⟨.move 2300, 60⟩ := by
  decide +kernel
theorem test_levelSetup : (after (.levelSetup 3 (some ⟨1300, 4800000, 1660, 60, 119⟩)) still).kept.level.ageLimit =
    119 := by
  decide +kernel
theorem test_levelRead : (answer (after (.levelRead 3 (some 0)) still)).map Reply.result = some .badValue :=
    by decide +kernel
theorem test_captureArrival : (after (.captureArrival 0) (arriving dwelling)).lu.fifos[(0 : Hoist)].length = 1 :=
    by decide +kernel
theorem test_hoistView :
    (after (.hoistViewReport 0) (mailed still fun m => { m with level := [.view dwelling.ctxs[0].view] })).quiet =
    false := by decide +kernel
theorem test_captureProcess : (after .captureProcessStep (captured capture [1302, 1303, 1302, 1303] 0)).lu.ring =
    [1303, 1302, 1303, 1300] := by decide +kernel
def low : State :=
  let s := captured capture [] 0
  { s with lu := { s.lu with fifos := s.lu.fifos.set 0 (List.replicate 2 { capture with depth := 1400 }) },
           kept := { s.kept with
             inventory := 4634000, bookOpen := true, feed := { still.kept.feed with auto := true } } }
theorem test_captureProcess_asks : (after .captureProcessStep low).autoRequests.length = 1 ∧
    (after .captureProcessStep (after .captureProcessStep low)).autoRequests.length = 1 ∧
    (after .captureProcessStep (after .captureProcessStep low)).lu.fifos[(0 : Hoist)] = [] := by decide +kernel
theorem test_driveSetup : (after (.driveSetup 3 (some ⟨20, 100, 5, 50⟩)) still).kept.drive = ⟨20, 100, 5, 50⟩ :=
    by decide +kernel
theorem test_bench : (after (.benchDrive 3 bench) (after (.benchEnter 3) benchReady)).drives[(0 : Hoist)].burst =
    some ⟨10, 100, 0⟩ := by decide +kernel
theorem test_benchNotices : (after (.benchNotices 3) benching).link.marks =
    #v[true, true, true, true, true, false] := by
  decide +kernel
theorem test_benchExit : (after (.benchExit 3) bursting).drives[(0 : Hoist)].lastBurst = some (.replaced, 4) :=
    by decide +kernel
theorem test_stepPulse : (after (.stepPulse 0) lowering).mail[(0 : Hoist)].motions = [⟨.move, none⟩] :=
    by decide +kernel
theorem test_readyTimeout : (after (.readyTimeout 0) waiting).entries[(0 : Fin 14)].state = .alarm := by decide +kernel
theorem test_motionReached : (after (.motionReached 0) arrived).ctxs[(0 : Hoist)].dwellT = some 1200 :=
    by decide +kernel
theorem test_motionReached_drain : (after (.motionReached 0) lifted).kept.surfaces[(3 : Fin 12)] = ⟨true, 1⟩ :=
    by decide +kernel
theorem test_motionReached_top : (after (.motionReached 0) (topped { ctxDip .lowering with contact := false } .move)).ctxs[(0 : Hoist)].state =
      .drain ∧
    (after (.motionReached 0) (topped { ctxDip .lowering with contact := false } .move)).ctxs[(0 : Hoist)].flags.noContact =
      true ∧
    (after (.motionReached 0) (reported (topped (ctxDip .lowering) .move) .move none)).drives[(0 : Hoist)].motion =
      some ⟨.shake 2 50 true 50, 200⟩ := by decide +kernel
theorem test_areaBreach_once : (after (.motionReached 0) (lifted.modInputs 0 fun i => { i with areaClear := false })).entries[FaultKind.areaBreach.ix].count =
    some 1 := by decide +kernel
theorem test_readyTimeout_aborts : (after (.readyTimeout 0) (reacting .abort 0 waiting)).ctxs[(0 : Hoist)].state = .held ∧
    (after (.readyTimeout 0) (reacting .abort 0 waiting)).ctxs[(0 : Hoist)].heldFrom = some .abortLift := by decide +kernel
theorem test_motionFailed : (after (.motionFailed 0) (reported lowering .move (some .driveFault))).ctxs[(0 : Hoist)].state = .held := by
  decide +kernel
theorem test_readyChange : (after (.readyChange 0 false) lowering).drives[(0 : Hoist)].readyT = some 20 :=
    by decide +kernel
theorem test_driveFaultChange : (after (.driveFaultChange 0 true) lowering).ctxs[(0 : Hoist)].state = .held :=
    by decide +kernel
theorem test_topChange_shake : (after (.topChange 0 true) (shaking 2 false 15)).drives[(0 : Hoist)].motion =
    some ⟨.shake 1 50 true 50, 200⟩ := by decide +kernel
theorem test_topChange : (after (.topChange 0 true) recalibrating).drives[(0 : Hoist)].count = 0 := by decide +kernel
theorem test_alignedChange : (after (.alignedChange 0 true) (quietInputs aligning)).ctxs[(0 : Hoist)].state =
    .weighIn := by
  decide +kernel
theorem test_alignedLost : (after (.alignedChange 0 false) dwelling).ctxs[(0 : Hoist)].state = .abortLift :=
    by decide +kernel
theorem test_areaClearChange : (after (.areaClearChange 0 false) lowering).ctxs[(0 : Hoist)].state = .held :=
    by decide +kernel
theorem test_rehangInput : (after (.rehangInputChange 0 true) rehanging).ctxs[(0 : Hoist)].state = .staged :=
    by decide +kernel
theorem test_drivePower : (after (.drivePowerChange false) dwelling).ctxs[(0 : Hoist)].state = .held :=
    by decide +kernel
theorem test_alignTimeout : (after (.alignTimeout 0) aligning).ctxs[(0 : Hoist)].last =
    some ⟨7, .cancelled, some .alignTimeout⟩ := by
  decide +kernel
theorem test_dwellTimer : (after (.dwellTimerExpiry 0) dwelling).drives[(0 : Hoist)].motion = some ⟨.move 500, 20⟩ := by
  decide +kernel
theorem test_drainTimer : (after (.drainTimerExpiry 0) (draining true)).ctxs[(0 : Hoist)].state = .weighOut :=
    by decide +kernel
theorem test_dwellOverrun : (after (.dwellOverrun 0) (held (ctxDip .dwell))).ctxs[(0 : Hoist)].clock =
    ⟨.running, 1501⟩ := by
  decide +kernel
theorem test_feed : (after (.feed 3 5) openBook).feeder.tx.map FeederTx.bytes =
    [frameBytes 0xC5 [1, 1] [5]] := by decide +kernel
theorem test_autoFeed : (after .autoFeedRequest asking).feeder.source = some .auto := by decide +kernel
theorem test_dispenseSent : (after .dispenseSent requested).feeder.timer = some 100 := by decide +kernel
theorem test_dispenseSent_earlier : (after .dispenseSent twoSent).feeder.timer = some 0 ∧
    (after .dispenseSent twoSent).feeder.tx = [.dispense 5] := by decide +kernel
theorem test_accept : (after (.accept []) requested).lu.frozen = true := by decide +kernel
theorem test_decline : (after (.decline [4]) requested).feeder.last = some ⟨.declined 4, 5, 0, none⟩ :=
    by decide +kernel
theorem test_drop : (after (.drop [4]) feeding).kept.inventory = 1000 := by decide +kernel
theorem test_done : (after (.done [3]) feeding).feeder.settleT = some 6000 := by decide +kernel
theorem test_otherFrame : (after (.feederOtherFrame 9 []) openBook).feeder.unexpected = 1 := by decide +kernel
theorem test_feederDiscarded : (after (.feederFrameDiscarded [0xC5, 2, 0, 0, 0]) openBook).feeder.lineErrors = 1 := by
  decide +kernel
theorem test_feederGap : (after (.feederFrameGap [0xC5]) openBook).feeder.lineErrors = 1 := by decide +kernel
theorem test_feederTimer : (after .feederTimerExpiry feeding).feeder.last = some ⟨.unconfirmed, 5, 3, none⟩ :=
    by decide +kernel
theorem test_settleTimer : (after .settleTimerExpiry settling).feeder.state = .idle := by decide +kernel
theorem test_relay : (after (.feederRelay 3 9 [1]) openBook).link.held = true := by decide +kernel
theorem test_relaySent : (after .relayFrameSent (relaying none)).feeder.relay = some ⟨9, some 20⟩ := by decide +kernel
theorem test_relaySent_earlier : (after .relayFrameSent twoRelayed).feeder.relay = some ⟨9, none⟩ := by decide +kernel
theorem test_relayAnswer : (answer (after (.feederOtherFrame 9 (List.replicate 240 5)) (relaying none))).map
    (fun r => (r.payload.length, r.payload.take 4)) = some (240, [0, 9, 240, 5]) := by decide +kernel
theorem test_relayHold : (answer (after .relayHoldExpiry (relaying (some 0)))).map Reply.result = some .timeout := by
  decide +kernel
theorem test_feedSetup : (answer (after (.feedSetup 3 none) still)).map (fun r => r.payload.length) = some 15 :=
    by decide +kernel
theorem test_feedRead : (answer (after (.feedRead 3) still)).map Reply.result = some .ok := by decide +kernel
theorem test_faultAck : (after (.faultAck 3 14) State.reset).entries[(13 : Fin 14)].state = .clear := by decide +kernel
theorem test_faultAck_ends : (after (.faultAck 3 11) offering).ctxs[(0 : Hoist)].state = .staged ∧
    (after (.faultAck 3 11) remembering).ctxs[(0 : Hoist)].pass = some .two := by decide +kernel
theorem test_faultSetup_ends : (after (.faultSetup 3 11 (.settings 1 0 0)) offering).ctxs[(0 : Hoist)].state = .staged ∧
    (after (.faultSetup 3 6 (.settings 3 0 0)) (withEntry .weighUnstable .active dwelling)).ctxs[(0 : Hoist)].state =
      .held := by decide +kernel
theorem test_faultSetup : (answer (after (.faultSetup 3 10 (.settings 1 0 1)) still)).map Reply.result =
    some .notPermitted := by
  decide +kernel
theorem test_faultList : (answer (after (.faultList 3 (some 15)) still)).map Reply.result = some .badValue :=
    by decide +kernel
theorem test_alarmTimer : (after (.alarmTimerExpiry 2) (alarming .hold)).ctxs[(0 : Hoist)].state = .held :=
    by decide +kernel
theorem test_beaconTimer : (after .beaconTimerExpiry { still with beaconT := some 0 }).beaconState = false ∧
    (after .beaconTimerExpiry { still with beaconT := some 50 }).beaconT = some 50 :=
    by decide +kernel
theorem test_runtimeTick : (after .runtimeTick { still with tenths := 9 }).tenthsCount = 10 := by decide +kernel

end Sys2Proof.Tests
end

section
/-! What the shared operations change, each said once: an equation whose right side keeps every field it does not name.
Marks, the nearly-full mark, reservations, follow-ups, the claims given up, the close of an order, the start of a pass. -/

namespace Sys2Proof.Machine

set_option Elab.async false

/-! ### Marks -/

theorem mark_only (s : State) (c : NoticeClass) : ∃ m, s.mark c = { s with link := { s.link with marks := m } } := by
  unfold State.mark; split
  · exact ⟨_, rfl⟩
  · exact ⟨s.link.marks, rfl⟩

theorem markIf_only (s : State) (b : Bool) (c : NoticeClass) :
    ∃ m, s.markIf b c = { s with link := { s.link with marks := m } } := by
  unfold State.markIf; split
  · exact mark_only s c
  · exact ⟨s.link.marks, rfl⟩

/-! ### Reservations -/

theorem judgeNearly_only (s : State) :
    ∃ n m, s.judgeNearly = { s with nearlyFull := n, link := { s.link with marks := m } } := by
  unfold State.judgeNearly; repeat' split
  · exact ⟨s.nearlyFull, s.link.marks, rfl⟩
  · obtain ⟨m, e⟩ := mark_only { s with nearlyFull := true } .book
    exact ⟨true, m, e⟩
  · exact ⟨false, s.link.marks, rfl⟩

theorem grantReserve_only (s : State) (n : Nat) : ∃ full m,
    s.grantReserve n = { s with reserved := s.reserved + n, nearlyFull := full, link := { s.link with marks := m } } :=
  judgeNearly_only { s with reserved := s.reserved + n }

theorem foldl_followUp (f : Hoist → Follow) (l : List Hoist) (s : State) :
    l.foldl (fun s h => s.followUp (f h)) s =
      { s with agenda := { s.agenda with follow := s.agenda.follow ++ l.map f } } := by
  induction l generalizing s with
  | nil => simp
  | cons h hs ih => rw [List.foldl_cons, ih]; simp [State.followUp]

/-- A line-wide event of R9 leaves a take attempt for every installed hoist. -/
theorem takeAll_eq (s : State) :
    s.takeAll = { s with agenda := { s.agenda with follow := s.agenda.follow ++ s.installedHoists.map .take } } :=
  foldl_followUp .take s.installedHoists s

/-- The take attempts that a return of reservations leaves (R9, R66). -/
def State.takesAfterReturn (s : State) (n : Nat) : List Follow := if n = 0 then [] else s.installedHoists.map .take

theorem returnReserve_only (s : State) (n : Nat) : ∃ full m, s.returnReserve n =
    { s with reserved := s.reserved - n, nearlyFull := full, link := { s.link with marks := m },
             agenda := ⟨s.agenda.reports, s.agenda.follow ++ s.takesAfterReturn n⟩ } := by
  unfold State.returnReserve State.takesAfterReturn; split
  · rename_i e
    subst e
    exact ⟨s.nearlyFull, s.link.marks, by simp⟩
  · obtain ⟨full, m, e⟩ := judgeNearly_only { s with reserved := s.reserved - n }
    rw [e, takeAll_eq]
    exact ⟨full, m, rfl⟩

theorem returnHeld_only (s : State) (h : Hoist) : ∃ full m, s.returnHeld h =
    { s with ctxs := s.ctxs.set h { s.ctxs[h] with resv := 0 }, reserved := s.reserved - s.ctxs[h].resv,
             nearlyFull := full, link := { s.link with marks := m },
             agenda := ⟨s.agenda.reports, s.agenda.follow ++ s.takesAfterReturn s.ctxs[h].resv⟩ } := by
  obtain ⟨full, m, e⟩ := returnReserve_only s s.ctxs[h].resv
  unfold State.returnHeld
  rw [e]
  exact ⟨full, m, rfl⟩

/-! ### Claims given up -/

/-- Only the hoist of a claim of the list comes to hold a zone by a walk. -/
theorem walkWaits_holders (cs older : List Claim) (s : State) (z : Fin 12) (h : Hoist)
    (held : (walkWaits older cs s).holders[z] = some h) : s.holders[z] = some h ∨ ∃ c ∈ cs, c.hoist = h := by
  induction cs generalizing older s with
  | nil => exact .inl held
  | cons c cs ih =>
    unfold walkWaits at held
    split at held
    · rcases ih older _ held with before | ⟨d, hd, e⟩
      · simp only [State.grantClaim, modMail_holders, Fin.getElem_fin, Vector.getElem_mapIdx] at before
        split at before
        · exact .inr ⟨c, by simp, Option.some.inj before⟩
        · exact .inl before
      · exact .inr ⟨d, by simp [hd], e⟩
    · rcases ih _ s held with before | ⟨d, hd, e⟩
      · exact .inl before
      · exact .inr ⟨d, by simp [hd], e⟩

/-- A release gives up every zone of the hoist, and only claims that waited are granted after it (R95). -/
theorem release_only (s : State) (h : Hoist) : ∃ holders waits mail,
    s.release h = { s with holders := holders, waits := waits, mail := mail } ∧ (∀ c ∈ waits, c ∈ s.waits) ∧
    ((∀ c ∈ s.waits, c.hoist ≠ h) → ∀ z : Fin 12, holders[z] ≠ some h) := by
  obtain ⟨same, left⟩ := examine_only { s with holders := s.holders.map fun x => if x = some h then none else x }
  refine ⟨_, _, _, same, left, fun none_waits z held => ?_⟩
  rcases walkWaits_holders _ _ _ z h held with before | ⟨c, hc, e⟩
  · simp only [Fin.getElem_fin, Vector.getElem_map] at before
    split at before
    · cases before
    · exact absurd before ‹_›
  · exact none_waits c hc e

/-- A claim withdrawn waits no longer, whether it waited or had been granted (R94). -/
theorem withdrawClaim_only (s : State) (h : Hoist) : ∃ holders waits mail,
    s.withdrawClaim h = { s with holders := holders, waits := waits, mail := mail } ∧ ∀ c ∈ waits, c.hoist ≠ h := by
  unfold State.withdrawClaim
  split
  · obtain ⟨same, left⟩ := examine_only { s with waits := s.waits.filter fun c => c.hoist != h }
    exact ⟨_, _, _, same, fun c hc => by simpa using (List.mem_filter.1 (left c hc)).2⟩
  · rename_i no_claim
    have other : ∀ c ∈ s.waits, c.hoist ≠ h := by simpa using no_claim
    split
    · obtain ⟨holders, waits, mail, same, left, _⟩ := release_only s h
      exact ⟨holders, waits, mail, same, fun c hc => other c (left c hc)⟩
    · exact ⟨s.holders, s.waits, s.mail, rfl, other⟩

/-- A weigh request withdrawn: none of the dip context's own stays in the queue (R110, R115). -/
theorem dropWeigh_only (s : State) (h : Hoist) : ∃ wu mail,
    s.dropWeigh h = { s with wu := wu, mail := mail, ctxs := s.ctxs.set h { s.ctxs[h] with asked := .none } } ∧
    ∀ q ∈ wu.queue, q.hoist = h → q.dc = none := by
  refine ⟨_, _, rfl, fun q hq e => ?_⟩
  have kept := (List.mem_filter.1 hq).2
  simpa [e] using kept

/-! ### A dip context in a state that watches no condition -/

/-- The two reports of R38 that a dip context makes where neither condition is present. -/
def absentConds (h : Hoist) : List FaultReport := [.cond .alignLost (some h) false, .cond .areaBreach (some h) false]

/-- A dip context that enters a state in which neither condition is watched reports both absent (R38). -/
theorem putCtx_agenda_of_calm (s : State) (h : Hoist) (c : DipCtx) (level : c.standsIn.any DipState.needsAligned = false)
    (still : c.state.moving = false) (undrained : c.state ≠ .drain) :
    (s.putCtx h c).agenda = ⟨s.agenda.reports ++ absentConds h, s.agenda.follow⟩ := by
  have own : (s.putCtx h c).ctxs[h] = { c with starved := c.starved && c.state.moving } := by simp
  have aligned : (s.putCtx h c).alignLost h = false := by
    have : (s.putCtx h c).ctxs[h].standsIn = c.standsIn := by rw [own]; rfl
    rw [State.alignLost, this, level, Bool.and_false]
  have area : (s.putCtx h c).areaBreach h = false := by
    have : (s.putCtx h c).ctxs[h].state = c.state := by rw [own]
    rw [State.areaBreach, this, still, beq_false_of_ne undrained]; simp
  rw [putCtx_agenda, aligned, area, List.append_assoc]; rfl

/-- A dip context in new contents: its drive's TRAVEL_PERMIT, its view and the HOIST mark follow (R25, R129, R150). -/
theorem putCtx_only (s : State) (h : Hoist) (c : DipCtx) : ∃ drives mail m, s.putCtx h c =
    { s with ctxs := s.ctxs.set h { c with starved := c.starved && c.state.moving }, drives := drives,
             mail := mail, link := { s.link with marks := m }, agenda := (s.putCtx h c).agenda } ∧
    (∀ i : Hoist, i ≠ h → drives[i] = s.drives[i] ∧ mail[i] = s.mail[i]) ∧
    (s.bench = false → drives[h].permit = c.state.permits) ∧ mail[h].grants = s.mail[h].grants := by
  obtain ⟨m, e⟩ := markIf_only (s.modCtx h fun _ => { c with starved := c.starved && c.state.moving })
    (s.ctxs[h].state != c.state || s.ctxs[h].heldFrom != c.heldFrom) .hoist
  refine ⟨(s.putCtx h c).drives, (s.putCtx h c).mail, m, ?_, fun i ne => ?_, fun b => by simp [b], ?_⟩
  · unfold State.putCtx State.setCtx
    simp only [e]
    split <;> split <;> rfl
  · have ne' : (h : Nat) ≠ i := fun e => ne (Fin.ext e.symm)
    constructor
    · rw [putCtx_drives]; split <;> simp [Vector.getElem_set_ne _ _ ne']
    · rw [putCtx_mail]; split <;> simp [Vector.getElem_set_ne _ _ ne']
  · rw [putCtx_mail]; split <;> simp

/-! ### The close of an order -/

/-- The dip context a closed order leaves (R24, R36). -/
def DipCtx.closed (c : DipCtx) (r : OrderRef) (how : Closing) (why : Option CloseReason) : DipCtx :=
  { DipCtx.parked with runEnable := c.runEnable, last := some ⟨r.tag, how, why⟩ }

/-- An order closed: it leaves the table, its dip context is PARKED, and a take attempt is due (R9, R36). -/
theorem closeOrder_only (s : State) (h : Hoist) (how : Closing) (why : Option CloseReason) (r : OrderRef)
    (own : s.ctxs[h].order = some r) : ∃ drives mail m, s.closeOrder h how why =
      { s with orders := s.orders.filter fun o => o.slot != r.slot, ctxs := s.ctxs.set h (s.ctxs[h].closed r how why),
               drives := drives, mail := mail, link := { s.link with marks := m },
               agenda := ⟨s.agenda.reports ++ absentConds h, s.agenda.follow ++ [.take h]⟩ } ∧
    ∀ i : Hoist, i ≠ h → drives[i] = s.drives[i] := by
  have calm := putCtx_agenda_of_calm { s with orders := s.orders.filter fun o => o.slot != r.slot } h
    (s.ctxs[h].closed r how why) rfl rfl (by simp [DipCtx.closed, DipCtx.parked])
  obtain ⟨drives, mail, m, put, others, _⟩ := putCtx_only { s with orders := s.orders.filter fun o => o.slot != r.slot } h
    (s.ctxs[h].closed r how why)
  rw [calm] at put
  obtain ⟨m', marked⟩ := mark_only (State.putCtx { s with orders := s.orders.filter fun o => o.slot != r.slot } h
    (s.ctxs[h].closed r how why)) .hoist
  refine ⟨drives, mail, m', ?_, fun i ne => (others i ne).1⟩
  unfold State.closeOrder
  simp only [own]
  unfold DipCtx.closed at put marked ⊢
  rw [marked, put]
  rfl

/-- The end of an order with nothing lowered (R12, R29): the weigh request, the claim or the zones, and the reservations are
given up, and the order is closed. -/
theorem closeUnlowered_only (s : State) (h : Hoist) (how : Closing) (why : CloseReason) (r : OrderRef)
    (own : s.ctxs[h].order = some r) : ∃ wu drives mail holders waits full m, s.closeUnlowered h how why =
      { s with orders := s.orders.filter fun o => o.slot != r.slot, wu := wu, mail := mail, drives := drives,
               ctxs := s.ctxs.set h (s.ctxs[h].closed r how (some why)), holders := holders, waits := waits,
               reserved := s.reserved - s.ctxs[h].resv, nearlyFull := full, link := { s.link with marks := m },
               agenda := ⟨s.agenda.reports ++ absentConds h,
                 s.agenda.follow ++ s.takesAfterReturn s.ctxs[h].resv ++ [.take h]⟩ } ∧
    (∀ i : Hoist, i ≠ h → drives[i] = s.drives[i]) ∧ (∀ q ∈ wu.queue, q.hoist = h → q.dc = none) ∧
    (s.ctxs[h].effective = .staged → ∀ c ∈ waits, c.hoist ≠ h) ∧
    (s.ctxs[h].effective ≠ .staged → (∀ c ∈ s.waits, c.hoist ≠ h) → ∀ z : Fin 12, holders[z] ≠ some h) := by
  obtain ⟨wu, mail, dropped, none_placed⟩ := dropWeigh_only s h
  have given_up : ∃ holders waits mail,
      (if s.ctxs[h].effective = .staged then (s.dropWeigh h).withdrawClaim h else (s.dropWeigh h).release h) =
        { s with wu := wu, mail := mail, ctxs := s.ctxs.set h { s.ctxs[h] with asked := .none },
                 holders := holders, waits := waits } ∧
      (s.ctxs[h].effective = .staged → ∀ c ∈ waits, c.hoist ≠ h) ∧
      (s.ctxs[h].effective ≠ .staged → (∀ c ∈ s.waits, c.hoist ≠ h) → ∀ z : Fin 12, holders[z] ≠ some h) := by
    rw [dropped]
    split
    · rename_i staged
      obtain ⟨holders, waits, mail, e, none_waits⟩ := withdrawClaim_only _ h
      exact ⟨holders, waits, mail, e, fun _ => none_waits, fun n => absurd staged n⟩
    · rename_i unstaged
      obtain ⟨holders, waits, mail, e, _, released⟩ := release_only _ h
      exact ⟨holders, waits, mail, e, fun y => absurd y unstaged, fun _ => released⟩
  obtain ⟨holders, waits, mail, given, unclaimed, released⟩ := given_up
  generalize hv : (if s.ctxs[h].effective = .staged then (s.dropWeigh h).withdrawClaim h else (s.dropWeigh h).release h) = v
    at given
  obtain ⟨full, m, returned⟩ := returnHeld_only v h
  have own' : (v.returnHeld h).ctxs[h].order = some r := by
    rw [returned, given]; simpa using own
  obtain ⟨drives, mail, m, closed, others⟩ := closeOrder_only (v.returnHeld h) h how (some why) r own'
  refine ⟨wu, drives, mail, holders, waits, full, m, ?_, fun i ne => (others i ne).trans (by rw [returned, given]),
    none_placed, unclaimed, released⟩
  unfold State.closeUnlowered
  dsimp only
  rw [hv, closed, returned, given]
  simp only [Fin.getElem_fin, Vector.getElem_set_self, Vector.set_set]
  rfl

/-- The end of an order between its passes (R14): the reservations are returned, and the order is closed. -/
theorem closeRehang_only (s : State) (h : Hoist) (why : CloseReason) (r : OrderRef) (own : s.ctxs[h].order = some r) :
    ∃ drives mail full m, s.closeRehang h why =
      { s with orders := s.orders.filter fun o => o.slot != r.slot, mail := mail, drives := drives,
               ctxs := s.ctxs.set h (s.ctxs[h].closed r .partialDone (some why)),
               reserved := s.reserved - s.ctxs[h].resv, nearlyFull := full, link := { s.link with marks := m },
               agenda := ⟨s.agenda.reports ++ absentConds h,
                 s.agenda.follow ++ s.takesAfterReturn s.ctxs[h].resv ++ [.take h]⟩ } ∧
    ∀ i : Hoist, i ≠ h → drives[i] = s.drives[i] := by
  obtain ⟨full, m, returned⟩ := returnHeld_only s h
  have own' : (s.returnHeld h).ctxs[h].order = some r := by
    rw [returned]; simpa using own
  obtain ⟨drives, mail, m, closed, others⟩ := closeOrder_only (s.returnHeld h) h .partialDone (some why) r own'
  refine ⟨drives, mail, full, m, ?_, fun i ne => (others i ne).trans (by rw [returned])⟩
  unfold State.closeRehang
  rw [closed, returned]
  simp only [Fin.getElem_fin, Vector.getElem_set_self, Vector.set_set]
  rfl

/-! ### The start of a pass (R26, R89) -/

theorem claimArrival_only (s : State) (h : Hoist) (tag : Nat) (pass : Pass) (p : PassRec) : ∃ holders waits mail,
    s.claimArrival h tag pass p =
      { s with nextSerial := s.nextSerial + 1, ctxs := s.ctxs.set h { s.ctxs[h] with claim := some s.nextSerial },
               holders := holders, waits := waits, mail := mail } ∧
    ∀ i : Hoist, i ≠ h → mail[i] = s.mail[i] := by
  unfold State.claimArrival; dsimp only
  split
  · refine ⟨_, _, _, rfl, fun i ne => ?_⟩
    have ne' : (h : Nat) ≠ i := fun e => ne (Fin.ext e.symm)
    simp [Vector.getElem_set_ne _ _ ne']
  · exact ⟨_, _, _, rfl, fun _ _ => rfl⟩

/-- The claim of a pass at its start (R89). -/
def State.claimOf (s : State) (h : Hoist) (o : Order) (p : Pass) : Claim :=
  { hoist := h, tag := o.tag, pass := p, first := (o.passRec p).first, last := (o.passRec p).last,
    clean := (s.kept.profileOf (o.passRec p)).clean, arrival := s.kept.runtime, alerted := false, serial := s.nextSerial }

/-- A pass begins in STAGED: the order is ACTIVE in it, and its claim has arrived. -/
theorem stage_only (s : State) (h : Hoist) (o : Order) (p : Pass) (n : Nat) : ∃ drives mail holders waits m,
    s.stage h o p n =
      { s with ctxs := s.ctxs.set h { s.ctxs[h].beginPass ⟨o.slot, o.tag⟩ p n with claim := some s.nextSerial },
               orders := s.orders.map fun x => if x.slot = o.slot then { x with state := .active, pass := some p } else x,
               drives := drives, mail := mail, holders := holders, waits := waits, nextSerial := s.nextSerial + 1,
               link := { s.link with marks := m },
               agenda := ⟨s.agenda.reports ++ absentConds h, s.agenda.follow⟩ } ∧
    ClaimArrives s (s.stage h o p n) (s.claimOf h o p) ∧
    (∀ i : Hoist, i ≠ h → drives[i] = s.drives[i] ∧ mail[i] = s.mail[i]) ∧ (s.bench = false → drives[h].permit = false) := by
  have calm := putCtx_agenda_of_calm s h (s.ctxs[h].beginPass ⟨o.slot, o.tag⟩ p n) rfl rfl
    (by simp [DipCtx.beginPass])
  obtain ⟨drives, mail, m, put, others, permit, grants⟩ := putCtx_only s h (s.ctxs[h].beginPass ⟨o.slot, o.tag⟩ p n)
  rw [calm] at put
  generalize hu : (s.putCtx h (s.ctxs[h].beginPass ⟨o.slot, o.tag⟩ p n)).modOrder h
    (fun o => { o with state := .active, pass := some p }) = u
  have ordered : u = { s with
      ctxs := s.ctxs.set h (s.ctxs[h].beginPass ⟨o.slot, o.tag⟩ p n),
      orders := s.orders.map fun x => if x.slot = o.slot then { x with state := .active, pass := some p } else x,
      drives := drives, mail := mail, link := { s.link with marks := m },
      agenda := ⟨s.agenda.reports ++ absentConds h, s.agenda.follow⟩ } := by
    have own : (s.putCtx h (s.ctxs[h].beginPass ⟨o.slot, o.tag⟩ p n)).ctxs[h].order = some ⟨o.slot, o.tag⟩ := by
      simp [DipCtx.beginPass]
    rw [← hu]
    unfold State.modOrder
    simp only [own]
    rw [put]; rfl
  have staged : s.stage h o p n = u.claimArrival h o.tag p (o.passRec p) := by rw [← hu]; rfl
  obtain ⟨holders, waits, mail', claimed, unmailed⟩ := claimArrival_only u h o.tag p (o.passRec p)
  have arrives := claimArrival_says u h o.tag p (o.passRec p)
  rw [← staged] at claimed arrives
  refine ⟨drives, mail', holders, waits, m, ?_, ?_, fun i ne => ⟨(others i ne).1, ?_⟩, fun b => permit b⟩
  · rw [claimed, ordered]
    simp only [Fin.getElem_fin, Vector.getElem_set_self, Vector.set_set]
  · rw [ordered] at arrives
    unfold ClaimArrives at arrives ⊢
    simp only [State.claimOf] at arrives ⊢
    rw [← grants]
    exact arrives
  · rw [unmailed i ne, ordered]
    exact (others i ne).2

/-! ### The end of a step -/

/-- The transmitter's choice moves a reply or begins a notice: the replies owed are the same, and so is the rest. -/
theorem transmit_only (s : State) : ∃ m tx replies,
    s.transmit = { s with link := { s.link with marks := m, tx := tx, replies := replies } } ∧
    Link.owed { s.link with marks := m, tx := tx, replies := replies } = s.link.owed := by
  have form : ∃ m tx replies,
      s.transmit = { s with link := { s.link with marks := m, tx := tx, replies := replies } } := by
    unfold State.transmit; split
    · exact ⟨s.link.marks, _, _, rfl⟩
    · exact ⟨_, _, s.link.replies, rfl⟩
    · exact ⟨s.link.marks, s.link.tx, s.link.replies, rfl⟩
  obtain ⟨m, tx, replies, e⟩ := form
  have owed := transmit_owed s
  rw [e] at owed
  exact ⟨m, tx, replies, e, owed⟩

theorem addReply_owed (s : State) (code tag : Nat) (r : Result) (fields : List Field) :
    (s.addReply code tag r fields).link.owed =
      s.link.owed ++ [{ kind := replyKind code, tag := tag, result := r, fields := fields }] :=
  (List.append_assoc _ _ _).symm

/-- Where no order is QUEUED, the take attempts left by returned reservations and a close come to nothing. -/
theorem takes_idle (s t : State) (q : t.noneQueued) (n : Nat) (h : Hoist) :
    ∀ x ∈ s.takesAfterReturn n ++ [.take h], x.idle t := by
  have take_idle (i : Hoist) : Follow.idle t (.take i) := offered_of_noneQueued t i q
  intro x hx
  rcases List.mem_append.1 hx with hx | hx
  · unfold State.takesAfterReturn at hx
    split at hx
    · cases hx
    · obtain ⟨i, _, rfl⟩ := List.mem_map.1 hx
      exact take_idle i
  · rw [List.mem_singleton.1 hx]
    exact take_idle h

theorem takesAfterReturn_length (s : State) (n : Nat) : (s.takesAfterReturn n).length ≤ 4 := by
  unfold State.takesAfterReturn; split
  · simp
  · rw [List.length_map]
    exact (List.length_filter_le _ _).trans (by decide)

end Sys2Proof.Machine
end

section
/-! What a power-on and a RESTART leave (R82, R84, R202, R203), and the agenda worked off over dip contexts that are all
PARKED: no reaction reaches any of them, so that only fault entries, the beacon and the marks change. -/

namespace Sys2Proof.Machine

set_option Elab.async false

/-! ### Reactions over parked dip contexts (R41, R45) -/

/-- Every dip context is PARKED and runs no order. -/
def State.allParked (s : State) : Prop := ∀ h : Hoist, s.ctxs[h].state = .parked ∧ s.ctxs[h].order = none

theorem enterHeld_of_parked (s : State) (h : Hoist) (parked : s.ctxs[h].state = .parked) : s.enterHeld h = s :=
  if_pos (.inl parked)

theorem abort_of_parked (s : State) (h : Hoist) (why : CloseReason) (parked : s.ctxs[h].state = .parked)
    (free : s.ctxs[h].order = none) : s.abort h why = s := by
  have effective : s.ctxs[h].effective = .parked := by unfold DipCtx.effective; rw [parked]; rfl
  simp only [State.abort, free, effective]
  rfl

theorem react_of_parked (r : Reaction) (s : State) (h : Hoist) (p : s.allParked) : s.react r h = s := by
  have held : s.enterHeld h = s := enterHeld_of_parked s h (p h).1
  cases r with
  | hold => exact held
  | abort =>
    have failed : s.holdFailed h = s := by unfold State.holdFailed; rw [held, ite_self]
    unfold State.react
    rw [failed]
    exact abort_of_parked s h _ (p h).1 (p h).2
  | record | notify | inhibit | stopAll => rfl

theorem foldl_fixed {α : Type} (f : State → α → State) (s : State) (hf : ∀ x, f s x = s) (l : List α) :
    l.foldl f s = s := by
  induction l with
  | nil => rfl
  | cons x xs ih => rw [List.foldl_cons, hf, ih]

/-- From `s` to `t` only fault entries, the beacon timer and the marks have changed. -/
def FaultsOnly (s t : State) : Prop :=
  ∃ entries b m, t = { s with entries := entries, beaconT := b, link := { s.link with marks := m } }

theorem FaultsOnly.refl (s : State) : FaultsOnly s s := ⟨s.entries, s.beaconT, s.link.marks, rfl⟩

theorem FaultsOnly.trans {a b c : State} (x : FaultsOnly a b) (y : FaultsOnly b c) : FaultsOnly a c := by
  obtain ⟨_, _, _, rfl⟩ := x
  obtain ⟨entries, b, m, rfl⟩ := y
  exact ⟨entries, b, m, rfl⟩

theorem FaultsOnly.ite {p : Prop} [Decidable p] {s a b : State} (x : FaultsOnly s a) (y : FaultsOnly s b) :
    FaultsOnly s (if p then a else b) := by
  split
  · exact x
  · exact y

theorem FaultsOnly.allParked {s t : State} (x : FaultsOnly s t) (p : s.allParked) : t.allParked := by
  obtain ⟨_, _, _, rfl⟩ := x
  exact p

theorem markIf_faultsOnly (s : State) (b : Bool) (c : NoticeClass) : FaultsOnly s (s.markIf b c) := by
  obtain ⟨m, e⟩ := markIf_only s b c
  exact ⟨s.entries, s.beaconT, m, e⟩

theorem modEntry_faultsOnly (s : State) (k : FaultKind) (f : FaultEntry → FaultEntry) : FaultsOnly s (s.modEntry k f) :=
  ⟨_, s.beaconT, s.link.marks, rfl⟩

theorem loadBeacon_faultsOnly (s : State) (k : FaultKind) : FaultsOnly s (s.loadBeacon k) :=
  .ite ⟨s.entries, _, s.link.marks, rfl⟩ (.refl s)

theorem applyReaction_of_parked (s : State) (r : Reaction) (l : List Hoist) (p : s.allParked) :
    FaultsOnly s (s.applyReaction r l) := by
  have marked := markIf_faultsOnly s r.notifies .fault
  have p' := marked.allParked p
  unfold State.applyReaction; dsimp only
  rw [foldl_fixed State.enterHeld _ fun h => enterHeld_of_parked _ h (p' h).1,
    foldl_fixed (State.react r) _ fun h => react_of_parked r _ h p', ite_self]
  exact marked

theorem reactAgain_of_parked (s : State) (k : FaultKind) (who : Option Hoist) (p : s.allParked) :
    FaultsOnly s (s.reactAgain k who) := by
  have marked := markIf_faultsOnly s (s.reactionOf k).notifies .fault
  unfold State.reactAgain; dsimp only; split
  · rw [react_of_parked _ _ _ (marked.allParked p)]; exact marked
  · exact marked

theorem occurrence_of_parked (s : State) (k : FaultKind) (who : Option Hoist) (p : s.allParked) :
    FaultsOnly s (s.occurrence k who) := by
  unfold State.occurrence; split
  · have again := (modEntry_faultsOnly s k fun e => e.again s.kept.runtime (s.gained k who)).trans
      (loadBeacon_faultsOnly _ k)
    exact .ite (again.trans (reactAgain_of_parked _ _ _ (again.allParked p))) again
  · have latched (f : FaultEntry → FaultEntry) := (modEntry_faultsOnly s k f).trans (loadBeacon_faultsOnly _ k)
    exact .ite ((latched _).trans (applyReaction_of_parked _ _ _ ((latched _).allParked p))) (latched _)

theorem takeReport_of_parked (s : State) (r : FaultReport) (p : s.allParked) : FaultsOnly s (s.takeReport r) := by
  cases r with
  | occur k who => exact occurrence_of_parked s k who p
  | cond k who present =>
    have kept := modEntry_faultsOnly s k fun e => e.keepValue who present
    exact .ite (kept.trans (occurrence_of_parked _ k who (kept.allParked p))) kept

/-- Reports worked off over parked dip contexts reach none of them. -/
theorem settleFor_of_parked (n : Nat) (s : State) (p : s.allParked) (reports_only : s.agenda.follow = []) :
    ∃ entries b m a, settleFor n s =
      { s with entries := entries, beaconT := b, link := { s.link with marks := m }, agenda := a } := by
  induction n generalizing s with
  | zero => exact ⟨s.entries, s.beaconT, s.link.marks, s.agenda, rfl⟩
  | succ n ih =>
    unfold settleFor; split
    · exact ⟨s.entries, s.beaconT, s.link.marks, s.agenda, rfl⟩
    · have one : s.settleOne = s ∨
          ∃ r rs, s.settleOne = State.takeReport { s with agenda := { s.agenda with reports := rs } } r := by
        unfold State.settleOne
        rw [reports_only]
        split
        · exact .inr ⟨_, _, rfl⟩
        · rename_i e; cases e
        · rename_i e; cases e
        · exact .inl rfl
      rcases one with e | ⟨r, rs, e⟩
      · rw [e]; exact ih s p reports_only
      · obtain ⟨_, _, _, taken⟩ := takeReport_of_parked { s with agenda := { s.agenda with reports := rs } } r p
        rw [e, taken]
        exact ih _ p reports_only

/-! ### What both resets do -/

theorem foldl_report (f : State → Hoist → FaultReport) (l : List Hoist) (s : State) :
    ∃ reports, l.foldl (fun s h => s.report (f s h)) s = { s with agenda := ⟨reports, s.agenda.follow⟩ } := by
  induction l generalizing s with
  | nil => exact ⟨s.agenda.reports, rfl⟩
  | cons h hs ih =>
    obtain ⟨reports, e⟩ := ih (s.report (f s h))
    exact ⟨reports, e⟩

theorem reportLines_only (s : State) : ∃ reports, s.reportLines = { s with agenda := ⟨reports, s.agenda.follow⟩ } := by
  obtain ⟨reports, e⟩ := foldl_report (fun s h => .cond .driveFault (some h) s.inputs[h].driveFault) hoists s
  unfold State.reportLines
  rw [e]
  exact ⟨_, rfl⟩

theorem evaluateBath_only (s : State) : ∃ reports, s.evaluateBath =
    { s with wu := { s.wu with bath := some s.bathNow }, agenda := ⟨reports, s.agenda.follow⟩ } := by
  unfold State.evaluateBath; dsimp only; split
  · exact ⟨s.agenda.reports, rfl⟩
  · exact ⟨_, rfl⟩

theorem finishCutShort_only (s : State) : ∃ full m, s.finishCutShort =
    { s with kept := { s.kept with journal := s.kept.journal.map (Entry.interrupt s.kept.runtime) }, reserved := 0,
             nearlyFull := full, link := { s.link with marks := m } } := by
  unfold State.finishCutShort; dsimp only
  generalize hu : State.markIf _ _ _ = u
  have marked : ∃ m, u = { s with
      kept := { s.kept with journal := s.kept.journal.map (Entry.interrupt s.kept.runtime) }, reserved := 0,
      nearlyFull := false, link := { s.link with marks := m } } := by
    rw [← hu]; exact markIf_only _ _ _
  obtain ⟨m, rfl⟩ := marked
  obtain ⟨full, m, judged⟩ := judgeNearly_only { s with
      kept := { s.kept with journal := s.kept.journal.map (Entry.interrupt s.kept.runtime) }, reserved := 0,
      nearlyFull := false, link := { s.link with marks := m } }
  exact ⟨full, m, judged⟩

/-- The marks and notices of step 3 of R202 and R203, whatever they depend on. -/
theorem resetMarks_only (s : State) (busy flight latched : Bool) : ∃ full m,
    ((((s.markIf busy .hoist).finishCutShort).markSkimDue.markIf flight .feeder).markIf latched .input) =
      { s with kept := { s.kept with journal := s.kept.journal.map (Entry.interrupt s.kept.runtime) }, reserved := 0,
               nearlyFull := full, link := { s.link with marks := m } } := by
  obtain ⟨m, e⟩ := markIf_only s busy .hoist
  rw [e]
  obtain ⟨full, m, e⟩ := finishCutShort_only { s with link := { s.link with marks := m } }
  rw [e]
  generalize hu : State.markSkimDue _ = u
  have marked : ∃ m, u = { s with
      kept := { s.kept with journal := s.kept.journal.map (Entry.interrupt s.kept.runtime) }, reserved := 0,
      nearlyFull := full, link := { s.link with marks := m } } := by
    rw [← hu]; exact markIf_only _ _ _
  obtain ⟨m, rfl⟩ := marked
  generalize hv : State.markIf _ flight _ = v
  have marked : ∃ m, v = { s with
      kept := { s.kept with journal := s.kept.journal.map (Entry.interrupt s.kept.runtime) }, reserved := 0,
      nearlyFull := full, link := { s.link with marks := m } } := by
    rw [← hv]; exact markIf_only _ _ _
  obtain ⟨m, rfl⟩ := marked
  obtain ⟨m, e⟩ := markIf_only { s with
      kept := { s.kept with journal := s.kept.journal.map (Entry.interrupt s.kept.runtime) }, reserved := 0,
      nearlyFull := full, link := { s.link with marks := m } } latched .input
  exact ⟨full, m, e⟩

/-! ### RESTART (R203) and the power-on (R202) -/

/-- The blocks after a RESTART, before its marks and reports (R23, R55, R102, R138, R156, R173). -/
def State.restartBlocks (s : State) : State :=
  State.parkedPermits { s.modLink Link.restarted with
    orders := [], ctxs := s.ctxs.map DipCtx.restarted, drives := s.drives.map fun d => DriveIf.restarted d s.bench,
    bench := false, benchBeacon := false, holders := Vector.replicate 12 none, waits := [],
    wu := s.wu.restarted, lu := LevelUnit.start, feeder := s.feeder.restarted,
    entries := Vector.replicate 14 FaultEntry.start, beaconT := none,
    mail := Vector.replicate 4 Mail.empty, autoRequests := [], agenda := Agenda.empty }

theorem restart_only (s : State) : ∃ full m b reports, s.restart = { s.restartBlocks with
    kept := { s.kept with journal := s.kept.journal.map (Entry.interrupt s.kept.runtime) }, reserved := 0,
    nearlyFull := full, link := { s.link.restarted with marks := m }, wu := { s.wu.restarted with bath := some b },
    agenda := ⟨reports, []⟩ } := by
  have marked := resetMarks_only s.restartBlocks s.anyBusy s.feeder.state.inFlight
    (s.restartBlocks.markIf s.anyBusy .hoist).link.anyLatch
  obtain ⟨full, m, marked⟩ := marked
  have split : s.restart = State.evaluateBath (State.reportLines _) := congrArg (fun t => State.evaluateBath (State.reportLines t)) marked
  generalize hu : ({ s.restartBlocks with kept := _, reserved := 0, nearlyFull := full, link := _ } : State) = u at split
  obtain ⟨_, lines⟩ := reportLines_only u
  obtain ⟨reports, bath⟩ := evaluateBath_only u.reportLines
  rw [split, bath, lines, ← hu]
  exact ⟨full, m, _, reports, rfl⟩

/-- The retained area a power-on finds: its own with a good check, else that of a cold start (R82, R83). -/
def State.foundArea (s : State) : Retained := if !s.checkGood then Retained.cold else s.kept

theorem powerOn_only (s : State) (pins : PowerOnPins) : ∃ full m reports, s.powerOn pins =
    { s.freshBlocks pins s.foundArea (!s.checkGood) with
      kept := { s.foundArea with journal := s.foundArea.journal.map (Entry.interrupt s.foundArea.runtime) },
      reserved := 0, nearlyFull := full, link := { Link.start pins.straps (!s.checkGood) with marks := m },
      agenda := ⟨reports, []⟩ } := by
  obtain ⟨full, m, marked⟩ := resetMarks_only (s.freshBlocks pins s.foundArea (!s.checkGood)) false false false
  have split : s.powerOn pins = State.reportLines (if !s.checkGood then State.report _ (.occur .retainedLost none) else _) :=
    congrArg (fun t => State.reportLines (if !s.checkGood then State.report t (.occur .retainedLost none) else t)) marked
  generalize hu : ({ s.freshBlocks pins s.foundArea (!s.checkGood) with
    kept := _, reserved := 0, nearlyFull := full, link := _ } : State) = u at split
  have cold : ∃ reports, (if !s.checkGood then u.report (.occur .retainedLost none) else u) =
      { u with agenda := ⟨reports, u.agenda.follow⟩ } := by
    split
    · exact ⟨_, rfl⟩
    · exact ⟨u.agenda.reports, rfl⟩
  obtain ⟨reports, cold⟩ := cold
  obtain ⟨reports, lines⟩ := reportLines_only { u with agenda := ⟨reports, u.agenda.follow⟩ }
  rw [split, cold, lines, ← hu]
  exact ⟨full, m, reports, rfl⟩

/-- The agenda worked off and the transmitter's choice over parked dip contexts, with reports only. -/
theorem finish_of_parked (s : State) (p : s.allParked) (reports_only : s.agenda.follow = []) :
    ∃ entries b m tx replies a, s.finish =
      { s with entries := entries, beaconT := b, agenda := a,
               link := { s.link with marks := m, tx := tx, replies := replies } } ∧
    Link.owed { s.link with marks := m, tx := tx, replies := replies } = s.link.owed := by
  obtain ⟨entries, b, m, a, settled⟩ := settleFor_of_parked Config.agendaBound s p reports_only
  obtain ⟨m, tx, replies, sent, owed⟩ := transmit_only (settleFor Config.agendaBound s)
  have finished : s.finish = _ := sent
  rw [settled] at finished owed
  exact ⟨entries, b, m, tx, replies, a, finished, owed⟩

end Sys2Proof.Machine
end

section
/-! The state after reset, a power-on and a RESTART (R23, R54, R55, R83, R102, R138, R156, R173, R202, R203). -/

namespace Sys2Proof.Machine

set_option Elab.async false

theorem replies_of_owed (l : Link) (e : l.owed = []) : l.replies = [] :=
  (List.append_eq_nil_iff.1 e).2

/-- TRAVEL_PERMIT of a PARKED station: on where it is installed (R150). -/
theorem parkedPermits_drive (s : State) (h : Hoist) :
    s.parkedPermits.drives[h] = { s.drives[h] with permit := s.installed h } := by
  simp only [State.parkedPermits, Fin.getElem_fin, Vector.getElem_mapIdx]
  rfl

theorem freshBlocks_drive (s : State) (pins : PowerOnPins) (r : Retained) (cold : Bool) (h : Hoist) :
    (s.freshBlocks pins r cold).drives[h] = DriveIf.powerOn (decide (h.val ≤ pins.straps.hoists.val)) := by
  simp only [State.freshBlocks, parkedPermits_drive]
  rw [Fin.getElem_fin, Vector.getElem_replicate]
  rfl

theorem freshBlocks_ctx (s : State) (pins : PowerOnPins) (r : Retained) (cold : Bool) (h : Hoist) :
    (s.freshBlocks pins r cold).ctxs[h] = DipCtx.afterPower r h := by
  fin_cases h <;> rfl

/-- Settles O5: the power-on values of the blocks, which no report of step 3 of R202 reaches. -/
theorem powerOnStartValues : Obligations.PowerOnStartValues := by
  unfold Obligations.PowerOnStartValues
  intro s pins
  obtain ⟨full, m, reports, on⟩ := powerOn_only s pins
  have parked : (s.powerOn pins).allParked := by
    rw [on]; intro h; dsimp only; rw [freshBlocks_ctx]; exact ⟨rfl, rfl⟩
  obtain ⟨entries, b, m, tx, replies, a, finished, owed⟩ := finish_of_parked (s.powerOn pins) parked (by rw [on])
  have taken : exec (.powerOn pins) s = .next (s.powerOn pins).finish := rfl
  rw [finished, on] at taken
  rw [on] at owed
  refine ⟨_, taken, rfl, rfl, rfl, rfl, rfl, rfl, replies_of_owed _ owed, rfl, rfl,
    rfl, rfl, rfl, rfl, fun z => ?_, rfl, rfl, fun h => ?_⟩
  · exact Vector.getElem_replicate _
  · dsimp only
    rw [freshBlocks_ctx, freshBlocks_drive]
    exact ⟨rfl, rfl, rfl, rfl, rfl, rfl, rfl, rfl, rfl⟩

/-- Settles O4: every part is evaluated. -/
theorem resetIsColdStart : Obligations.ResetIsColdStart := by
  unfold Obligations.ResetIsColdStart
  refine ⟨⟨rfl, rfl, rfl, rfl, rfl, rfl, rfl, rfl, rfl, fun h => ?_, fun k => ?_⟩, rfl, rfl, rfl, rfl, fun k => ?_, rfl, rfl,
    fun z => ?_, fun i => ?_⟩
  · exact ⟨Vector.getElem_replicate _, congrArg DriveIf.known (Vector.getElem_replicate _)⟩
  · cases k <;> rfl
  · exact Vector.getElem_replicate _
  · exact Vector.getElem_replicate _
  · revert i; decide

/-- Settles O60: an empty book, no holder, no order, no reply. -/
theorem invariantsHoldAtReset : Obligations.InvariantsHoldAtReset := by
  unfold Obligations.InvariantsHoldAtReset
  refine ⟨⟨rfl, rfl⟩, fun y z i j hi _ _ => ?_, ⟨by decide, List.nodup_nil⟩, by decide, fun outstanding => ?_⟩
  · have free : State.reset.holders[y] = none := Vector.getElem_replicate _
    rw [free] at hi; cases hi
  · cases outstanding

theorem restartBlocks_ctx (s : State) (h : Hoist) : s.restartBlocks.ctxs[h] = s.ctxs[h].restarted :=
  Vector.getElem_map _ _

/-- A station after RESTART: no motion, its count kept, its outputs low, TRAVEL_PERMIT where it is installed (R150, R156). -/
theorem restartBlocks_drive (s : State) (h : Hoist) :
    s.restartBlocks.drives[h] = { s.drives[h].restarted s.bench with permit := s.installed h } := by
  unfold State.restartBlocks
  rw [parkedPermits_drive]
  simp only [Fin.getElem_fin, Vector.getElem_map]
  rfl

theorem DriveIf.restarted_count (d : DriveIf) (bench : Bool) : (d.restarted bench).count = d.count := by
  cases bench with
  | false => rfl
  | true => simp only [DriveIf.restarted, DriveIf.leaveBench, DriveIf.endBurst]; cases d.burst <;> rfl

/-- Settles O7: the blocks after the restart, which no report made afresh reaches, and its reply alone in the queue. -/
theorem restartClears : Obligations.RestartClears := by
  unfold Obligations.RestartClears
  intro s tag listening
  obtain ⟨full, m, bath, reports, restarted⟩ := restart_only (s.modLink fun l => { l with rx := [] })
  have taken : exec (.restart tag) s = .next (State.finish (State.addReply (State.restart (s.modLink fun l =>
      { l with rx := [] })) ReqKind.restart.code tag .ok [])) :=
    congrArg Host.Outcome.next (request_of_listening s .restart tag (fun s => s.restart.okay) listening)
  rw [restarted] at taken
  generalize hu : State.addReply _ ReqKind.restart.code tag .ok [] = u at taken
  have parked : u.allParked := by
    rw [← hu]; intro h
    simp only [State.addReply, modLink_ctxs, restartBlocks_ctx]
    exact ⟨rfl, rfl⟩
  obtain ⟨entries, b, m, tx, replies, a, finished, owed⟩ := finish_of_parked u parked (by rw [← hu]; rfl)
  rw [finished, ← hu] at taken
  rw [← hu] at owed
  refine ⟨_, taken, owed, rfl, rfl, rfl, rfl, rfl, rfl, rfl, rfl, rfl, rfl, rfl, rfl, rfl, fun z => ?_, rfl, rfl, rfl,
    rfl, rfl, rfl, fun h => ?_⟩
  · exact Vector.getElem_replicate _
  · simp only [State.addReply, modLink_ctxs, modLink_drives, restartBlocks_ctx, restartBlocks_drive]
    exact ⟨rfl, rfl, DriveIf.restarted_count _ _, rfl, rfl, rfl⟩

end Sys2Proof.Machine
end

section
/-! The order table in order (R1, R6): which commands post, close or leave the orders, block by block, and that none of
them brings a 25th order or a tag twice. Whatever is built of the shared operations keeps the table by `Steady.table`;
here stand the commands themselves. -/

namespace Sys2Proof.Machine

set_option Elab.async false

/-! ### The relation -/

/-- From `s` to `t` an order table in order stays in order. -/
def KeepsTable (s t : State) : Prop := ordersOk s.orders → ordersOk t.orders

theorem KeepsTable.refl (s : State) : KeepsTable s s := id

theorem KeepsTable.trans {a b c : State} (x : KeepsTable a b) (y : KeepsTable b c) : KeepsTable a c := y ∘ x

/-- An operation that leaves the orders alone. -/
theorem KeepsTable.of_orders {s t : State} (e : t.orders = s.orders := by rfl) : KeepsTable s t := by
  unfold KeepsTable; rw [e]; exact id

/-- An operation that empties the table. -/
theorem KeepsTable.of_nil {s t : State} (e : t.orders = []) : KeepsTable s t := by
  intro _; rw [e]; exact ⟨Nat.zero_le _, List.nodup_nil⟩

theorem KeepsTable.ite {p : Prop} [Decidable p] {s a b : State} (x : KeepsTable s a) (y : KeepsTable s b) :
    KeepsTable s (if p then a else b) := by
  split
  · exact x
  · exact y

theorem Steady.keepsTable {s t : State} (x : Steady s t) : KeepsTable s t := x.table

theorem keepsTable_foldl {α : Type} (f : State → α → State) (hf : ∀ s x, KeepsTable s (f s x)) (l : List α) (s : State) :
    KeepsTable s (l.foldl f s) := by
  induction l generalizing s with
  | nil => exact .refl s
  | cons x xs ih => exact (hf s x).trans (ih (f s x))

/-! ### Around a command -/

theorem finish_keepsTable (s : State) : KeepsTable s s.finish :=
  (settle_steady s).keepsTable.trans (.of_orders (by rw [State.finish, transmit_only_link]))

theorem whileRunning_keepsTable (s : State) (f : State → State) (hf : KeepsTable s (f s)) :
    KeepsTable s (s.whileRunning f) :=
  .ite (hf.trans (finish_keepsTable _)) (.refl s)

theorem received_keepsTable (s : State) (f : State → State) (hf : ∀ s, KeepsTable s (f s)) :
    KeepsTable s (s.received f) := by
  refine whileRunning_keepsTable s _ ?_
  have frame : KeepsTable s (s.modLink fun l => { l with rx := [] }) := .of_orders
  exact .ite (frame.trans .of_orders) (frame.trans (hf _))

/-- A request keeps the table where its owner does. -/
theorem request_keepsTable (s : State) (k : ReqKind) (tag : Nat) (f : State → Answer)
    (hf : ∀ s, KeepsTable s (f s).state) : KeepsTable s (s.request k tag f) :=
  received_keepsTable s _ fun s => (hf s).trans .of_orders

theorem forHoist_keepsTable (s : State) (n : Nat) (f : Hoist → Answer) (hf : ∀ h, KeepsTable s (f h).state) :
    KeepsTable s (s.forHoist n f).state := by
  unfold State.forHoist; split
  · exact hf _
  · exact .refl s

/-- An answer in two branches. -/
theorem answer_keepsTable {p : Prop} [Decidable p] {s : State} {a b : Answer} (x : KeepsTable s a.state)
    (y : KeepsTable s b.state) : KeepsTable s (if p then a else b).state := by
  split
  · exact x
  · exact y

theorem inputChange_keepsTable (s : State) (h : Hoist) (line : InputLine) (level : Bool) (act : State → State)
    (ha : ∀ s, KeepsTable s (act s)) : KeepsTable s (s.inputChange h line level act) :=
  whileRunning_keepsTable s _ (.ite (.refl s) (KeepsTable.trans (.of_orders (by simp)) (ha _)))

/-! ### The Order Queue (R4, R5, R11 to R15) -/

/-- A post that passes the checks of R4 finds a free place and bears a new tag. -/
theorem postCheck_none (s : State) (p : PostFields) (c : s.postCheck p = none) :
    s.orders.length < Config.orderSlots ∧ ∀ o ∈ s.orders, o.tag ≠ p.orderTag := by
  unfold State.postCheck at c
  split at c
  · cases c
  · rename_i room
    split at c
    · cases c
    · split at c
      · cases c
      · rename_i fresh
        refine ⟨Nat.lt_of_not_le room, fun o ho e => fresh ?_⟩
        exact List.find?_isSome.2 ⟨o, ho, by simpa using e⟩

theorem addOrder_keepsTable (s : State) (p : PostFields) (h : Hoist) (c : s.postCheck p = none) :
    KeepsTable s (s.addOrder p h) := by
  obtain ⟨room, fresh⟩ := postCheck_none s p c
  intro ⟨_, distinct⟩
  refine ⟨by simpa [State.addOrder] using room, ?_⟩
  simp only [State.addOrder, followUp_orders, List.map_append, List.map_cons, List.map_nil]
  refine List.nodup_append.2 ⟨distinct, List.nodup_singleton _, fun x hx y hy => ?_⟩
  obtain ⟨o, ho, rfl⟩ := List.mem_map.1 hx
  rw [List.mem_singleton.1 hy]
  exact fresh o ho

theorem dropPass2_keepsTable (s : State) (h : Hoist) : KeepsTable s (s.dropPass2 h) :=
  ((modOrder_steady s h (fun o => { o with closePending := true }) fun _ => rfl).trans
    ((modCtx_steady _ _ _).trans (returnHeld_steady _ _))).keepsTable

theorem cancelTaken_keepsTable (s t : State) (o : Order) (e : s.cancelTaken o = some t) : KeepsTable s t := by
  unfold State.cancelTaken at e
  dsimp only at e
  split at e
  case h_1 | h_2 | h_3 => cases e; exact (closeUnlowered_steady _ _ _ _).keepsTable
  case h_11 | h_12 =>
    split at e
    · cases e; exact dropPass2_keepsTable s _
    · cases e
  case h_13 => cases e
  case h_10 => cases e; exact (closeRehang_steady _ _ _).keepsTable
  all_goals cases e; exact (abort_steady _ _ _).keepsTable

theorem removeOrder_keepsTable (s : State) (o : Order) : KeepsTable s (s.removeOrder o) :=
  (filter_steady s _).keepsTable

theorem orderPost_keepsTable (s : State) (tag : Nat) (p : PostFields) : KeepsTable s (s.carryOut (.orderPost tag p)) := by
  refine request_keepsTable s _ tag _ fun s => ?_
  cases c : s.postCheck p with
  | some r => exact .refl s
  | none => exact forHoist_keepsTable s _ _ fun h => addOrder_keepsTable s p h c

theorem orderCancel_keepsTable (s : State) (tag n : Nat) : KeepsTable s (s.carryOut (.orderCancel tag n)) := by
  refine request_keepsTable s _ tag _ fun s => ?_
  dsimp only
  split
  · exact .refl s
  · rename_i o _
    refine answer_keepsTable (.refl s) (answer_keepsTable (removeOrder_keepsTable s o) ?_)
    split
    · rename_i t e
      exact cancelTaken_keepsTable s t o e
    · exact .refl s

/-! ### The other requests -/

theorem startRecal_keepsTable (s : State) (h : Hoist) : KeepsTable s (s.startRecal h) :=
  (Steady.ite ((toRecal_steady _ _ _).trans (enterHeld_steady _ _)) (toRecal_steady _ _ _)).keepsTable

theorem hoistRun_keepsTable (s : State) (tag n : Nat) : KeepsTable s (s.carryOut (.hoistRun tag n)) := by
  refine request_keepsTable s _ tag _ fun s => forHoist_keepsTable s _ _ fun h => ?_
  have on : KeepsTable s (s.modCtx h fun c => { c with runEnable := true }) := .of_orders
  exact answer_keepsTable (on.trans ((startRecal_keepsTable _ h).trans (followUp_steady _ _).keepsTable))
    (on.trans (followUp_steady _ _).keepsTable)

theorem hoistResume_keepsTable (s : State) (tag n : Nat) : KeepsTable s (s.carryOut (.hoistResume tag n)) := by
  refine request_keepsTable s _ tag _ fun s => forHoist_keepsTable s _ _ fun h => ?_
  split
  · exact answer_keepsTable (.refl s) (resumeFrom_steady s h _).keepsTable
  · exact .refl s

theorem restart_keepsTable (s : State) : KeepsTable s s.restart := by
  obtain ⟨full, m, b, reports, e⟩ := restart_only s
  exact .of_nil (by rw [e]; rfl)

theorem powerOn_keepsTable (s : State) (pins : PowerOnPins) : KeepsTable s (s.powerOn pins) := by
  obtain ⟨full, m, reports, e⟩ := powerOn_only s pins
  exact .of_nil (by rw [e]; rfl)

/-- New settings of a fault kind (R183, R184): a reaction may be applied, and the INHIBIT may end. -/
theorem setFault_keepsTable (s : State) (k : FaultKind) (f : FaultSet) : KeepsTable s (s.setFault k f) := by
  unfold State.setFault
  have kept : KeepsTable s (s.modKept fun r => { r with faults := r.faults.set k.ix f }) := .of_orders
  exact (KeepsTable.ite (kept.trans (applyReaction_steady _ _ _).keepsTable) kept).trans (inhibitEnd_steady _ _).keepsTable

theorem setKind_keepsTable (s : State) (k : FaultKind) (b : FaultSetupBody) : KeepsTable s (s.setKind k b).state := by
  cases b with
  | read => exact .refl s
  | beaconMin _ => exact .refl s
  | settings r d f =>
    unfold State.setKind; dsimp only; split
    · exact answer_keepsTable (setFault_keepsTable s k _) (.refl s)
    · exact .refl s

theorem setBeacon_keepsTable (s : State) (b : FaultSetupBody) : KeepsTable s (s.setBeacon b).state := by
  cases b with
  | read => exact .refl s
  | beaconMin _ => exact answer_keepsTable .of_orders (.refl s)
  | settings _ _ _ => exact .refl s

theorem acknowledge_keepsTable (s : State) (k : FaultKind) : KeepsTable s (s.acknowledge k) :=
  ((modEntry_steady _ _ _).trans ((markIf_steady _ _ _).trans (inhibitEnd_steady _ _))).keepsTable

theorem setKettle_keepsTable (s : State) (k : KettleSet) : KeepsTable s (s.setKettle k) :=
  KeepsTable.trans (b := s.modKept fun r => { r with kettle := k }) .of_orders
    ((markIf_steady _ _ _).trans (alertClaims_steady _ _)).keepsTable

theorem setWeigh_keepsTable (s : State) (w : WeighSet) : KeepsTable s (s.setWeigh w) := by
  have set : KeepsTable s ((s.modKept fun r => { r with weigh := w }).modWu fun u =>
    { u with fresh := u.fresh || s.scanChanges w }) := .of_orders
  exact .ite set (set.trans (evaluateBath_steady _).keepsTable)

theorem openBook_keepsTable (s : State) (n : Nat) : KeepsTable s (s.openBook n) :=
  KeepsTable.trans (b := s.modKept Retained.reopen) .of_orders
    ((bookFinal_steady _ _ _ _).trans (takeAll_steady _)).keepsTable

theorem trimBook_keepsTable (s : State) (n : Nat) : KeepsTable s (s.trimBook n) := by
  unfold State.trimBook; dsimp only
  exact .ite (.refl s) (KeepsTable.trans (b := s.modKept fun r => r.trim n) .of_orders
    ((judgeNearly_steady _).trans (takeAll_steady _)).keepsTable)

theorem leaveBench_keepsTable (s : State) : KeepsTable s s.leaveBench :=
  KeepsTable.trans (b := State.parkedPermits { s with bench := false, drives := s.drives.map fun d =>
    { DriveIf.leaveBench d with brakeRel := false } }) .of_orders (takeAll_steady _).keepsTable

theorem benchSet_keepsTable (s : State) (h : Hoist) (f : BenchFields) : KeepsTable s (s.benchSet h f) := by
  unfold State.benchSet; dsimp only
  exact .ite .of_orders (KeepsTable.trans (.of_orders (by rfl)) (burstMeets_steady _ h).keepsTable)

theorem startFeed_keepsTable (s : State) (source : FeedSource) (n : Nat) : KeepsTable s (s.startFeed source n) :=
  ((grantReserve_steady s 1).trans ((modFeeder_steady _ _ rfl).trans (mark_steady _ _))).keepsTable

theorem skim_keepsTable (s : State) (a b : Nat) : KeepsTable s (s.skim a b) :=
  KeepsTable.trans (b := s.modKept fun r =>
    { r with surfaces := r.surfaces.mapIdx fun i x => if a ≤ i + 1 ∧ i + 1 ≤ b then ⟨false, 0⟩ else x }) .of_orders
    (examine_steady _).keepsTable

/-! ### One lemma a request -/

theorem noticeSetup_keepsTable (s : State) (tag : Nat) (v : Option (Vector Nat 6)) : KeepsTable s (s.carryOut (.noticeSetup tag v)) := by
  refine request_keepsTable s _ tag _ fun s => ?_
  cases v with
  | none => exact .refl s
  | some v => exact answer_keepsTable .of_orders (.refl s)

theorem cycleSetup_keepsTable (s : State) (tag : Nat) (v : Option CycleSet) : KeepsTable s (s.carryOut (.cycleSetup tag v)) := by
  refine request_keepsTable s _ tag _ fun s => ?_
  cases v with
  | none => exact .refl s
  | some v => exact answer_keepsTable .of_orders (.refl s)

theorem levelSetup_keepsTable (s : State) (tag : Nat) (v : Option LevelSet) : KeepsTable s (s.carryOut (.levelSetup tag v)) := by
  refine request_keepsTable s _ tag _ fun s => ?_
  cases v with
  | none => exact .refl s
  | some v => exact answer_keepsTable .of_orders (.refl s)

theorem driveSetup_keepsTable (s : State) (tag : Nat) (v : Option DriveSet) : KeepsTable s (s.carryOut (.driveSetup tag v)) := by
  refine request_keepsTable s _ tag _ fun s => ?_
  cases v with
  | none => exact .refl s
  | some v => exact answer_keepsTable .of_orders (.refl s)

theorem feedSetup_keepsTable (s : State) (tag : Nat) (v : Option FeedFields) : KeepsTable s (s.carryOut (.feedSetup tag v)) := by
  refine request_keepsTable s _ tag _ fun s => ?_
  cases v with
  | none => exact .refl s
  | some v => exact answer_keepsTable .of_orders (.refl s)

theorem kettleSetup_keepsTable (s : State) (tag : Nat) (v : Option KettleSet) : KeepsTable s (s.carryOut (.kettleSetup tag v)) := by
  refine request_keepsTable s _ tag _ fun s => ?_
  cases v with
  | none => exact .refl s
  | some v => exact answer_keepsTable (setKettle_keepsTable s v) (.refl s)

theorem weighSetup_keepsTable (s : State) (tag : Nat) (v : Option WeighFields) :
    KeepsTable s (s.carryOut (.weighSetup tag v)) := by
  refine request_keepsTable s _ tag _ fun s => ?_
  cases v with
  | none => exact .refl s
  | some v =>
    dsimp only; split
    · exact setWeigh_keepsTable s _
    · exact .refl s

theorem faultSetup_keepsTable (s : State) (tag k : Nat) (b : FaultSetupBody) :
    KeepsTable s (s.carryOut (.faultSetup tag k b)) := by
  refine request_keepsTable s _ tag _ fun s => answer_keepsTable (setBeacon_keepsTable s b) ?_
  split
  · exact setKind_keepsTable s _ b
  · exact .refl s

theorem faultAck_keepsTable (s : State) (tag k : Nat) : KeepsTable s (s.carryOut (.faultAck tag k)) := by
  refine request_keepsTable s _ tag _ fun s => ?_
  split
  · exact .refl s
  · exact answer_keepsTable (.refl s) (answer_keepsTable (.refl s) (acknowledge_keepsTable s _))

theorem bookPost_keepsTable (s : State) (tag k : Nat) (m : Int) (n : Nat) :
    KeepsTable s (s.carryOut (.bookPost tag k m n)) := by
  refine request_keepsTable s _ tag _ fun s => ?_
  split
  · exact .refl s
  · exact answer_keepsTable (.refl s) (answer_keepsTable (.refl s) (answer_keepsTable (.refl s)
      (bookFinal_steady s _ _ _).keepsTable))

theorem bookOpen_keepsTable (s : State) (tag n : Nat) : KeepsTable s (s.carryOut (.bookOpen tag n)) :=
  request_keepsTable s _ tag _ fun s =>
    answer_keepsTable (answer_keepsTable (.refl s) (openBook_keepsTable s n)) (.refl s)

theorem bookTrim_keepsTable (s : State) (tag n : Nat) : KeepsTable s (s.carryOut (.bookTrim tag n)) :=
  request_keepsTable s _ tag _ fun s => answer_keepsTable (trimBook_keepsTable s n) (.refl s)

theorem skimDone_keepsTable (s : State) (tag a b : Nat) : KeepsTable s (s.carryOut (.skimDone tag a b)) := by
  refine request_keepsTable s _ tag _ fun s => answer_keepsTable ?_ (.refl s)
  split
  · exact .refl s
  · exact skim_keepsTable s a b

theorem feed_keepsTable (s : State) (tag n : Nat) : KeepsTable s (s.carryOut (.feed tag n)) := by
  refine request_keepsTable s _ tag _ fun s => answer_keepsTable ?_ (.refl s)
  split
  · exact .refl s
  · exact startFeed_keepsTable s _ n

theorem feederRelay_keepsTable (s : State) (tag k : Nat) (p : List Byte) :
    KeepsTable s (s.carryOut (.feederRelay tag k p)) := by
  refine received_keepsTable s _ fun s => ?_
  split
  · exact .of_orders
  · exact .of_orders

theorem profileWrite_keepsTable (s : State) (tag i : Nat) (f : ProfileFields) :
    KeepsTable s (s.carryOut (.profileWrite tag i f)) :=
  request_keepsTable s _ tag _ fun s => answer_keepsTable .of_orders (.refl s)

theorem benchEnter_keepsTable (s : State) (tag : Nat) : KeepsTable s (s.carryOut (.benchEnter tag)) :=
  request_keepsTable s _ tag _ fun s => answer_keepsTable (.refl s) (answer_keepsTable .of_orders (.refl s))

theorem benchDrive_keepsTable (s : State) (tag : Nat) (f : BenchFields) :
    KeepsTable s (s.carryOut (.benchDrive tag f)) :=
  request_keepsTable s _ tag _ fun s => answer_keepsTable (.refl s) (forHoist_keepsTable s f.hoist _ fun h =>
    answer_keepsTable (benchSet_keepsTable s h f) (.refl s))

theorem marks_keepsTable (s : State) : KeepsTable s (noticeClasses.foldl State.mark s) :=
  keepsTable_foldl State.mark (fun s c => .of_orders (mark_orders s c)) noticeClasses s

theorem benchNotices_keepsTable (s : State) (tag : Nat) : KeepsTable s (s.carryOut (.benchNotices tag)) := by
  refine request_keepsTable s _ tag _ fun s => ?_
  have marked := marks_keepsTable s
  generalize noticeClasses.foldl State.mark s = t at marked ⊢
  exact answer_keepsTable marked (.refl s)

theorem benchExit_keepsTable (s : State) (tag : Nat) : KeepsTable s (s.carryOut (.benchExit tag)) :=
  request_keepsTable s _ tag _ fun s => answer_keepsTable (leaveBench_keepsTable s) (.refl s)

theorem weighNow_keepsTable (s : State) (tag n : Nat) : KeepsTable s (s.carryOut (.weighNow tag n)) :=
  request_keepsTable s _ tag _ fun s => forHoist_keepsTable s n _ fun _ =>
    answer_keepsTable (.refl s) (answer_keepsTable (.refl s) (modWu_steady s _).keepsTable)

theorem hoistStop_keepsTable (s : State) (tag n : Nat) : KeepsTable s (s.carryOut (.hoistStop tag n)) :=
  request_keepsTable s _ tag _ fun s => forHoist_keepsTable s n _ fun _ => .of_orders

theorem hoistHold_keepsTable (s : State) (tag n : Nat) : KeepsTable s (s.carryOut (.hoistHold tag n)) :=
  request_keepsTable s _ tag _ fun s => forHoist_keepsTable s n _ fun h =>
    answer_keepsTable (.refl s) (enterHeld_steady s h).keepsTable

theorem hoistAbort_keepsTable (s : State) (tag n : Nat) : KeepsTable s (s.carryOut (.hoistAbort tag n)) :=
  request_keepsTable s _ tag _ fun s => forHoist_keepsTable s n _ fun h =>
    answer_keepsTable (.refl s) (abort_steady s h _).keepsTable

theorem rehangDone_keepsTable (s : State) (tag n : Nat) : KeepsTable s (s.carryOut (.rehangDone tag n)) :=
  request_keepsTable s _ tag _ fun s => forHoist_keepsTable s n _ fun h =>
    answer_keepsTable (rehangDone_steady s h).keepsTable (.refl s)

/-- A read answers, or refuses, with the state it found. -/
theorem read_keepsTable (s : State) (k : ReqKind) (tag : Nat) (f : State → Answer) (hf : ∀ s, (f s).state = s) :
    KeepsTable s (s.request k tag f) :=
  request_keepsTable s k tag f fun s => by rw [hf]; exact .refl s

theorem hoistStatus_keepsTable (s : State) (tag n : Nat) : KeepsTable s (s.carryOut (.hoistStatus tag n)) :=
  request_keepsTable s _ tag _ fun s => forHoist_keepsTable s n _ fun _ => .refl s

theorem orderQuery_keepsTable (s : State) (tag n : Nat) : KeepsTable s (s.carryOut (.orderQuery tag n)) := by
  refine read_keepsTable s _ tag _ fun s => ?_
  split <;> rfl

theorem profileRead_keepsTable (s : State) (tag n : Nat) : KeepsTable s (s.carryOut (.profileRead tag n)) := by
  refine read_keepsTable s _ tag _ fun s => ?_
  split <;> rfl

theorem levelRead_keepsTable (s : State) (tag : Nat) (n : Option Nat) : KeepsTable s (s.carryOut (.levelRead tag n)) := by
  refine read_keepsTable s _ tag _ fun s => ?_
  split
  · rfl
  · split <;> rfl

theorem faultList_keepsTable (s : State) (tag : Nat) (n : Option Nat) : KeepsTable s (s.carryOut (.faultList tag n)) := by
  refine read_keepsTable s _ tag _ fun s => ?_
  split
  · rfl
  · split <;> rfl

/-- Every request carried out keeps the table in order. -/
theorem carryOut_keepsTable (s : State) (i : Instr) : KeepsTable s (s.carryOut i) := by
  cases i with
  | orderPost tag p => exact orderPost_keepsTable s tag p
  | orderCancel tag n => exact orderCancel_keepsTable s tag n
  | orderQuery tag n => exact orderQuery_keepsTable s tag n
  | profileWrite tag i f => exact profileWrite_keepsTable s tag i f
  | profileRead tag n => exact profileRead_keepsTable s tag n
  | restart tag => exact request_keepsTable s _ tag _ restart_keepsTable
  | noticeSetup tag v => exact noticeSetup_keepsTable s tag v
  | inputRead tag => exact request_keepsTable s _ tag _ fun _ => .of_orders
  | hoistRun tag n => exact hoistRun_keepsTable s tag n
  | hoistStop tag n => exact hoistStop_keepsTable s tag n
  | hoistHold tag n => exact hoistHold_keepsTable s tag n
  | hoistResume tag n => exact hoistResume_keepsTable s tag n
  | hoistAbort tag n => exact hoistAbort_keepsTable s tag n
  | hoistStatus tag n => exact hoistStatus_keepsTable s tag n
  | rehangDone tag n => exact rehangDone_keepsTable s tag n
  | cycleSetup tag v => exact cycleSetup_keepsTable s tag v
  | bookOpen tag n => exact bookOpen_keepsTable s tag n
  | bookPost tag k m n => exact bookPost_keepsTable s tag k m n
  | bookTrim tag n => exact bookTrim_keepsTable s tag n
  | kettleSetup tag v => exact kettleSetup_keepsTable s tag v
  | skimDone tag a b => exact skimDone_keepsTable s tag a b
  | weighNow tag n => exact weighNow_keepsTable s tag n
  | weighSetup tag v => exact weighSetup_keepsTable s tag v
  | levelSetup tag v => exact levelSetup_keepsTable s tag v
  | levelRead tag n => exact levelRead_keepsTable s tag n
  | driveSetup tag v => exact driveSetup_keepsTable s tag v
  | benchEnter tag => exact benchEnter_keepsTable s tag
  | benchDrive tag f => exact benchDrive_keepsTable s tag f
  | benchNotices tag => exact benchNotices_keepsTable s tag
  | benchExit tag => exact benchExit_keepsTable s tag
  | feed tag n => exact feed_keepsTable s tag n
  | feederRelay tag k p => exact feederRelay_keepsTable s tag k p
  | feedSetup tag v => exact feedSetup_keepsTable s tag v
  | faultAck tag k => exact faultAck_keepsTable s tag k
  | faultSetup tag k b => exact faultSetup_keepsTable s tag k b
  | faultList tag n => exact faultList_keepsTable s tag n
  | identify tag | status tag | queueList tag | bookSummary tag | zoneStatus tag | weighRead tag | feedRead tag =>
    exact read_keepsTable s _ tag _ fun _ => rfl
  | bookRead tag n => exact read_keepsTable s _ tag _ fun _ => rfl
  | _ => exact .refl s

/-! ### Bytes received (R190, R191) -/

theorem judgeFrame_keepsTable (s : State) (code tag : Nat) (payload : List Byte) :
    KeepsTable s (s.judgeFrame code tag payload) := by
  unfold State.judgeFrame
  refine .ite .of_orders ?_
  split
  · exact KeepsTable.trans .of_orders (finish_keepsTable _)
  · exact .ite (carryOut_keepsTable s _) (KeepsTable.trans .of_orders (finish_keepsTable _))

theorem modLink_keepsTable (s : State) (f : Link → Link) : KeepsTable s (s.modLink f) := .of_orders

theorem linkByte_keepsTable (s : State) (b : Byte) : KeepsTable s (s.linkByte b) := by
  unfold State.linkByte; dsimp only
  have built := modLink_keepsTable s fun l => { l with rx := (receive Config.linkStart 3 s.link.rx b).1 }
  split
  · exact built
  · exact built.trans (modLink_keepsTable _ _)
  · exact built.trans (modLink_keepsTable _ _)
  · exact built.trans (judgeFrame_keepsTable _ _ _ _)

theorem linkBytes_keepsTable (s : State) (bytes : List Byte) : KeepsTable s (bytes.foldl State.linkByte s) :=
  keepsTable_foldl State.linkByte linkByte_keepsTable bytes s

/-! ### The Feeder Line (R163 to R170) -/

theorem modFeeder_keepsTable (s : State) (f : FeederLine → FeederLine) : KeepsTable s (s.modFeeder f) := .of_orders

theorem endFeed_keepsTable (s : State) (next : FeedState) (outcome : FeedOutcome) (n : Nat) (total : Option Nat) :
    KeepsTable s (s.endFeed next outcome n total) :=
  (modFeeder_keepsTable s _).trans (mark_steady _ _).keepsTable

theorem settleOver_keepsTable (s : State) : KeepsTable s s.settleOver :=
  (modFeeder_keepsTable s _).trans (.ite .of_orders (.refl _))

theorem enterSettle_keepsTable (s : State) : KeepsTable s s.enterSettle :=
  .ite ((modFeeder_keepsTable s _).trans (settleOver_keepsTable _)) (modFeeder_keepsTable s _)

theorem feedAccepted_keepsTable (s : State) : KeepsTable s s.feedAccepted := .of_orders

theorem feedDeclined_keepsTable (s : State) (n : Nat) : KeepsTable s (s.feedDeclined n) :=
  (endFeed_keepsTable s _ _ _ _).trans (returnReserve_steady _ _).keepsTable

theorem feedDrop_keepsTable (s : State) (n : Nat) : KeepsTable s (s.feedDrop n) := by
  unfold State.feedDrop; split
  · exact .ite ((modFeeder_keepsTable s _).trans (raiseAddition_steady _ _ _ _).keepsTable) (.refl s)
  · exact .refl s

theorem feedDone_keepsTable (s : State) (n : Nat) : KeepsTable s (s.feedDone n) := by
  unfold State.feedDone; dsimp only
  refine KeepsTable.trans ?_ ((endFeed_keepsTable _ _ _ _ _).trans (enterSettle_keepsTable _))
  split
  · exact (finaliseAddition_steady _ _ _ _ _).keepsTable
  · exact .refl s

theorem frameFeeding_keepsTable (s : State) (kind : Nat) (payload : List Byte) :
    KeepsTable s (s.frameFeeding kind payload) :=
  KeepsTable.trans (b := s.loadFeeder) (modFeeder_keepsTable s _)
    (.ite (.ite (.refl _) (feedDrop_keepsTable _ _))
      (.ite (.ite (.refl _) (feedDone_keepsTable _ _)) (modFeeder_keepsTable _ _)))

/-- A frame taken by the state of the line, or counted. -/
theorem feederFrame_keepsTable (s : State) (kind : Nat) (payload : List Byte) :
    KeepsTable s (s.feederFrame kind payload) := by
  unfold State.feederFrame; dsimp only
  have whole := modFeeder_keepsTable s fun f =>
    { f with rx := [], malformed := if malformed kind payload then bump16 f.malformed else f.malformed }
  refine whole.trans ?_
  generalize s.modFeeder _ = t
  split
  · exact .of_orders
  · exact (modFeeder_keepsTable _ _).trans (markIf_steady _ _ _).keepsTable
  · exact (modFeeder_keepsTable _ _).trans (markIf_steady _ _ _).keepsTable
  · exact .ite (.ite (.refl _) (feedAccepted_keepsTable _))
      (.ite (.ite (.refl _) (feedDeclined_keepsTable _ _)) (modFeeder_keepsTable _ _))
  · exact frameFeeding_keepsTable _ _ _

theorem feederByte_keepsTable (s : State) (b : Byte) : KeepsTable s (s.feederByte b) := by
  unfold State.feederByte; dsimp only
  have built := modFeeder_keepsTable s fun f => { f with rx := (receive Config.feederStart 2 s.feeder.rx b).1 }
  split
  · exact built
  · exact built.trans (modFeeder_keepsTable _ _)
  · exact built.trans (modFeeder_keepsTable _ _)
  · exact built.trans (feederFrame_keepsTable _ _ _)

theorem feedUnanswered_keepsTable (s : State) : KeepsTable s s.feedUnanswered :=
  (endFeed_keepsTable s _ _ _ _).trans ((report_steady _ _).trans (returnReserve_steady _ _)).keepsTable

theorem feedUnconfirmed_keepsTable (s : State) : KeepsTable s s.feedUnconfirmed := by
  unfold State.feedUnconfirmed; dsimp only
  refine KeepsTable.trans ?_ ((endFeed_keepsTable _ _ _ _ _).trans
    ((report_steady _ _).keepsTable.trans (enterSettle_keepsTable _)))
  split
  · exact (finaliseAddition_steady _ _ _ _ _).keepsTable
  · exact .refl s

/-! ### The other commands -/

theorem driveFaulted_keepsTable (s : State) (h : Hoist) : KeepsTable s (s.driveFaulted h) := by
  unfold State.driveFaulted; split
  · exact ((modDrive_steady _ _ _).trans (motionFails_steady _ _ _ _ _)).keepsTable
  · exact (modDrive_steady _ _ _).keepsTable
  · exact .refl s

theorem topPresent_keepsTable (s : State) (h : Hoist) : KeepsTable s (s.topPresent h) := by
  unfold State.topPresent; split
  · exact (topRule_steady s h).keepsTable
  · exact .ite (modDrive_steady _ _ _).keepsTable (.refl s)
  · exact .refl s

theorem readyExpires_keepsTable (s : State) (h : Hoist) : KeepsTable s (s.readyExpires h) := by
  unfold State.readyExpires; split
  · exact (motionFails_steady _ _ _ _ _).keepsTable
  · exact (modDrive_steady _ _ _).keepsTable
  · exact .refl s

theorem windowSample_keepsTable (s : State) (h : Hoist) (v : Int) : KeepsTable s (s.windowSample h v) := by
  unfold State.windowSample; split
  · exact .ite (judgeWindow_steady _ _ _).keepsTable (.refl s)
  · exact .refl s

theorem takeCount_keepsTable (s : State) (count : Option Int) : KeepsTable s (s.takeCount count) := by
  unfold State.takeCount; dsimp only
  refine (modWu_steady s WeighUnit.older).keepsTable.trans ?_
  split
  · exact (modWu_steady _ _).keepsTable
  · refine .ite ?_ (modWu_steady _ _).keepsTable
    unfold State.acceptSample; dsimp only
    split
    · exact (modWu_steady _ _).keepsTable.trans
        ((deliverSample_steady _ _ _).keepsTable.trans (windowSample_keepsTable _ _ _))
    · exact ((modWu_steady _ _).trans (evaluateBath_steady _)).keepsTable

theorem periodEnd_keepsTable (s : State) (count : Option Int) : KeepsTable s (s.periodEnd count) := by
  have ages (s : State) : KeepsTable s s.checkAges :=
    .ite ((steady_foldl _ checkAge_steady _ _).trans (evaluateBath_steady _)).keepsTable
      (steady_foldl _ checkAge_steady _ _).keepsTable
  unfold State.periodEnd; dsimp only
  refine (takeCount_keepsTable s count).trans ((ages _).trans ((settle_steady _).keepsTable.trans ?_))
  exact .ite (afterMissed_steady _).keepsTable (nextPeriod_steady _ _).keepsTable

theorem takeCapture_keepsTable (s : State) (h : Hoist) (c : Capture) : KeepsTable s (s.takeCapture h c) :=
  .ite (.refl s) (.ite (.ite (modCtx_steady _ _ _).keepsTable (.refl s)) (modLu_steady _ _).keepsTable)

theorem acceptCapture_keepsTable (s : State) (depth : Nat) : KeepsTable s (s.acceptCapture depth) := by
  unfold State.acceptCapture; dsimp only
  refine (modLu_steady s fun l => { l with ring := ringAdd l.ring depth }).keepsTable.trans ?_
  split
  · rename_i est _
    have checked (s : State) : KeepsTable s (s.mismatchCheck est) :=
      .ite ((modLu_steady _ _).trans (report_steady _ _)).keepsTable (modLu_steady _ _).keepsTable
    have decided (s : State) : KeepsTable s (s.decideFeed est) := .ite .of_orders (.refl s)
    exact (checked _).trans (decided _)
  · exact .refl _

theorem processCapture_keepsTable (s : State) (h : Hoist) (c : Capture) : KeepsTable s (s.processCapture h c) := by
  unfold State.processCapture; dsimp only
  have taken := (modLu_steady s fun l => { l with fifos := l.fifos.set h (l.fifos[h].drop 1) }).keepsTable
  exact (KeepsTable.ite (taken.trans (acceptCapture_keepsTable _ _)) taken).trans (modLu_steady _ _).keepsTable

theorem alarmExpires_keepsTable (s : State) (k : FaultKind) : KeepsTable s (s.alarmExpires k) :=
  ((modEntry_steady _ _ _).trans (applyReaction_steady _ _ _)).keepsTable

theorem claimGrant_keepsTable (s : State) (h : Hoist) : ∃ t, exec (.claimGrant h) s = .next t ∧ KeepsTable s t := by
  refine ⟨_, rfl, whileRunning_keepsTable s _ ?_⟩
  split
  · exact ((modMail_steady _ _ _).trans (takeGrant_steady _ _ _)).keepsTable
  · exact .refl s

theorem motionReached_keepsTable (s : State) (h : Hoist) : ∃ t, exec (.motionReached h) s = .next t ∧ KeepsTable s t := by
  refine ⟨_, rfl, whileRunning_keepsTable s _ ?_⟩
  split
  · exact ((modMail_steady _ _ _).trans (takeReached_steady _ _ _)).keepsTable
  · exact .refl s

theorem motionFailed_keepsTable (s : State) (h : Hoist) : ∃ t, exec (.motionFailed h) s = .next t ∧ KeepsTable s t := by
  refine ⟨_, rfl, whileRunning_keepsTable s _ ?_⟩
  split
  · exact ((modMail_steady _ _ _).trans (enterHeld_steady _ _)).keepsTable
  · exact .refl s

theorem weighResult_keepsTable (s : State) (h : Hoist) : ∃ t, exec (.weighResult h) s = .next t ∧ KeepsTable s t := by
  refine ⟨_, rfl, whileRunning_keepsTable s _ ?_⟩
  split
  · exact ((modMail_steady _ _ _).trans (takeResult_steady _ _ _)).keepsTable
  · exact .refl s

theorem dwellTimerExpiry_keepsTable (s : State) (h : Hoist) :
    ∃ t, exec (.dwellTimerExpiry h) s = .next t ∧ KeepsTable s t :=
  ⟨_, rfl, whileRunning_keepsTable s _
    (.ite (.refl s) (.ite (toLifting_steady s h).keepsTable (modCtx_steady _ _ _).keepsTable))⟩

theorem drainTimerExpiry_keepsTable (s : State) (h : Hoist) :
    ∃ t, exec (.drainTimerExpiry h) s = .next t ∧ KeepsTable s t :=
  ⟨_, rfl, whileRunning_keepsTable s _ (.ite (.refl s)
    (.ite ((modCtx_steady _ _ _).trans (drainCheck_steady _ _)).keepsTable (modCtx_steady _ _ _).keepsTable))⟩

theorem weighTimerExpiry_keepsTable (s : State) : ∃ t, exec .weighTimerExpiry s = .next t ∧ KeepsTable s t := by
  refine ⟨_, rfl, whileRunning_keepsTable s _ ?_⟩
  split
  · exact .ite (weighEnds_steady _ _ _ _).keepsTable (.refl s)
  · exact .refl s

theorem captureArrival_keepsTable (s : State) (h : Hoist) : ∃ t, exec (.captureArrival h) s = .next t ∧ KeepsTable s t := by
  refine ⟨_, rfl, whileRunning_keepsTable s _ ?_⟩
  split
  · exact (modMail_steady _ _ _).keepsTable.trans (takeCapture_keepsTable _ _ _)
  · exact .refl s

theorem hoistViewReport_keepsTable (s : State) (h : Hoist) :
    ∃ t, exec (.hoistViewReport h) s = .next t ∧ KeepsTable s t := by
  refine ⟨_, rfl, whileRunning_keepsTable s _ ?_⟩
  split
  · exact ((modMail_steady _ _ _).trans (modLu_steady _ _)).keepsTable
  · exact .refl s

theorem captureProcessStep_keepsTable (s : State) : ∃ t, exec .captureProcessStep s = .next t ∧ KeepsTable s t := by
  refine ⟨_, rfl, whileRunning_keepsTable s _ (.ite ?_ (.refl s))⟩
  split
  · exact processCapture_keepsTable _ _ _
  · exact .refl s

theorem autoFeedRequest_keepsTable (s : State) : ∃ t, exec .autoFeedRequest s = .next t ∧ KeepsTable s t := by
  refine ⟨_, rfl, whileRunning_keepsTable s _ ?_⟩
  split
  · exact .refl s
  · rename_i n rest _
    have dropped : KeepsTable s { s with autoRequests := rest } := .of_orders
    exact .ite (dropped.trans (startFeed_keepsTable _ _ _)) dropped

theorem dispenseSent_keepsTable (s : State) : ∃ t, exec .dispenseSent s = .next t ∧ KeepsTable s t := by
  refine ⟨_, rfl, whileRunning_keepsTable s _ ?_⟩
  split
  · rename_i rest _
    have sent := modFeeder_keepsTable s fun f => { f with tx := rest }
    exact .ite (sent.trans (modFeeder_keepsTable _ _)) sent
  · exact .refl s

theorem relayFrameSent_keepsTable (s : State) : ∃ t, exec .relayFrameSent s = .next t ∧ KeepsTable s t := by
  refine ⟨_, rfl, whileRunning_keepsTable s _ ?_⟩
  split
  · exact modFeeder_keepsTable _ _
  · exact .refl s

theorem relayHoldExpiry_keepsTable (s : State) : ∃ t, exec .relayHoldExpiry s = .next t ∧ KeepsTable s t := by
  refine ⟨_, rfl, whileRunning_keepsTable s _ ?_⟩
  split
  · exact .ite .of_orders (.refl s)
  · exact .refl s

theorem feederTimerExpiry_keepsTable (s : State) : ∃ t, exec .feederTimerExpiry s = .next t ∧ KeepsTable s t := by
  refine ⟨_, rfl, whileRunning_keepsTable s _ (.ite ?_ (.refl s))⟩
  split
  · exact feedUnanswered_keepsTable s
  · exact feedUnconfirmed_keepsTable s
  · exact .refl s

theorem drivePowerChange_keepsTable (s : State) (level : Bool) :
    ∃ t, exec (.drivePowerChange level) s = .next t ∧ KeepsTable s t :=
  ⟨_, rfl, whileRunning_keepsTable s _ (.ite (.refl s) (.of_orders (by simp)))⟩

theorem feederBytes_keepsTable (s : State) (bytes : List Byte) : KeepsTable s (bytes.foldl State.feederByte s) :=
  keepsTable_foldl State.feederByte feederByte_keepsTable bytes s

theorem powerLoss_keepsTable (s : State) (supply : Bool) :
    ∃ t, exec (.powerLoss supply) s = .next t ∧ KeepsTable s t :=
  ⟨_, rfl, .ite .of_orders (.ite .of_orders (.refl s))⟩

/-- Every command keeps the table in order. -/
theorem exec_keepsTable (i : Instr) (s : State) : ∃ t, exec i s = .next t ∧ KeepsTable s t := by
  cases requested : i.linkTag? with
  | some tag => exact ⟨_, exec_request s i tag requested, carryOut_keepsTable s i⟩
  | none =>
    cases i with
    | powerOn pins => exact ⟨_, rfl, (powerOn_keepsTable s pins).trans (finish_keepsTable _)⟩
    | powerLoss supply => exact powerLoss_keepsTable s supply
    | retentionSupplyLoss => exact ⟨_, rfl, .of_orders⟩
    | txFrameEnd => exact ⟨_, rfl, whileRunning_keepsTable s _ (modLink_keepsTable s _)⟩
    | clFrameRejected bytes => exact ⟨_, rfl, whileRunning_keepsTable s _ (linkBytes_keepsTable s bytes)⟩
    | clFrameGap bytes =>
      exact ⟨_, rfl, whileRunning_keepsTable s _ ((linkBytes_keepsTable s bytes).trans (modLink_keepsTable _ _))⟩
    | readyChange h level =>
      exact ⟨_, rfl, inputChange_keepsTable s h _ level _ fun s =>
        .ite (.ite (modDrive_steady _ _ _).keepsTable (loadReady_steady _ _).keepsTable) (.refl s)⟩
    | driveFaultChange h level =>
      exact ⟨_, rfl, inputChange_keepsTable s h _ level _ fun s =>
        (KeepsTable.ite (driveFaulted_keepsTable s h) (.refl s)).trans (report_steady _ _).keepsTable⟩
    | topChange h level =>
      exact ⟨_, rfl, inputChange_keepsTable s h _ level _ fun s => .ite (topPresent_keepsTable s h) (.refl s)⟩
    | alignedChange h level =>
      exact ⟨_, rfl, inputChange_keepsTable s h _ level _ fun s =>
        ((checkAligned_steady s h).trans (reportConds_steady _ h)).keepsTable⟩
    | areaClearChange h level =>
      exact ⟨_, rfl, inputChange_keepsTable s h _ level _ fun s => (reportConds_steady s h).keepsTable⟩
    | rehangInputChange h level =>
      exact ⟨_, rfl, inputChange_keepsTable s h _ level _ fun s => .ite (rehangDone_steady s h).keepsTable (.refl s)⟩
    | drivePowerChange level => exact drivePowerChange_keepsTable s level
    | stepPulse h => exact ⟨_, rfl, whileRunning_keepsTable s _ (pulse_steady s h).keepsTable⟩
    | readyTimeout h => exact ⟨_, rfl, whileRunning_keepsTable s _ (.ite (readyExpires_keepsTable s h) (.refl s))⟩
    | motionReached h => exact motionReached_keepsTable s h
    | motionFailed h => exact motionFailed_keepsTable s h
    | claimGrant h => exact claimGrant_keepsTable s h
    | alignTimeout h =>
      exact ⟨_, rfl, whileRunning_keepsTable s _ (.ite (closeUnlowered_steady s h _ _).keepsTable (.refl s))⟩
    | dwellTimerExpiry h => exact dwellTimerExpiry_keepsTable s h
    | drainTimerExpiry h => exact drainTimerExpiry_keepsTable s h
    | dwellOverrun h =>
      exact ⟨_, rfl, whileRunning_keepsTable s _ ((modCtx_steady _ _ _).trans (checkOverrun_steady _ h)).keepsTable⟩
    | samplePeriodEnd count => exact ⟨_, rfl, whileRunning_keepsTable s _ (periodEnd_keepsTable s count)⟩
    | weighTimerExpiry => exact weighTimerExpiry_keepsTable s
    | weighResult h => exact weighResult_keepsTable s h
    | captureArrival h => exact captureArrival_keepsTable s h
    | hoistViewReport h => exact hoistViewReport_keepsTable s h
    | captureProcessStep => exact captureProcessStep_keepsTable s
    | autoFeedRequest => exact autoFeedRequest_keepsTable s
    | dispenseSent => exact dispenseSent_keepsTable s
    | relayFrameSent => exact relayFrameSent_keepsTable s
    | feederFrameDiscarded bytes => exact ⟨_, rfl, whileRunning_keepsTable s _ (feederBytes_keepsTable s bytes)⟩
    | feederFrameGap bytes =>
      exact ⟨_, rfl, whileRunning_keepsTable s _ ((feederBytes_keepsTable s bytes).trans (modFeeder_keepsTable _ _))⟩
    | accept p | decline p | drop p | done p | feederOtherFrame k p =>
      exact ⟨_, rfl, whileRunning_keepsTable s _ (feederFrame_keepsTable s _ p)⟩
    | feederTimerExpiry => exact feederTimerExpiry_keepsTable s
    | settleTimerExpiry => exact ⟨_, rfl, whileRunning_keepsTable s _ (.ite (settleOver_keepsTable s) (.refl s))⟩
    | relayHoldExpiry => exact relayHoldExpiry_keepsTable s
    | alarmTimerExpiry kind =>
      exact ⟨_, rfl, whileRunning_keepsTable s _ (.ite (alarmExpires_keepsTable s _) (.refl s))⟩
    | beaconTimerExpiry => exact ⟨_, rfl, whileRunning_keepsTable s _ (.ite .of_orders (.refl s))⟩
    | claimWaitAlert h => exact ⟨_, rfl, whileRunning_keepsTable s _ (alertClaims_steady s _).keepsTable⟩
    | runtimeTick => exact ⟨_, rfl, whileRunning_keepsTable s _ .of_orders⟩
    | _ => cases requested

/-- Settles O58: the front command keeps the table, and so does a tenth of a second. -/
theorem orderTableStaysUnique : Obligations.OrderTableStaysUnique := by
  unfold Obligations.OrderTableStaysUnique
  intro s t stepped
  unfold step at stepped
  split at stepped
  · obtain rfl := Host.Outcome.next.inj stepped
    have ticked : KeepsTable s s.tick := .ite .of_orders (.refl s)
    exact ticked
  · rename_i c rest _
    obtain ⟨u, taken, kept⟩ := exec_keepsTable c { s with pending := rest }
    obtain rfl := Host.Outcome.next.inj (taken.symm.trans stepped)
    exact kept

end Sys2Proof.Machine
end

section
/-! Requests answered with the values as they stand, profiles, and the check of a post (R4, R17, R18, R20, R21, R24, R52,
R53, R75, R78, R86, R100, R117, R118, R123, R136, R137, R151, R171, R172, R183, R186, R197, R200, R201). -/

namespace Sys2Proof.Machine

set_option Elab.async false

/-! ### A request that changes nothing but the link -/

/-- The state a request's owner finds: as the part stands, the frame received whole. -/
def State.unbuilt (s : State) : State := s.modLink fun l => { l with rx := [] }

/-- A request answered from the state alone. -/
theorem request_read (s : State) (l : s.listening) (k : ReqKind) (tag : Nat) (f : State → Answer) (r : Result)
    (fields : List Field) (e : f s.unbuilt = ⟨s.unbuilt, r, fields⟩) :
    s.request k tag f = s.replied k tag r fields := by
  rw [← replied_rx]
  exact request_replied s k tag f l s.unbuilt r fields e l.1.2 rfl

theorem request_answered (s : State) (l : s.listening) (k : ReqKind) (tag : Nat) (f : State → Answer) (r : Result)
    (fields : List Field) (e : f s.unbuilt = ⟨s.unbuilt, r, fields⟩) :
    (.next (s.request k tag f) : Effect) = .next (s.replied k tag r fields) :=
  congrArg _ (request_read s l k tag f r fields e)

theorem faultSetup_read (s : State) (l : s.listening) (tag : Nat) (k : FaultKind) : exec (.faultSetup tag k.number .read) s =
    .next (s.replied .faultSetup tag .ok (faultSetFields s.kept.faults[k.ix])) := by
  refine request_answered s l .faultSetup tag _ _ _ ?_
  have named : k.number ≠ 0 := Nat.succ_ne_zero _
  simp only [if_neg named, faultKind?_number]
  rfl

/-- The waiting claims are shown as they are judged over the zones, not over the link. -/
theorem claimItems_unbuilt (s : State) (older cs : List Claim) : s.unbuilt.claimItems older cs = s.claimItems older cs := by
  induction cs generalizing older with
  | nil => rfl
  | cons c cs ih => unfold State.claimItems; rw [ih]; rfl

theorem zoneFields_unbuilt (s : State) : s.unbuilt.zoneFields = s.zoneFields :=
  congrArg (_ ++ kettleFields s.kept.kettle ++ [fN 1 s.waits.length] ++ ·) (claimItems_unbuilt s [] s.waits)

theorem zoneStatus_answered (s : State) (l : s.listening) (tag : Nat) :
    exec (.zoneStatus tag) s = .next (s.replied .zoneStatus tag .ok s.zoneFields) := by
  refine request_answered s l .zoneStatus tag _ _ _ ?_
  rw [zoneFields_unbuilt]; rfl

/-- Settles O9: each owner answers with the state it found. -/
theorem readsAnswered : Obligations.ReadsAnswered := by
  unfold Obligations.ReadsAnswered
  refine ⟨fun s tag l => ⟨?_, ?_, ?_, ?_, zoneStatus_answered s l tag, ?_, ?_⟩,
    fun s tag l => ⟨?_, ?_, ?_, ?_, ?_, ?_, ?_, faultSetup_read s l tag, ?_⟩⟩
  all_goals exact request_answered s l _ tag _ _ _ rfl

/-! ### Requests that name something (R17, R21, R53, R75, R137, R186) -/

/-- A hoist number outside 1 to 4 or above the installed count names no station. -/
theorem hoist?_eq_none (s : State) (n : Nat) : s.hoist? n = none ↔ n = 0 ∨ s.link.straps.hoists.val + 1 < n := by
  unfold State.hoist? hoistNumber? State.installed
  by_cases range : 1 ≤ n ∧ n ≤ 4
  · simp only [dif_pos range, decide_eq_true_eq, ite_eq_right_iff, reduceCtorEq, imp_false]
    omega
  · have few : s.link.straps.hoists.val < 4 := s.link.straps.hoists.isLt
    simp only [dif_neg range, true_iff]
    omega

theorem hoistStatus_answered (s : State) (l : s.listening) (tag n : Nat) : exec (.hoistStatus tag n) s = .next
    (match s.hoist? n with
      | some h => s.replied .hoistStatus tag .ok (s.hoistFields h)
      | none => s.replied .hoistStatus tag .notInstalled) := by
  cases e : s.hoist? n with
  | none =>
    refine request_answered s l .hoistStatus tag _ _ _ ?_
    have e' : s.unbuilt.hoist? n = none := e
    simp only [State.forHoist, e']; rfl
  | some h =>
    refine request_answered s l .hoistStatus tag _ _ _ ?_
    have e' : s.unbuilt.hoist? n = some h := e
    simp only [State.forHoist, e']; rfl

theorem orderQuery_answered (s : State) (l : s.listening) (tag n : Nat) : exec (.orderQuery tag n) s = .next
    (match s.orderByTag n with
      | some o => s.replied .orderQuery tag .ok (s.orderFields o)
      | none => s.replied .orderQuery tag .noSuchOrder) := by
  have found : s.unbuilt.orderByTag n = s.orderByTag n := rfl
  cases e : s.orderByTag n with
  | none => exact request_answered s l .orderQuery tag _ _ _ (by simp only [found, e]; rfl)
  | some o => exact request_answered s l .orderQuery tag _ _ _ (by simp only [found, e]; rfl)

theorem profileRead_answered (s : State) (l : s.listening) (tag i : Nat) : exec (.profileRead tag i) s = .next
    (match s.kept.profile? i with
      | some p => s.replied .profileRead tag .ok p.fields
      | none => s.replied .profileRead tag .badValue) := by
  have found : s.unbuilt.kept.profile? i = s.kept.profile? i := rfl
  cases e : s.kept.profile? i with
  | none => exact request_answered s l .profileRead tag _ _ _ (by simp only [found, e]; rfl)
  | some p => exact request_answered s l .profileRead tag _ _ _ (by simp only [found, e]; rfl)

theorem levelRead_answered (s : State) (l : s.listening) (tag n : Nat) : exec (.levelRead tag (some n)) s = .next
    (match hoistNumber? n with
      | some h => s.replied .levelRead tag .ok (s.levelFields (some h))
      | none => s.replied .levelRead tag .badValue) := by
  cases e : hoistNumber? n with
  | none => exact request_answered s l .levelRead tag _ _ _ (by simp only [e]; rfl)
  | some h => exact request_answered s l .levelRead tag _ _ _ (by simp only [e]; rfl)

theorem faultList_answered (s : State) (l : s.listening) (tag n : Nat) : exec (.faultList tag (some n)) s = .next
    (if 1 ≤ n ∧ n ≤ 14 then s.replied .faultList tag .ok (s.faultFields n)
     else s.replied .faultList tag .badValue) := by
  by_cases range : 1 ≤ n ∧ n ≤ 14
  · rw [if_pos range]
    exact request_answered s l .faultList tag _ _ _ (if_pos (decide_eq_true range))
  · rw [if_neg range]
    exact request_answered s l .faultList tag _ _ _ (if_neg (by simpa [within] using range))

/-- At most three entries, counted. -/
theorem bookRead_answered (s : State) (l : s.listening) (tag n : Nat) : exec (.bookRead tag n) s = .next
    (s.replied .bookRead tag .ok
      (fN 1 (min 3 (s.kept.readFrom n).length) :: ((s.kept.readFrom n).take 3).flatMap Entry.fields ++
       [fN 2 ((s.kept.readFrom n).length - min 3 (s.kept.readFrom n).length), fN 4 s.oldestSeq, fN 4 s.kept.nextSeq])) := by
  rw [← List.length_take]
  exact request_answered s l .bookRead tag _ _ _ rfl

/-- A request naming a hoist that is not installed (R24, R117). -/
theorem forHoist_notInstalled (s : State) (l : s.listening) (k : ReqKind) (tag n : Nat) (f : State → Hoist → Answer)
    (e : s.hoist? n = none) : (.next (s.request k tag fun s => s.forHoist n (f s)) : Effect) =
      .next (s.replied k tag .notInstalled) := by
  refine request_answered s l k tag _ _ _ ?_
  have e' : s.unbuilt.hoist? n = none := e
  simp only [State.forHoist, e']
  rfl

/-- Settles O10: the owner finds the thing named and answers with it, or refuses. -/
theorem namedReadsAnswered : Obligations.NamedReadsAnswered := by
  unfold Obligations.NamedReadsAnswered
  refine ⟨fun s tag l => ⟨orderQuery_answered s l tag, profileRead_answered s l tag, hoistStatus_answered s l tag,
    bookRead_answered s l tag, ?_, levelRead_answered s l tag, ?_, faultList_answered s l tag⟩, fun s tag n l out => ?_⟩
  · exact request_answered s l .levelRead tag _ _ _ rfl
  · exact request_answered s l .faultList tag _ _ _ rfl
  · have none_there := (hoist?_eq_none s n).2 out
    refine ⟨?_, ?_, ?_, ?_, ?_, ?_, ?_, ?_⟩
    all_goals exact forHoist_notInstalled s l _ tag n _ none_there

/-! ### PROFILE_WRITE (R20) -/

/-- The ranges of R19. -/
theorem ProfileFields.ok_iff (f : ProfileFields) : f.ok = true ↔
    (10 ≤ f.entrySpeed ∧ f.entrySpeed ≤ 300) ∧ (10 ≤ f.dwell ∧ f.dwell ≤ 36000) ∧
    (5 ≤ f.withdrawal ∧ f.withdrawal ≤ 100) ∧ f.drain ≤ 6000 ∧ f.shakes ≤ 15 ∧
    (20 ≤ f.amplitude ∧ f.amplitude ≤ 200) ∧ f.clean ≤ 1 := by
  simp [ProfileFields.ok, within, yesNo, and_assoc]

theorem profile?_setProfile_same (r : Retained) (i : Nat) (p : Profile) (range : i ≤ 15) :
    (r.setProfile i p).profile? i = some p := by
  have lt : i < 16 := by omega
  simp [Retained.setProfile, Retained.profile?, lt]

theorem profile?_setProfile_ne (r : Retained) (i j : Nat) (p : Profile) (ne : j ≠ i) :
    (r.setProfile i p).profile? j = r.profile? j := by
  unfold Retained.setProfile Retained.profile?
  split
  · split
    · simp only [Vector.getElem_set_ne _ _ ne.symm]
    · rfl
  · rfl

theorem setProfile_only (r : Retained) (i : Nat) (p : Profile) :
    r.setProfile i p = { r with profiles := (r.setProfile i p).profiles } := by
  unfold Retained.setProfile; split <;> rfl

/-- A reply joins the replies owed at the newest end, whatever the transmitter does (R194). -/
theorem withReply_owed (l : Link) (r : Reply) : (l.withReply r).owed = l.owed ++ [r] := by
  cases ht : l.tx with
  | some f => simp [Link.withReply, Link.owed, ht]
  | none => cases hr : l.replies <;> simp [Link.withReply, Link.owed, ht, hr]

theorem replied_owed (s : State) (k : ReqKind) (tag : Nat) (r : Result) (fields : List Field) :
    (s.replied k tag r fields).link.owed =
      s.link.owed ++ [{ kind := replyKind k.code, tag := tag, result := r, fields := fields }] :=
  withReply_owed _ _

theorem profileWrite_taken (s : State) (l : s.listening) (tag i : Nat) (f : ProfileFields) (inside : i ≤ 15 ∧ f.ok = true) :
    exec (.profileWrite tag i f) s =
      .next ((s.unbuilt.modKept fun r => r.setProfile i f.toProfile).replied .profileWrite tag .ok) :=
  congrArg Host.Outcome.next (request_replied s .profileWrite tag _ l _ .ok [] (if_pos inside) l.1.2 rfl)

/-- Settles O14: the profile is set in a table whose other profiles stay, or the write is refused. -/
theorem profileReplaced : Obligations.ProfileReplaced := by
  unfold Obligations.ProfileReplaced
  intro s tag i f l
  by_cases inside : i ≤ 15 ∧ f.ok = true
  · refine ⟨_, profileWrite_taken s l tag i f inside, ?_⟩
    rw [if_pos ⟨inside.1, (ProfileFields.ok_iff f).1 inside.2⟩]
    refine ⟨?_, replied_owed _ _ _ _ _, profile?_setProfile_same _ i _ inside.1, fun j ne => profile?_setProfile_ne _ i j _ ne⟩
    simp only [State.replied, State.modKept]
    rw [setProfile_only]
    rfl
  · refine ⟨_, request_answered s l .profileWrite tag _ .badValue [] (if_neg inside), ?_⟩
    rw [if_neg fun ranges => inside ⟨ranges.1, (ProfileFields.ok_iff f).2 ranges.2⟩]

/-! ### ORDER_POST's checks (R4) -/

/-- The checks of R4 in their order. -/
theorem postCheck_eq (s : State) (p : PostFields) : s.postCheck p =
    (if 24 ≤ s.orders.length then some Result.queueFull
     else if p.orderTag = 0 then some .badValue
     else if ∃ o ∈ s.orders, o.tag = p.orderTag then some .duplicateTag
     else if p.hoist = 0 ∨ s.link.straps.hoists.val + 1 < p.hoist then some .notInstalled
     else if p.passCount ≠ (if p.pass2.isSome then 2 else 1) then some .badValue
     else if ∃ x ∈ p.passes, x.first = 0 ∨ 12 < x.last ∨ x.last < x.first then some .badValue
     else if ∃ x ∈ p.passes, s.kept.profileOk x.profile = false then some .badValue
     else if ∃ x ∈ p.passes, s.kept.kettle.floor < x.target + x.drop ∨ x.target + x.drop ≤ s.kept.kettle.clearance
       then some .badValue
     else none) := by
  have tagged : ((s.orderByTag p.orderTag).isSome = true) = ∃ o ∈ s.orders, o.tag = p.orderTag := by
    simp [State.orderByTag]
  have named : ((s.hoist? p.hoist).isNone = true) = (p.hoist = 0 ∨ s.link.straps.hoists.val + 1 < p.hoist) := by
    rw [Option.isNone_iff_eq_none, hoist?_eq_none]
  have counted : p.passes.length = if p.pass2.isSome then 2 else 1 := by
    unfold PostFields.passes; cases p.pass2 <;> rfl
  have spans : (p.passes.any (fun x => !spanOk x.first x.last) = true) =
      ∃ x ∈ p.passes, x.first = 0 ∨ 12 < x.last ∨ x.last < x.first := by
    simp only [List.any_eq_true, spanOk, Bool.not_eq_true', decide_eq_false_iff_not, eq_iff_iff]
    exact exists_congr fun x => and_congr Iff.rfl (by omega)
  have profiles : (p.passes.any (fun x => !s.kept.profileOk x.profile) = true) =
      ∃ x ∈ p.passes, s.kept.profileOk x.profile = false := by
    simp only [List.any_eq_true, Bool.not_eq_true']
  have depths : (p.passes.any (fun x => !KettleSet.passOk s.kept.kettle x) = true) =
      ∃ x ∈ p.passes, s.kept.kettle.floor < x.target + x.drop ∨ x.target + x.drop ≤ s.kept.kettle.clearance := by
    simp only [List.any_eq_true, KettleSet.passOk, Bool.not_eq_true', decide_eq_false_iff_not, eq_iff_iff]
    exact exists_congr fun x => and_congr Iff.rfl (by omega)
  unfold State.postCheck
  simp only [tagged, named, counted, spans, profiles, depths, Config.orderSlots]

/-- Settles O18: the model judges the post by the chain of R4. -/
theorem postJudgedInOrder : Obligations.PostJudgedInOrder := by
  unfold Obligations.PostJudgedInOrder
  intro s tag p r l failed
  rw [← postCheck_eq] at failed
  have failed' : s.unbuilt.postCheck p = some r := failed
  exact request_answered s l .orderPost tag _ r [] (by simp only [failed']; rfl)

end Sys2Proof.Machine
end

section
/-! An accepted order, waiting or taken at once, and the cancel of one that waits (R4 to R11, R26, R89, R90). -/

namespace Sys2Proof.Machine

set_option Elab.async false

/-! ### A step that leaves one take attempt -/

theorem settleFor_of_empty (n : Nat) (s : State) (a : s.agenda = Agenda.empty) : settleFor n s = s := by
  cases n with
  | zero => rfl
  | succ n => exact if_pos a

/-- A single take attempt is carried out, then whatever it leaves. -/
theorem settle_take (s : State) (h : Hoist) (a : s.agenda = Agenda.empty) :
    (s.followUp (.take h)).settle = settleFor 199 (s.attemptTake h) := by
  have due : (s.followUp (.take h)).agenda = ⟨[], [.take h]⟩ := by simp [a, Agenda.empty]
  have todo : (s.followUp (.take h)).agenda ≠ Agenda.empty := by rw [due]; simp [Agenda.empty]
  have one : (s.followUp (.take h)).settleOne = s.attemptTake h := by
    unfold State.settleOne
    rw [due]
    exact congrArg (State.attemptTake · h) (congrArg (fun g => { s with agenda := g }) a.symm)
  calc (s.followUp (.take h)).settle = settleFor 199 (s.followUp (.take h)).settleOne := if_neg todo
    _ = settleFor 199 (s.attemptTake h) := by rw [one]

/-- A hoist that is not PARKED, or whose run enable is off, takes no order (R8). -/
theorem attemptTake_busy (s : State) (h : Hoist) (busy : s.ctxs[h].state ≠ .parked ∨ s.ctxs[h].runEnable = false) :
    s.attemptTake h = s := by
  have refused (passes : Nat) : (s.takeTerms h passes).all id = false := by
    rcases busy with away | off
    · simp only [State.takeTerms, List.all_cons, beq_false_of_ne away, id, Bool.false_and]
    · simp only [State.takeTerms, List.all_cons, off, id, Bool.false_and, Bool.and_false]
  unfold State.attemptTake
  cases s.offered h with
  | none => rfl
  | some o => simp only [refused, Bool.and_false, Bool.false_and, Bool.false_eq_true, if_false]

/-! ### ORDER_POST accepted (R5) -/

/-- The order an accepted post enters (R5). -/
def State.newOrder (s : State) (p : PostFields) (h : Hoist) : Order :=
  { slot := s.freeSlot, tag := p.orderTag, hoist := h, mass := p.mass, pass1 := p.pass1, pass2 := p.pass2,
    state := .queued, pass := none, closePending := false, posted := s.kept.runtime }

/-- The state an accepted post leaves before its take attempt: the order at the newest end, the reply owed. -/
def State.posted (s : State) (tag : Nat) (p : PostFields) (h : Hoist) : State :=
  State.addReply { s.unbuilt with orders := s.orders ++ [s.newOrder p h] } ReqKind.orderPost.code tag .ok
    [fN 1 (s.orders.length + 1)]

/-- An accepted post comes to one take attempt for its hoist. -/
theorem orderPost_accepted (s : State) (tag : Nat) (p : PostFields) (h : Hoist) (l : s.listening)
    (passed : s.postCheck p = none) (named : s.hoist? p.hoist = some h) :
    exec (.orderPost tag p) s = .next (settleFor 199 ((s.posted tag p h).attemptTake h)).transmit := by
  have passed' : s.unbuilt.postCheck p = none := passed
  have named' : s.unbuilt.hoist? p.hoist = some h := named
  have counted : (s.unbuilt.addOrder p h).orders.length = s.orders.length + 1 := by
    simp [State.addOrder, State.unbuilt]
  have answered : (match s.unbuilt.postCheck p with
      | some r => s.unbuilt.refuse r
      | none => s.unbuilt.forHoist p.hoist fun h =>
        (s.unbuilt.addOrder p h).okay [fN 1 (s.unbuilt.addOrder p h).orders.length]) =
      ⟨s.unbuilt.addOrder p h, .ok, [fN 1 (s.orders.length + 1)]⟩ := by
    simp only [passed', State.forHoist, named', counted]; rfl
  refine congrArg Host.Outcome.next ((request_of_listening s .orderPost tag _ l).trans ?_)
  refine congrArg State.transmit (Eq.trans ?_ (settle_take (s.posted tag p h) h l.1.2))
  exact congrArg (fun a : Answer => (a.state.addReply ReqKind.orderPost.code tag a.result a.fields).settle) answered

theorem orderPost_waits (s : State) (tag : Nat) (p : PostFields) (h : Hoist) (l : s.listening)
    (passed : s.postCheck p = none) (named : s.hoist? p.hoist = some h)
    (busy : s.ctxs[h].state ≠ .parked ∨ s.ctxs[h].runEnable = false) :
    exec (.orderPost tag p) s =
      .next ({ s with orders := s.orders ++ [s.newOrder p h] }.replied .orderPost tag .ok [fN 1 (s.orders.length + 1)]) := by
  have empty : (s.posted tag p h).agenda = Agenda.empty := l.1.2
  rw [orderPost_accepted s tag p h l passed named, attemptTake_busy (s.posted tag p h) h busy,
    settleFor_of_empty _ _ empty, ← replied_rx]
  exact congrArg _ (addReply_transmit { s.unbuilt with orders := s.orders ++ [s.newOrder p h] } .orderPost tag .ok _ rfl)

/-! ### ORDER_CANCEL (R11) -/

/-- What ORDER_CANCEL answers over the order its tag names. -/
def State.cancelAnswer (s : State) : Option Order → Answer
  | none => s.refuse .noSuchOrder
  | some o =>
    if o.closePending then s.refuse .tooLate
    else if o.state = .queued then (s.removeOrder o).okay [fN 1 o.state.code, fN 1 s.ctxs[o.hoist].state.code]
    else match s.cancelTaken o with
      | some s' => s'.okay [fN 1 o.state.code, fN 1 s.ctxs[o.hoist].state.code]
      | none => s.refuse .tooLate

theorem exec_orderCancel (s : State) (tag n : Nat) : exec (.orderCancel tag n) s =
    .next (s.request .orderCancel tag fun s => s.cancelAnswer (s.orderByTag n)) := by
  refine congrArg (fun f => Host.Outcome.next (s.request .orderCancel tag f)) (funext fun u => ?_)
  cases u.orderByTag n <;> rfl

theorem cancelAnswer_closing (s : State) (o : Order) (closing : o.closePending = true) :
    s.cancelAnswer (some o) = s.refuse .tooLate :=
  if_pos closing

theorem cancelAnswer_queued (s : State) (o : Order) (pending : o.closePending = false) (queued : o.state = .queued) :
    s.cancelAnswer (some o) = (s.removeOrder o).okay [fN 1 0, fN 1 s.ctxs[o.hoist].state.code] := by
  simp only [State.cancelAnswer, pending, queued, Bool.false_eq_true, if_false, if_true]
  rfl

/-- A cancel that comes too late for the state of the dip context (R15). -/
theorem cancelAnswer_late (s : State) (o : Order) (taken : o.state ≠ .queued) (late : s.cancelTaken o = none) :
    s.cancelAnswer (some o) = s.refuse .tooLate := by
  simp only [State.cancelAnswer, taken, late, if_false]
  exact ite_self _

theorem cancelAnswer_taken (s t : State) (o : Order) (pending : o.closePending = false) (taken : o.state ≠ .queued)
    (done : s.cancelTaken o = some t) :
    s.cancelAnswer (some o) = t.okay [fN 1 o.state.code, fN 1 s.ctxs[o.hoist].state.code] := by
  simp only [State.cancelAnswer, pending, taken, done, Bool.false_eq_true, if_false]

/-- A cancel refused, over the order its tag names or none. -/
theorem orderCancel_refused (s : State) (tag n : Nat) (l : s.listening) (r : Result)
    (refused : s.unbuilt.cancelAnswer (s.orderByTag n) = s.unbuilt.refuse r) :
    exec (.orderCancel tag n) s = .next (s.replied .orderCancel tag r) :=
  (exec_orderCancel s tag n).trans (request_answered s l .orderCancel tag _ r [] refused)

theorem orderCancel_queued (s : State) (tag n : Nat) (o : Order) (l : s.listening) (known : s.orderByTag n = some o)
    (pending : o.closePending = false) (queued : o.state = .queued) : exec (.orderCancel tag n) s =
      .next ({ s with orders := s.orders.filter fun x => x.slot != o.slot }.replied .orderCancel tag .ok
        [fN 1 0, fN 1 s.ctxs[o.hoist].state.code]) := by
  have answer : s.unbuilt.cancelAnswer (s.orderByTag n) =
      (s.unbuilt.removeOrder o).okay [fN 1 0, fN 1 s.ctxs[o.hoist].state.code] := by
    rw [known]
    exact cancelAnswer_queued s.unbuilt o pending queued
  rw [exec_orderCancel, request_replied s .orderCancel tag _ l (s.unbuilt.removeOrder o) .ok
    [fN 1 0, fN 1 s.ctxs[o.hoist].state.code] answer l.1.2 rfl]
  exact congrArg Host.Outcome.next (replied_rx { s with orders := s.orders.filter fun x => x.slot != o.slot } .orderCancel tag .ok _)

/-- Settles O19: the take attempt finds the hoist busy, and a cancel takes a waiting order out of the table. -/
theorem queuedOrdersPostedAndCancelled : Obligations.QueuedOrdersPostedAndCancelled := by
  unfold Obligations.QueuedOrdersPostedAndCancelled
  refine ⟨fun s tag p h l passed named busy => ⟨_, rfl, orderPost_waits s tag p h l passed named busy⟩,
    fun s tag n l => ⟨fun unknown => ?_, fun o known => ⟨fun closing => ?_, orderCancel_queued s tag n o l known⟩⟩⟩
  · exact orderCancel_refused s tag n l .noSuchOrder (by rw [unknown]; rfl)
  · exact orderCancel_refused s tag n l .tooLate (by rw [known]; exact cancelAnswer_closing s.unbuilt o closing)

end Sys2Proof.Machine
end

section
/-! An accepted order whose hoist's take condition holds is taken in the same step (R5, R8, R10, R26, R89, R90). -/

namespace Sys2Proof.Machine

set_option Elab.async false

theorem hoist_set_ne {α : Type} (v : Vector α 4) (h i : Hoist) (x : α) (ne : i ≠ h) : (v.set h x)[i] = v[i] :=
  Vector.getElem_set_ne h.isLt i.isLt fun e => ne (Fin.ext e.symm)

theorem hoist?_installed (s : State) (n : Nat) (h : Hoist) (named : s.hoist? n = some h) : s.installed h = true := by
  unfold State.hoist? at named
  split at named
  · split at named
    · cases named; assumption
    · cases named
  · cases named

/-- An order posted where none waits is the one offered. -/
theorem posted_offered (s : State) (tag : Nat) (p : PostFields) (h : Hoist) (q : s.noneQueued) :
    (s.posted tag p h).offered h = some (s.newOrder p h) := by
  have none_before : s.orders.find? (fun o => o.state == .queued && o.hoist == h) = none := offered_of_noneQueued s h q
  have orders : (s.posted tag p h).orders = s.orders ++ [s.newOrder p h] := rfl
  rw [State.offered, orders, List.find?_append, none_before]
  simp [State.newOrder]

theorem newOrder_passCount (s : State) (p : PostFields) (h : Hoist) : (s.newOrder p h).passCount = p.passes.length := by
  unfold Order.passCount PostFields.passes State.newOrder
  cases p.pass2 <;> rfl

/-- The terms of R8, with the reservations of R64, under which an offered order is taken. -/
theorem attemptTake_taken (s : State) (h : Hoist) (o : Order) (offered : s.offered h = some o)
    (installed : s.installed h = true) (parked : s.ctxs[h].state = .parked) (run : s.ctxs[h].runEnable = true)
    (known : s.drives[h].known = true) (free : s.inhibit = false) (unbenched : s.bench = false)
    (room : s.canReserve o.passCount = true) :
    s.attemptTake h = (s.grantReserve o.passCount).stage h o .one o.passCount := by
  have reserves := room
  simp only [State.canReserve, Bool.and_eq_true] at reserves
  obtain ⟨⟨book_open, _⟩, fits⟩ := reserves
  have terms : (s.takeTerms h o.passCount).all id = true := by
    simp only [State.takeTerms, parked, run, known, book_open, free, unbenched, fits, List.all_cons, List.all_nil]
    rfl
  unfold State.attemptTake
  simp only [offered, installed, terms, room, Bool.and_self, if_true]

/-- What a take leaves: the reservations, the order ACTIVE in pass 1, its dip context STAGED, its claim (R10, R26). -/
theorem grantedStage_only (s : State) (h : Hoist) (o : Order) (n : Nat) : ∃ drives mail holders waits full m,
    (s.grantReserve n).stage h o .one n =
      { s with ctxs := s.ctxs.set h { s.ctxs[h].beginPass ⟨o.slot, o.tag⟩ .one n with claim := some s.nextSerial },
               orders := s.orders.map fun x =>
                 if x.slot = o.slot then { x with state := .active, pass := some .one } else x,
               reserved := s.reserved + n, nearlyFull := full, drives := drives, mail := mail, holders := holders,
               waits := waits, nextSerial := s.nextSerial + 1, link := { s.link with marks := m },
               agenda := ⟨s.agenda.reports ++ absentConds h, s.agenda.follow⟩ } ∧
    ClaimArrives s ((s.grantReserve n).stage h o .one n) (s.claimOf h o .one) ∧
    (∀ i : Hoist, i ≠ h → drives[i] = s.drives[i] ∧ mail[i] = s.mail[i]) ∧ (s.bench = false → drives[h].permit = false) := by
  obtain ⟨full, m, reserved⟩ := grantReserve_only s n
  obtain ⟨drives, mail, holders, waits, m', staged, arrives, others, permit⟩ := stage_only (s.grantReserve n) h o .one n
  generalize (s.grantReserve n).stage h o .one n = u at staged arrives
  rw [reserved] at staged arrives others permit
  exact ⟨drives, mail, holders, waits, full, m', staged, arrives, others, permit⟩

/-- The order with the pass that was begun for it (R6). -/
theorem map_newOrder (s : State) (p : PostFields) (h : Hoist) (room : s.orders.length < 24) :
    (s.orders ++ [s.newOrder p h]).map
        (fun x => if x.slot = s.freeSlot then { x with state := .active, pass := some .one } else x) =
      s.orders ++ [{ s.newOrder p h with state := .active, pass := some .one }] := by
  have others : s.orders.map (fun x => if x.slot = s.freeSlot then { x with state := .active, pass := some .one } else x) =
      s.orders :=
    (List.map_congr_left fun o ho => if_neg (freeSlot_fresh s room o ho)).trans (List.map_id' s.orders)
  rw [List.map_append, others]
  simp [State.newOrder]

/-- Settles O20: the attempt of the step takes the posted order, and the reports it leaves find no condition. -/
theorem postedOrderTaken : Obligations.PostedOrderTaken := by
  unfold Obligations.PostedOrderTaken
  intro s tag p h l passed named q parked run known free unbenched room
  have counted := newOrder_passCount s p h
  have taken := attemptTake_taken (s.posted tag p h) h (s.newOrder p h) (posted_offered s tag p h q)
    (hoist?_installed s p.hoist h named) parked run known free unbenched (counted.symm ▸ room)
  rw [counted] at taken
  obtain ⟨drives, mail, holders, waits, full, m, staged, arrives, others, permit⟩ :=
    grantedStage_only (s.posted tag p h) h (s.newOrder p h) p.passes.length
  rw [← taken] at staged arrives
  generalize hu : (s.posted tag p h).attemptTake h = u at staged arrives
  have agenda : u.agenda = ⟨absentConds h, []⟩ := by
    have idle : (s.posted tag p h).agenda = Agenda.empty := l.1.2
    rw [staged, idle]; rfl
  have orders : u.orders = s.orders ++ [{ s.newOrder p h with state := .active, pass := some .one }] := by
    rw [staged]; exact map_newOrder s p h (postCheck_none s p passed).1
  have quiet := settleFor_quiet 199 u (absentConds h) [] agenda rfl (by simp) (Nat.le_of_ble_eq_true rfl)
  obtain ⟨m', tx, replies, sent, owed⟩ := transmit_only (settleFor 199 u)
  refine ⟨_, orderPost_accepted s tag p h l passed named, ?_⟩
  rw [hu, sent]
  generalize settleFor 199 u = v at quiet owed
  subst v
  have own : u.ctxs[h] = { s.ctxs[h].beginPass ⟨s.freeSlot, p.orderTag⟩ .one p.passes.length with
      claim := some s.nextSerial } := by
    rw [staged]; exact Vector.getElem_set_self _
  refine ⟨?_, ?_, ?_, orders, ?_, ?_, ?_, ?_, ?_, ?_, ?_, fun i ne => ⟨?_, ?_, ?_⟩⟩
  · calc _ = u.link.owed := owed
      _ = (s.posted tag p h).link.owed := by rw [staged]; rfl
      _ = _ := addReply_owed _ _ _ _ _
  · rw [staged, ← l.1.2]; rfl
  · exact congrArg State.reserved staged
  · exact congrArg DipCtx.state own
  · exact congrArg DipCtx.order own
  · exact congrArg DipCtx.pass own
  · exact congrArg DipCtx.resv own
  · rw [staged]; exact permit unbenched
  · exact congrArg DipCtx.claim own
  · exact arrives
  · rw [staged]; exact hoist_set_ne _ h i _ ne
  · rw [staged]; exact (others i ne).1
  · rw [staged]; exact (others i ne).2

end Sys2Proof.Machine
end

section
/-! The part works off its agenda without a look at the replies that wait: each operation it can reach commutes with a
change of the reply queue. So what a request does to the rest of the part does not depend on what it is answered (R13,
R194; log entry 13). -/

namespace Sys2Proof.Machine

set_option Elab.async false

/-- The state with other replies waiting. -/
def State.withReplies (s : State) (rs : List Reply) : State := s.modLink fun l => { l with replies := rs }

/-- A reply that joins the queue, as a change of the queue. -/
theorem addReply_withReplies (s : State) (code tag : Nat) (r : Result) (fields : List Field) :
    s.addReply code tag r fields =
      s.withReplies (s.link.replies ++ [{ kind := replyKind code, tag := tag, result := r, fields := fields }]) := rfl

section
variable (s : State) (rs : List Reply)

/-! ### What is read of a state -/

@[simp] theorem withReplies_kept : (s.withReplies rs).kept = s.kept := rfl
@[simp] theorem withReplies_inputs : (s.withReplies rs).inputs = s.inputs := rfl
@[simp] theorem withReplies_orders : (s.withReplies rs).orders = s.orders := rfl
@[simp] theorem withReplies_ctxs : (s.withReplies rs).ctxs = s.ctxs := rfl
@[simp] theorem withReplies_drives : (s.withReplies rs).drives = s.drives := rfl
@[simp] theorem withReplies_bench : (s.withReplies rs).bench = s.bench := rfl
@[simp] theorem withReplies_waits : (s.withReplies rs).waits = s.waits := rfl
@[simp] theorem withReplies_wu : (s.withReplies rs).wu = s.wu := rfl
@[simp] theorem withReplies_nearlyFull : (s.withReplies rs).nearlyFull = s.nearlyFull := rfl
@[simp] theorem withReplies_reserved : (s.withReplies rs).reserved = s.reserved := rfl
@[simp] theorem withReplies_nextSerial : (s.withReplies rs).nextSerial = s.nextSerial := rfl
@[simp] theorem withReplies_entries : (s.withReplies rs).entries = s.entries := rfl
@[simp] theorem withReplies_mail : (s.withReplies rs).mail = s.mail := rfl
@[simp] theorem withReplies_agenda : (s.withReplies rs).agenda = s.agenda := rfl
@[simp] theorem withReplies_used : (s.withReplies rs).used = s.used := rfl
@[simp] theorem withReplies_orderOf (h : Hoist) : (s.withReplies rs).orderOf h = s.orderOf h := rfl
@[simp] theorem withReplies_closePending (h : Hoist) : (s.withReplies rs).closePending h = s.closePending h := rfl
@[simp] theorem withReplies_offered (h : Hoist) : (s.withReplies rs).offered h = s.offered h := rfl
@[simp] theorem withReplies_installed : (s.withReplies rs).installed = s.installed := rfl
@[simp] theorem withReplies_installedHoists : (s.withReplies rs).installedHoists = s.installedHoists := rfl
@[simp] theorem withReplies_inhibit : (s.withReplies rs).inhibit = s.inhibit := rfl
@[simp] theorem withReplies_canReserve (n : Nat) : (s.withReplies rs).canReserve n = s.canReserve n := rfl
@[simp] theorem withReplies_takeTerms (h : Hoist) (n : Nat) : (s.withReplies rs).takeTerms h n = s.takeTerms h n := rfl
@[simp] theorem withReplies_holds (h : Hoist) : (s.withReplies rs).holds h = s.holds h := rfl
@[simp] theorem withReplies_grantable (c : Claim) : (s.withReplies rs).grantable c = s.grantable c := rfl
@[simp] theorem withReplies_reactionOf (k : FaultKind) : (s.withReplies rs).reactionOf k = s.reactionOf k := rfl
@[simp] theorem withReplies_gained (k : FaultKind) (h : Option Hoist) : (s.withReplies rs).gained k h = s.gained k h := rfl
@[simp] theorem withReplies_involvedAtLatch (k : FaultKind) (h : Option Hoist) :
    (s.withReplies rs).involvedAtLatch k h = s.involvedAtLatch k h := rfl

/-! ### Changes of one component -/

@[simp] theorem modKept_withReplies (f : Retained → Retained) :
    (s.withReplies rs).modKept f = (s.modKept f).withReplies rs := rfl
@[simp] theorem modCtx_withReplies (h : Hoist) (f : DipCtx → DipCtx) :
    (s.withReplies rs).modCtx h f = (s.modCtx h f).withReplies rs := rfl
@[simp] theorem modDrive_withReplies (h : Hoist) (f : DriveIf → DriveIf) :
    (s.withReplies rs).modDrive h f = (s.modDrive h f).withReplies rs := rfl
@[simp] theorem modMail_withReplies (h : Hoist) (f : Mail → Mail) :
    (s.withReplies rs).modMail h f = (s.modMail h f).withReplies rs := rfl
@[simp] theorem modWu_withReplies (f : WeighUnit → WeighUnit) :
    (s.withReplies rs).modWu f = (s.modWu f).withReplies rs := rfl
@[simp] theorem modEntry_withReplies (k : FaultKind) (f : FaultEntry → FaultEntry) :
    (s.withReplies rs).modEntry k f = (s.modEntry k f).withReplies rs := rfl
@[simp] theorem report_withReplies (r : FaultReport) :
    (s.withReplies rs).report r = (s.report r).withReplies rs := rfl
@[simp] theorem raise_withReplies (k : FaultKind) (h : Hoist) :
    (s.withReplies rs).raise k h = (s.raise k h).withReplies rs := rfl
@[simp] theorem followUp_withReplies (f : Follow) :
    (s.withReplies rs).followUp f = (s.followUp f).withReplies rs := rfl
@[simp] theorem reportConds_withReplies (h : Hoist) :
    (s.withReplies rs).reportConds h = (s.reportConds h).withReplies rs := rfl

/-- Two branches that commute. -/
@[simp] theorem ite_withReplies (c : Prop) [Decidable c] (a b : State) :
    (if c then a.withReplies rs else b.withReplies rs) = (if c then a else b).withReplies rs :=
  (apply_ite (State.withReplies · rs) c a b).symm

theorem foldl_withReplies {α : Type} (f : State → α → State)
    (commutes : ∀ (s : State) (x : α), f (s.withReplies rs) x = (f s x).withReplies rs) (l : List α) (s : State) :
    l.foldl f (s.withReplies rs) = (l.foldl f s).withReplies rs := by
  induction l generalizing s with
  | nil => rfl
  | cons x xs ih => rw [List.foldl_cons, commutes, ih, List.foldl_cons]

/-! ### Marks, the book, orders -/

@[simp] theorem mark_withReplies (c : NoticeClass) : (s.withReplies rs).mark c = (s.mark c).withReplies rs := by
  unfold State.mark
  rw [withReplies_kept]
  split <;> rfl

@[simp] theorem markIf_withReplies (b : Bool) (c : NoticeClass) :
    (s.withReplies rs).markIf b c = (s.markIf b c).withReplies rs := by
  simp [State.markIf]

@[simp] theorem takeAll_withReplies : (s.withReplies rs).takeAll = s.takeAll.withReplies rs := by
  simp only [takeAll_eq]; rfl

@[simp] theorem judgeNearly_withReplies : (s.withReplies rs).judgeNearly = s.judgeNearly.withReplies rs := by
  calc (s.withReplies rs).judgeNearly
    _ = if Config.nearlyFull ≤ s.used + s.reserved then
          if s.nearlyFull then s.withReplies rs else (State.withReplies { s with nearlyFull := true } rs).mark .book
        else State.withReplies { s with nearlyFull := false } rs := rfl
    _ = s.judgeNearly.withReplies rs := by
      simp only [mark_withReplies, ite_withReplies]; rfl

@[simp] theorem grantReserve_withReplies (n : Nat) :
    (s.withReplies rs).grantReserve n = (s.grantReserve n).withReplies rs :=
  judgeNearly_withReplies { s with reserved := s.reserved + n } rs

@[simp] theorem returnReserve_withReplies (n : Nat) :
    (s.withReplies rs).returnReserve n = (s.returnReserve n).withReplies rs := by
  unfold State.returnReserve
  split
  · rfl
  · have judged := judgeNearly_withReplies { s with reserved := s.reserved - n } rs
    exact (congrArg State.takeAll judged).trans (takeAll_withReplies _ rs)

@[simp] theorem returnHeld_withReplies (h : Hoist) :
    (s.withReplies rs).returnHeld h = (s.returnHeld h).withReplies rs := by
  simp [State.returnHeld]

@[simp] theorem modOrder_withReplies (h : Hoist) (f : Order → Order) :
    (s.withReplies rs).modOrder h f = (s.modOrder h f).withReplies rs := by
  unfold State.modOrder
  rw [withReplies_ctxs]
  split <;> rfl

@[simp] theorem setCtx_withReplies (h : Hoist) (c : DipCtx) :
    (s.withReplies rs).setCtx h c = (s.setCtx h c).withReplies rs := by
  simp [State.setCtx]

@[simp] theorem putCtx_withReplies (h : Hoist) (c : DipCtx) :
    (s.withReplies rs).putCtx h c = (s.putCtx h c).withReplies rs := by
  simp [State.putCtx]

@[simp] theorem closeOrder_withReplies (h : Hoist) (how : Closing) (why : Option CloseReason) :
    (s.withReplies rs).closeOrder h how why = (s.closeOrder h how why).withReplies rs := by
  unfold State.closeOrder
  rw [withReplies_ctxs]
  dsimp only
  split
  · rfl
  · rename_i r _
    have put := putCtx_withReplies { s with orders := s.orders.filter fun o => o.slot != r.slot } rs h
      { DipCtx.parked with runEnable := s.ctxs[h].runEnable, last := some ⟨r.tag, how, why⟩ }
    exact (congrArg (fun s => (s.mark .hoist).followUp (.take h)) put).trans
      (congrArg (State.followUp · (.take h)) (mark_withReplies _ rs .hoist))

/-! ### Drives -/

@[simp] theorem haltMotion_withReplies (h : Hoist) :
    (s.withReplies rs).haltMotion h = (s.haltMotion h).withReplies rs := rfl
@[simp] theorem stopMotion_withReplies (h : Hoist) :
    (s.withReplies rs).stopMotion h = (s.stopMotion h).withReplies rs := rfl
@[simp] theorem motionReport_withReplies (h : Hoist) (m : Moved) (cause : Option FailCause) :
    (s.withReplies rs).motionReport h m cause = (s.motionReport h m cause).withReplies rs := rfl
@[simp] theorem motionDone_withReplies (h : Hoist) (m : Moved) :
    (s.withReplies rs).motionDone h m = (s.motionDone h m).withReplies rs := rfl
@[simp] theorem startFails_withReplies (h : Hoist) (m : Moved) (cause : FailCause) (k : FaultKind) :
    (s.withReplies rs).startFails h m cause k = (s.startFails h m cause k).withReplies rs := rfl
@[simp] theorem topError_withReplies (h : Hoist) (m : Moved) :
    (s.withReplies rs).topError h m = (s.topError h m).withReplies rs := rfl
@[simp] theorem loadReady_withReplies (h : Hoist) :
    (s.withReplies rs).loadReady h = (s.loadReady h).withReplies rs := rfl

@[simp] theorem cancelMotion_withReplies (h : Hoist) :
    (s.withReplies rs).cancelMotion h = (s.cancelMotion h).withReplies rs := by
  refine Eq.trans ?_ (ite_withReplies rs _ _ _)
  rfl

@[simp] theorem dropMotion_withReplies (h : Hoist) :
    (s.withReplies rs).dropMotion h = (s.dropMotion h).withReplies rs := by
  refine Eq.trans ?_ (ite_withReplies rs _ _ _)
  rfl

@[simp] theorem startDown_withReplies (h : Hoist) (rate left amplitude : Nat) :
    (s.withReplies rs).startDown h rate left amplitude = (s.startDown h rate left amplitude).withReplies rs := by
  refine Eq.trans ?_ (ite_withReplies rs _ _ _)
  rfl

@[simp] theorem endUp_withReplies (h : Hoist) (rate left amplitude : Nat) :
    (s.withReplies rs).endUp h rate left amplitude = (s.endUp h rate left amplitude).withReplies rs := by
  simp [State.endUp]

@[simp] theorem topRule_withReplies (h : Hoist) : (s.withReplies rs).topRule h = (s.topRule h).withReplies rs := by
  unfold State.topRule
  rw [withReplies_drives]
  dsimp only
  split
  · rfl
  · rfl
  · simp
  · simp

@[simp] theorem startMeets_withReplies (h : Hoist) :
    (s.withReplies rs).startMeets h = (s.startMeets h).withReplies rs := by
  simp [State.startMeets]

@[simp] theorem runMotion_withReplies (h : Hoist) (cmd : MotionCmd) :
    (s.withReplies rs).runMotion h cmd = (s.runMotion h cmd).withReplies rs := by
  simp [State.runMotion]

@[simp] theorem startMotion_withReplies (h : Hoist) (cmd : MotionCmd) :
    (s.withReplies rs).startMotion h cmd = (s.startMotion h cmd).withReplies rs := by
  simp [State.startMotion]

/-! ### Weigh requests and claims -/

@[simp] theorem dropWeigh_withReplies (h : Hoist) :
    (s.withReplies rs).dropWeigh h = (s.dropWeigh h).withReplies rs := rfl

@[simp] theorem placeWeigh_withReplies (h : Hoist) :
    (s.withReplies rs).placeWeigh h = (s.placeWeigh h).withReplies rs := by
  unfold State.placeWeigh
  rw [withReplies_wu, withReplies_ctxs]
  split
  · rfl
  · split <;> rfl

@[simp] theorem grantClaim_withReplies (c : Claim) :
    (s.withReplies rs).grantClaim c = (s.grantClaim c).withReplies rs := rfl

@[simp] theorem walkWaits_withReplies (cs older : List Claim) (s : State) :
    walkWaits older cs (s.withReplies rs) = (walkWaits older cs s).withReplies rs := by
  induction cs generalizing older s with
  | nil => rfl
  | cons c cs ih =>
    simp only [walkWaits, withReplies_grantable, grantClaim_withReplies, ih, ite_withReplies]

@[simp] theorem examine_withReplies : (s.withReplies rs).examine = s.examine.withReplies rs :=
  walkWaits_withReplies rs s.waits [] s

@[simp] theorem release_withReplies (h : Hoist) : (s.withReplies rs).release h = (s.release h).withReplies rs :=
  examine_withReplies { s with holders := s.holders.map fun x => if x = some h then none else x } rs

@[simp] theorem withdrawClaim_withReplies (h : Hoist) :
    (s.withReplies rs).withdrawClaim h = (s.withdrawClaim h).withReplies rs := by
  calc (s.withReplies rs).withdrawClaim h
    _ = if s.waits.any fun c => c.hoist == h then
          (State.withReplies { s with waits := s.waits.filter fun c => c.hoist != h } rs).examine
        else if s.holds h then (s.withReplies rs).release h else s.withReplies rs := rfl
    _ = (s.withdrawClaim h).withReplies rs := by
      simp only [examine_withReplies, release_withReplies, ite_withReplies]; rfl

@[simp] theorem claimArrival_withReplies (h : Hoist) (tag : Nat) (pass : Pass) (p : PassRec) :
    (s.withReplies rs).claimArrival h tag pass p = (s.claimArrival h tag pass p).withReplies rs := by
  refine Eq.trans ?_ (ite_withReplies rs _ _ _)
  rfl

/-! ### Dip contexts -/

@[simp] theorem closeUnlowered_withReplies (h : Hoist) (how : Closing) (why : CloseReason) :
    (s.withReplies rs).closeUnlowered h how why = (s.closeUnlowered h how why).withReplies rs := by
  simp [State.closeUnlowered]

@[simp] theorem closeRehang_withReplies (h : Hoist) (why : CloseReason) :
    (s.withReplies rs).closeRehang h why = (s.closeRehang h why).withReplies rs := by
  simp [State.closeRehang]

@[simp] theorem stage_withReplies (h : Hoist) (o : Order) (p : Pass) (n : Nat) :
    (s.withReplies rs).stage h o p n = (s.stage h o p n).withReplies rs := by
  simp [State.stage]

@[simp] theorem attemptTake_withReplies (h : Hoist) :
    (s.withReplies rs).attemptTake h = (s.attemptTake h).withReplies rs := by
  unfold State.attemptTake
  rw [withReplies_offered]
  split
  · simp
  · rfl

@[simp] theorem rehangGo_withReplies (h : Hoist) :
    (s.withReplies rs).rehangGo h = (s.rehangGo h).withReplies rs := by
  unfold State.rehangGo
  rw [withReplies_orderOf]
  split
  · simp
  · rfl

@[simp] theorem liftOut_withReplies (h : Hoist) (rate : Nat) :
    (s.withReplies rs).liftOut h rate = (s.liftOut h rate).withReplies rs := by
  simp [State.liftOut]

@[simp] theorem toAbortLift_withReplies (h : Hoist) :
    (s.withReplies rs).toAbortLift h = (s.toAbortLift h).withReplies rs := by
  simp [State.toAbortLift]

@[simp] theorem drainEnd_withReplies (h : Hoist) :
    (s.withReplies rs).drainEnd h = (s.drainEnd h).withReplies rs := by
  simp [State.drainEnd]

@[simp] theorem drainCheck_withReplies (h : Hoist) :
    (s.withReplies rs).drainCheck h = (s.drainCheck h).withReplies rs := by
  simp [State.drainCheck]

@[simp] theorem checkOverrun_withReplies (h : Hoist) :
    (s.withReplies rs).checkOverrun h = (s.checkOverrun h).withReplies rs := by
  refine Eq.trans ?_ (ite_withReplies rs _ _ _)
  rfl

@[simp] theorem dropFailures_withReplies (h : Hoist) :
    (s.withReplies rs).dropFailures h = (s.dropFailures h).withReplies rs := rfl

@[simp] theorem enterHeld_withReplies (h : Hoist) :
    (s.withReplies rs).enterHeld h = (s.enterHeld h).withReplies rs := by
  simp [State.enterHeld]

@[simp] theorem holdFailed_withReplies (h : Hoist) :
    (s.withReplies rs).holdFailed h = (s.holdFailed h).withReplies rs := by
  simp [State.holdFailed]

@[simp] theorem turnAborted_withReplies (h : Hoist) (why : CloseReason) :
    (s.withReplies rs).turnAborted h why = (s.turnAborted h why).withReplies rs := by
  simp [State.turnAborted]

@[simp] theorem cutDrain_withReplies (h : Hoist) :
    (s.withReplies rs).cutDrain h = (s.cutDrain h).withReplies rs := by
  simp only [State.cutDrain, withReplies_ctxs, withReplies_drives, withReplies_kept, modCtx_withReplies,
    startMotion_withReplies, cancelMotion_withReplies, drainCheck_withReplies]
  exact ite_withReplies rs _ _ _

@[simp] theorem parkRecal_withReplies (h : Hoist) :
    (s.withReplies rs).parkRecal h = (s.parkRecal h).withReplies rs := by
  simp [State.parkRecal]

@[simp] theorem abortBy_withReplies (h : Hoist) (why : CloseReason) :
    (s.withReplies rs).abortBy h why = (s.abortBy h why).withReplies rs := by
  unfold State.abortBy
  rw [withReplies_ctxs]
  dsimp only
  split <;> simp

@[simp] theorem abort_withReplies (h : Hoist) (why : CloseReason) :
    (s.withReplies rs).abort h why = (s.abort h why).withReplies rs := by
  simp [State.abort]

/-! ### The Fault Collector -/

@[simp] theorem react_withReplies (r : Reaction) (h : Hoist) :
    (s.withReplies rs).react r h = (s.react r h).withReplies rs := by
  cases r <;> simp [State.react]

@[simp] theorem applyReaction_withReplies (r : Reaction) (set : List Hoist) :
    (s.withReplies rs).applyReaction r set = (s.applyReaction r set).withReplies rs := by
  unfold State.applyReaction
  simp only [markIf_withReplies, foldl_withReplies rs State.enterHeld fun s h => enterHeld_withReplies s rs h,
    foldl_withReplies rs (State.react r) fun s h => react_withReplies s rs r h, ite_withReplies]

@[simp] theorem loadBeacon_withReplies (k : FaultKind) :
    (s.withReplies rs).loadBeacon k = (s.loadBeacon k).withReplies rs := by
  refine Eq.trans ?_ (ite_withReplies rs _ _ _)
  rfl

@[simp] theorem latch_withReplies (k : FaultKind) (h : Option Hoist) :
    (s.withReplies rs).latch k h = (s.latch k h).withReplies rs := by
  simp only [State.latch, withReplies_kept, withReplies_involvedAtLatch, modEntry_withReplies, loadBeacon_withReplies,
    withReplies_reactionOf, applyReaction_withReplies]
  exact ite_withReplies rs _ _ _

@[simp] theorem reactAgain_withReplies (k : FaultKind) (gained : Option Hoist) :
    (s.withReplies rs).reactAgain k gained = (s.reactAgain k gained).withReplies rs := by
  cases gained <;> simp [State.reactAgain]

@[simp] theorem secondOccurrence_withReplies (k : FaultKind) (h : Option Hoist) :
    (s.withReplies rs).secondOccurrence k h = (s.secondOccurrence k h).withReplies rs := by
  simp [State.secondOccurrence]

@[simp] theorem occurrence_withReplies (k : FaultKind) (h : Option Hoist) :
    (s.withReplies rs).occurrence k h = (s.occurrence k h).withReplies rs := by
  simp [State.occurrence]

@[simp] theorem takeReport_withReplies (r : FaultReport) :
    (s.withReplies rs).takeReport r = (s.takeReport r).withReplies rs := by
  cases r with
  | occur k h => exact occurrence_withReplies s rs k h
  | cond k h present => simp [State.takeReport]

/-! ### The agenda -/

theorem settleOne_withReplies : (s.withReplies rs).settleOne = s.settleOne.withReplies rs := by
  unfold State.settleOne
  rw [withReplies_agenda]
  split
  · rename_i r reports _
    exact takeReport_withReplies { s with agenda := { s.agenda with reports := reports } } rs r
  · rename_i h follow _ _
    exact attemptTake_withReplies { s with agenda := { s.agenda with follow := follow } } rs h
  · rename_i h follow _ _
    exact rehangGo_withReplies { s with agenda := { s.agenda with follow := follow } } rs h
  · rfl

theorem settleFor_withReplies (n : Nat) (s : State) :
    settleFor n (s.withReplies rs) = (settleFor n s).withReplies rs := by
  induction n generalizing s with
  | zero => rfl
  | succ n ih => simp only [settleFor, withReplies_agenda, settleOne_withReplies, ih, ite_withReplies]

theorem settle_withReplies : (s.withReplies rs).settle = s.settle.withReplies rs :=
  settleFor_withReplies rs _ s

/-- With a reply waiting, an idle transmitter takes the oldest, and the rest stays (R195). -/
theorem transmit_of_waiting (r : Reply) (waiting : List Reply) : ∃ tx replies,
    (s.withReplies (waiting ++ [r])).transmit = { s with link := { s.link with tx := tx, replies := replies } } := by
  refine ⟨(s.withReplies (waiting ++ [r])).transmit.link.tx, (s.withReplies (waiting ++ [r])).transmit.link.replies, ?_⟩
  cases sending : s.link.tx with
  | some f => cases waiting <;> simp [State.transmit, State.withReplies, State.modLink, sending]
  | none => cases waiting <;> simp [State.transmit, State.withReplies, State.modLink, sending]

end

end Sys2Proof.Machine
end

section
/-! The cancel of a taken order, by the state of its dip context, and the align timer at zero (R12 to R15, R29, R45). -/

namespace Sys2Proof.Machine

set_option Elab.async false

/-! ### The step of a cancel that is carried out -/

/-- A cancel carried out answers with the states it found. -/
theorem orderCancel_taken (s : State) (tag : Nat) (o : Order) (t : State) (l : s.listening)
    (known : s.orderByTag o.tag = some o) (pending : o.closePending = false) (taken : o.state ≠ .queued)
    (done : s.unbuilt.cancelTaken o = some t) : exec (.orderCancel tag o.tag) s =
      .next (t.addReply ReqKind.orderCancel.code tag .ok
        [fN 1 o.state.code, fN 1 s.ctxs[o.hoist].state.code]).settle.transmit := by
  have answer : s.unbuilt.cancelAnswer (s.unbuilt.orderByTag o.tag) =
      t.okay [fN 1 o.state.code, fN 1 s.ctxs[o.hoist].state.code] :=
    (congrArg s.unbuilt.cancelAnswer known).trans (cancelAnswer_taken s.unbuilt t o pending taken done)
  rw [exec_orderCancel, request_of_listening s .orderCancel tag _ l]
  exact congrArg (fun a : Answer => Host.Outcome.next
    (a.state.addReply ReqKind.orderCancel.code tag a.result a.fields).settle.transmit) answer

/-! ### The step of a close -/

/-- The state with further replies owed, none where the step answers nothing. -/
def State.owing (s : State) (rs : List Reply) : State := s.withReplies (s.link.replies ++ rs)

theorem addReply_owing (s : State) (code tag : Nat) (r : Result) (fields : List Field) : s.addReply code tag r fields =
    s.owing [{ kind := replyKind code, tag := tag, result := r, fields := fields }] := rfl

theorem owing_nil (s : State) : s.owing [] = s := by
  unfold State.owing
  rw [List.append_nil]
  rfl

theorem owing_owed (s : State) (rs : List Reply) : (s.owing rs).link.owed = s.link.owed ++ rs :=
  (List.append_assoc _ _ _).symm

theorem noneQueued_of_filter (s t : State) (p : Order → Bool) (q : s.noneQueued) (e : t.orders = s.orders.filter p) :
    t.noneQueued := by
  intro o ho
  rw [e] at ho
  exact q o (List.mem_of_mem_filter ho)

/-- A step that leaves a closed order's take attempts and no order to take works off only the reports of its conditions. -/
theorem finish_closed (s x : State) (h : Hoist) (n : Nat) (rs : List Reply)
    (a : x.agenda = ⟨absentConds h, s.takesAfterReturn n ++ [.take h]⟩) (q : x.noneQueued) : ∃ link entries,
    (x.owing rs).settle.transmit = { x with link := link, entries := entries, agenda := Agenda.empty } ∧
    link.owed = x.link.owed ++ rs := by
  have short : (absentConds h).length + (s.takesAfterReturn n ++ [Follow.take h]).length ≤ 200 := by
    have four := takesAfterReturn_length s n
    simp only [absentConds, List.length_append, List.length_cons, List.length_nil]
    omega
  have settled := settle_quiet (x.owing rs) _ _ a rfl (takes_idle s (x.owing rs) q n h) short
  obtain ⟨m, tx, replies, sent, owed⟩ := transmit_only (x.owing rs).settle
  generalize (x.owing rs).settle = y at settled sent owed
  subst settled
  exact ⟨_, _, sent, owed.trans (owing_owed x rs)⟩

/-- From `s` to `t` a hoist's order is closed without an entry: it has left the table, its reservations are returned, its
dip context is PARKED, and the other hoists are as they were. -/
def ClosedBy (s t : State) (h : Hoist) (r : OrderRef) (how : Closing) (why : CloseReason) : Prop :=
  t.ctxs[h] = s.ctxs[h].closed r how (some why) ∧ t.orders = s.orders.filter (fun x => x.slot != r.slot) ∧
  t.reserved = s.reserved - s.ctxs[h].resv ∧ t.kept = s.kept ∧
  ∀ i : Hoist, i ≠ h → t.ctxs[i] = s.ctxs[i] ∧ t.drives[i] = s.drives[i]

/-- The step of a close with nothing lowered (R12, R29). -/
theorem closeUnlowered_finish (s : State) (h : Hoist) (how : Closing) (why : CloseReason) (r : OrderRef) (rs : List Reply)
    (own : s.ctxs[h].order = some r) (q : s.noneQueued) (idle : s.agenda = Agenda.empty) :
    ∃ t, ((s.closeUnlowered h how why).owing rs).settle.transmit = t ∧ t.link.owed = s.link.owed ++ rs ∧
      ClosedBy s t h r how why ∧ (∀ q ∈ t.wu.queue, q.hoist = h → q.dc = none) ∧
      (s.ctxs[h].effective = .staged → ∀ c ∈ t.waits, c.hoist ≠ h) ∧
      (s.ctxs[h].effective ≠ .staged → (∀ c ∈ s.waits, c.hoist ≠ h) → ∀ z : Fin 12, t.holders[z] ≠ some h) := by
  obtain ⟨wu, drives, mail, holders, waits, full, m, closed, others, unasked, unclaimed, released⟩ :=
    closeUnlowered_only s h how why r own
  generalize s.closeUnlowered h how why = x at closed
  have agenda : x.agenda = ⟨absentConds h, s.takesAfterReturn s.ctxs[h].resv ++ [.take h]⟩ := by
    rw [closed, idle]; rfl
  have orders : x.orders = s.orders.filter fun x => x.slot != r.slot := by rw [closed]
  obtain ⟨link, entries, finished, owed⟩ := finish_closed s x h _ rs agenda (noneQueued_of_filter s x _ q orders)
  subst closed
  exact ⟨_, finished, owed, ⟨Vector.getElem_set_self _, rfl, rfl, rfl, fun i ne => ⟨hoist_set_ne _ h i _ ne, others i ne⟩⟩,
    unasked, unclaimed, released⟩

/-- The step of a close between the passes (R14). -/
theorem closeRehang_finish (s : State) (h : Hoist) (why : CloseReason) (r : OrderRef) (rs : List Reply)
    (own : s.ctxs[h].order = some r) (q : s.noneQueued) (idle : s.agenda = Agenda.empty) :
    ∃ t, ((s.closeRehang h why).owing rs).settle.transmit = t ∧ t.link.owed = s.link.owed ++ rs ∧
      ClosedBy s t h r .partialDone why ∧ t.holders = s.holders ∧ t.waits = s.waits := by
  obtain ⟨drives, mail, full, m, closed, others⟩ := closeRehang_only s h why r own
  generalize s.closeRehang h why = x at closed
  have agenda : x.agenda = ⟨absentConds h, s.takesAfterReturn s.ctxs[h].resv ++ [.take h]⟩ := by
    rw [closed, idle]; rfl
  have orders : x.orders = s.orders.filter fun x => x.slot != r.slot := by rw [closed]
  obtain ⟨link, entries, finished, owed⟩ := finish_closed s x h _ rs agenda (noneQueued_of_filter s x _ q orders)
  subst closed
  exact ⟨_, finished, owed, ⟨Vector.getElem_set_self _, rfl, rfl, rfl, fun i ne => ⟨hoist_set_ne _ h i _ ne, others i ne⟩⟩,
    rfl, rfl⟩

/-! ### What a cancel does, by the state of the dip context -/

theorem cancelTaken_early (s : State) (o : Order) (early : s.ctxs[o.hoist].state = .staged ∨
    s.ctxs[o.hoist].state = .aligning ∨ s.ctxs[o.hoist].state = .weighIn) :
    s.cancelTaken o = some (s.closeUnlowered o.hoist .cancelled .request) := by
  unfold State.cancelTaken
  rcases early with e | e | e <;> simp only [e]

theorem cancelTaken_aborts (s : State) (o : Order) (below : s.ctxs[o.hoist].state = .lowering ∨
    s.ctxs[o.hoist].state = .dwell ∨ s.ctxs[o.hoist].state = .lifting ∨ s.ctxs[o.hoist].state = .held ∨
    s.ctxs[o.hoist].state = .recal) : s.cancelTaken o = some (s.abort o.hoist .request) := by
  unfold State.cancelTaken
  rcases below with e | e | e | e | e <;> simp only [e]

theorem cancelTaken_rehang (s : State) (o : Order) (e : s.ctxs[o.hoist].state = .rehang) :
    s.cancelTaken o = some (s.closeRehang o.hoist .request) := by
  unfold State.cancelTaken
  simp only [e]

theorem cancelTaken_out (s : State) (o : Order) (out : s.ctxs[o.hoist].state = .drain ∨
    s.ctxs[o.hoist].state = .weighOut) : s.cancelTaken o =
      if s.ctxs[o.hoist].pass = some .one ∧ o.pass2.isSome = true then some (s.dropPass2 o.hoist) else none := by
  unfold State.cancelTaken
  rcases out with e | e <;> simp only [e]

theorem effective_of_not_held (c : DipCtx) (unheld : c.state ≠ .held) : c.effective = c.state := if_neg unheld

/-! ### Handled as HOIST_ABORT (R13) -/

theorem hoistAbort_taken (s : State) (tag n : Nat) (h : Hoist) (l : s.listening) (named : s.hoist? n = some h)
    (lowered : s.ctxs[h].state ≠ .parked) : exec (.hoistAbort tag n) s =
      .next ((s.unbuilt.abort h .request).addReply ReqKind.hoistAbort.code tag .ok
        [fN 1 s.ctxs[h].state.code]).settle.transmit := by
  have named' : s.unbuilt.hoist? n = some h := named
  have lowered' : s.unbuilt.ctxs[h].state ≠ .parked := lowered
  have answer : s.unbuilt.forHoist n (fun h =>
      if s.unbuilt.ctxs[h].state = .parked then s.unbuilt.refuse .wrongState
      else (s.unbuilt.abort h .request).okay [fN 1 s.unbuilt.ctxs[h].state.code]) =
      (s.unbuilt.abort h .request).okay [fN 1 s.ctxs[h].state.code] := by
    simp only [State.forHoist, named', if_neg lowered']
    rfl
  refine congrArg Host.Outcome.next ((request_of_listening s .hoistAbort tag _ l).trans ?_)
  exact congrArg (fun a : Answer =>
    (a.state.addReply ReqKind.hoistAbort.code tag a.result a.fields).settle.transmit) answer

/-- Two answers to one change leave the part alike but for what is sent and waits to be sent. -/
theorem answered_alike (x : State) (code code' tag : Nat) (r r' : Result) (fields fields' : List Field) :
    let t := (x.addReply code tag r fields).settle.transmit
    let u := (x.addReply code' tag r' fields').settle.transmit
    t = { u with link := { u.link with tx := t.link.tx, replies := t.link.replies } } := by
  intro t u
  obtain ⟨tx, replies, sent⟩ := transmit_of_waiting x.settle
    { kind := replyKind code, tag := tag, result := r, fields := fields } x.link.replies
  obtain ⟨tx', replies', sent'⟩ := transmit_of_waiting x.settle
    { kind := replyKind code', tag := tag, result := r', fields := fields' } x.link.replies
  have ht : t = { x.settle with link := { x.settle.link with tx := tx, replies := replies } } := by
    rw [← sent, ← settle_withReplies, ← addReply_withReplies]
  have hu : u = { x.settle with link := { x.settle.link with tx := tx', replies := replies' } } := by
    rw [← sent', ← settle_withReplies, ← addReply_withReplies]
  rw [ht, hu]

theorem steady_owed {a b : State} (steady : Steady a b) : b.link.owed = a.link.owed := by
  unfold Link.owed
  rw [steady.replies, steady.lines.tx]

/-- A change that leaves the link's replies alone, and its agenda worked off, add only the answer to the replies owed. -/
theorem answered_owed (s x : State) (steady : Steady s x) (code tag : Nat) (r : Result) (fields : List Field) :
    (x.addReply code tag r fields).settle.transmit.link.owed =
      s.link.owed ++ [{ kind := replyKind code, tag := tag, result := r, fields := fields }] := by
  rw [transmit_owed, steady_owed (settle_steady _), addReply_owed, steady_owed steady]

/-! ### Pass 2 dropped (R15) -/

theorem dropPass2_only (s : State) (h : Hoist) (r : OrderRef) (own : s.ctxs[h].order = some r) : ∃ full m,
    s.dropPass2 h =
      { s with orders := s.orders.map fun x => if x.slot = r.slot then { x with closePending := true } else x,
               ctxs := s.ctxs.set h { s.ctxs[h] with closeReason := some .request, resv := 0 },
               reserved := s.reserved - s.ctxs[h].resv, nearlyFull := full, link := { s.link with marks := m },
               agenda := ⟨s.agenda.reports, s.agenda.follow ++ s.takesAfterReturn s.ctxs[h].resv⟩ } := by
  have ordered : s.modOrder h (fun o => { o with closePending := true }) =
      { s with orders := s.orders.map fun x => if x.slot = r.slot then { x with closePending := true } else x } := by
    unfold State.modOrder
    rw [own]
  obtain ⟨full, m, returned⟩ := returnHeld_only
    ((s.modOrder h fun o => { o with closePending := true }).modCtx h fun c => { c with closeReason := some .request }) h
  refine ⟨full, m, ?_⟩
  unfold State.dropPass2
  dsimp only
  rw [returned, ordered]
  simp only [State.modCtx, Fin.getElem_fin, Vector.getElem_set_self, Vector.set_set]
  rfl

/-- The step of a pass dropped: nothing but the reservations' take attempts is due, and no order waits for them. -/
theorem dropPass2_finish (s : State) (h : Hoist) (r : OrderRef) (rs : List Reply) (own : s.ctxs[h].order = some r)
    (q : s.noneQueued) (idle : s.agenda = Agenda.empty) : ∃ full link,
    ((s.dropPass2 h).owing rs).settle.transmit =
      { s with orders := s.orders.map fun x => if x.slot = r.slot then { x with closePending := true } else x,
               ctxs := s.ctxs.set h { s.ctxs[h] with closeReason := some .request, resv := 0 },
               reserved := s.reserved - s.ctxs[h].resv, nearlyFull := full, link := link } ∧
    link.owed = s.link.owed ++ rs := by
  obtain ⟨full, m, dropped⟩ := dropPass2_only s h r own
  generalize s.dropPass2 h = x at dropped
  have agenda : x.agenda = ⟨[], s.takesAfterReturn s.ctxs[h].resv⟩ := by
    rw [dropped, idle]; rfl
  have waits_none : (x.owing rs).noneQueued := by
    intro o ho
    have ho' : o ∈ x.orders := ho
    rw [dropped] at ho'
    obtain ⟨p, hp, rfl⟩ := List.mem_map.1 ho'
    split
    · exact q p hp
    · exact q p hp
  have due_idle : ∀ f ∈ s.takesAfterReturn s.ctxs[h].resv, Follow.idle (x.owing rs) f := fun f hf =>
    takes_idle s (x.owing rs) waits_none _ h f (List.mem_append_left _ hf)
  have short : ([] : List FaultReport).length + (s.takesAfterReturn s.ctxs[h].resv).length ≤ 200 := by
    have four := takesAfterReturn_length s s.ctxs[h].resv
    rw [List.length_nil]
    omega
  have settled := settle_quiet (x.owing rs) _ _ agenda rfl due_idle short
  obtain ⟨m', tx, replies, sent, owed⟩ := transmit_only (x.owing rs).settle
  generalize (x.owing rs).settle = y at settled sent owed
  subst settled dropped
  refine ⟨full, _, sent.trans ?_, owed.trans (owing_owed _ rs)⟩
  rw [← idle]
  rfl

/-! ### Cancels and the align timer, case by case -/

theorem cancel_unlowered (s : State) (tag : Nat) (o : Order) (l : s.listening) (q : s.noneQueued)
    (known : s.orderByTag o.tag = some o) (pending : o.closePending = false)
    (own : s.ctxs[o.hoist].order = some ⟨o.slot, o.tag⟩)
    (early : s.ctxs[o.hoist].state = .staged ∨ s.ctxs[o.hoist].state = .aligning ∨ s.ctxs[o.hoist].state = .weighIn) :
    ∃ t, exec (.orderCancel tag o.tag) s = .next t ∧
      Replies s t .orderCancel tag .ok [fN 1 o.state.code, fN 1 s.ctxs[o.hoist].state.code] ∧
      ClosedBy s t o.hoist ⟨o.slot, o.tag⟩ .cancelled .request ∧ (∀ q ∈ t.wu.queue, q.hoist = o.hoist → q.dc = none) ∧
      (s.ctxs[o.hoist].state = .staged → ∀ c ∈ t.waits, c.hoist ≠ o.hoist) ∧
      (s.ctxs[o.hoist].state ≠ .staged → (∀ c ∈ s.waits, c.hoist ≠ o.hoist) →
        ∀ z : Fin 12, t.holders[z] ≠ some o.hoist) := by
  have taken : o.state ≠ .queued := q o (List.mem_of_find?_eq_some known)
  have unheld : s.ctxs[o.hoist].state ≠ .held := by
    rcases early with e | e | e <;> (rw [e]; decide)
  have step := orderCancel_taken s tag o _ l known pending taken (cancelTaken_early s.unbuilt o early)
  obtain ⟨t, finished, owed, closed, unasked, unclaimed, released⟩ := closeUnlowered_finish s.unbuilt o.hoist .cancelled
    .request ⟨o.slot, o.tag⟩ [⟨replyKind ReqKind.orderCancel.code, tag, .ok,
      [fN 1 o.state.code, fN 1 s.ctxs[o.hoist].state.code]⟩] own q l.1.2
  have effective : s.unbuilt.ctxs[o.hoist].effective = s.ctxs[o.hoist].state := effective_of_not_held _ unheld
  rw [effective] at unclaimed released
  rw [addReply_owing, finished] at step
  exact ⟨t, step, owed, closed, unasked, unclaimed, released⟩

theorem alignTimeout_closes (s : State) (h : Hoist) (r : OrderRef) (live : s.ready) (q : s.noneQueued)
    (running : s.ctxs[h].alignT.isSome = true) (aligning : s.ctxs[h].state = .aligning ∨
      (s.ctxs[h].state = .held ∧ s.ctxs[h].heldFrom = some .aligning)) (own : s.ctxs[h].order = some r) :
    ∃ t, exec (.alignTimeout h) s = .next t ∧ ClosedBy s t h r .cancelled .alignTimeout ∧
      ((∀ c ∈ s.waits, c.hoist ≠ h) → ∀ z : Fin 12, t.holders[z] ≠ some h) := by
  have effective : s.ctxs[h].effective = .aligning := by
    rcases aligning with e | ⟨e, from_⟩
    · exact (effective_of_not_held _ (by rw [e]; decide)).trans e
    · rw [DipCtx.effective, if_pos e, from_]; rfl
  obtain ⟨t, finished, _, closed, _, _, released⟩ := closeUnlowered_finish s h .cancelled .alignTimeout r [] own q live.2
  rw [owing_nil] at finished
  refine ⟨t, ?_, closed, released (by rw [effective]; decide)⟩
  refine congrArg Host.Outcome.next ((whileRunning_of_ready s _ live).trans ?_)
  rw [if_pos ⟨running, effective⟩, finished]

theorem cancel_aborts (s : State) (tag n : Nat) (o : Order) (l : s.listening) (known : s.orderByTag o.tag = some o)
    (pending : o.closePending = false) (taken : o.state ≠ .queued) (named : s.hoist? n = some o.hoist)
    (below : s.ctxs[o.hoist].state = .lowering ∨ s.ctxs[o.hoist].state = .dwell ∨ s.ctxs[o.hoist].state = .lifting ∨
      s.ctxs[o.hoist].state = .held ∨ s.ctxs[o.hoist].state = .recal) :
    ∃ t, exec (.orderCancel tag o.tag) s = .next t ∧ ∃ u, exec (.hoistAbort tag n) s = .next u ∧
      t = { u with link := { u.link with tx := t.link.tx, replies := t.link.replies } } ∧
      Replies s t .orderCancel tag .ok [fN 1 o.state.code, fN 1 s.ctxs[o.hoist].state.code] := by
  have lowered : s.ctxs[o.hoist].state ≠ .parked := by
    rcases below with e | e | e | e | e <;> (rw [e]; decide)
  exact ⟨_, orderCancel_taken s tag o _ l known pending taken (cancelTaken_aborts s.unbuilt o below),
    _, hoistAbort_taken s tag n o.hoist l named lowered, answered_alike _ _ _ _ _ _ _ _,
    answered_owed s.unbuilt _ (abort_steady s.unbuilt o.hoist .request) _ _ _ _⟩

theorem cancel_rehang (s : State) (tag : Nat) (o : Order) (l : s.listening) (known : s.orderByTag o.tag = some o)
    (pending : o.closePending = false) (taken : o.state ≠ .queued) (q : s.noneQueued)
    (own : s.ctxs[o.hoist].order = some ⟨o.slot, o.tag⟩) (rehang : s.ctxs[o.hoist].state = .rehang) :
    ∃ t, exec (.orderCancel tag o.tag) s = .next t ∧
      Replies s t .orderCancel tag .ok [fN 1 o.state.code, fN 1 DipState.rehang.code] ∧
      ClosedBy s t o.hoist ⟨o.slot, o.tag⟩ .partialDone .request ∧ t.holders = s.holders ∧ t.waits = s.waits := by
  have step := orderCancel_taken s tag o _ l known pending taken (cancelTaken_rehang s.unbuilt o rehang)
  rw [rehang] at step
  obtain ⟨t, finished, owed, closed, zones⟩ := closeRehang_finish s.unbuilt o.hoist .request ⟨o.slot, o.tag⟩
    [⟨replyKind ReqKind.orderCancel.code, tag, .ok, [fN 1 o.state.code, fN 1 DipState.rehang.code]⟩] own q l.1.2
  rw [addReply_owing, finished] at step
  exact ⟨t, step, owed, closed, zones⟩

theorem cancel_drops (s : State) (tag : Nat) (o : Order) (l : s.listening) (known : s.orderByTag o.tag = some o)
    (pending : o.closePending = false) (taken : o.state ≠ .queued) (out : s.ctxs[o.hoist].state = .drain ∨
      s.ctxs[o.hoist].state = .weighOut) (q : s.noneQueued) (own : s.ctxs[o.hoist].order = some ⟨o.slot, o.tag⟩)
    (first : s.ctxs[o.hoist].pass = some .one) (second : o.pass2.isSome = true) :
    ∃ t, exec (.orderCancel tag o.tag) s = .next t ∧
      Replies s t .orderCancel tag .ok [fN 1 o.state.code, fN 1 s.ctxs[o.hoist].state.code] ∧
      t = { s with ctxs := t.ctxs, orders := t.orders, reserved := s.reserved - s.ctxs[o.hoist].resv,
                   nearlyFull := t.nearlyFull, link := t.link } ∧
      t.ctxs = s.ctxs.set o.hoist { s.ctxs[o.hoist] with closeReason := some .request, resv := 0 } ∧
      t.orders = s.orders.map fun x => if x.slot = o.slot then { x with closePending := true } else x := by
  have done : s.unbuilt.cancelTaken o = some (s.unbuilt.dropPass2 o.hoist) :=
    (cancelTaken_out s.unbuilt o out).trans (if_pos ⟨first, second⟩)
  have step := orderCancel_taken s tag o _ l known pending taken done
  obtain ⟨full, link, finished, owed⟩ := dropPass2_finish s.unbuilt o.hoist ⟨o.slot, o.tag⟩
    [⟨replyKind ReqKind.orderCancel.code, tag, .ok, [fN 1 o.state.code, fN 1 s.ctxs[o.hoist].state.code]⟩] own q l.1.2
  rw [addReply_owing, finished] at step
  exact ⟨_, step, owed, rfl, rfl, rfl⟩

theorem cancel_late (s : State) (tag : Nat) (o : Order) (l : s.listening) (known : s.orderByTag o.tag = some o)
    (taken : o.state ≠ .queued) (out : s.ctxs[o.hoist].state = .drain ∨ s.ctxs[o.hoist].state = .weighOut)
    (last : s.ctxs[o.hoist].pass ≠ some .one ∨ o.pass2 = none) :
    exec (.orderCancel tag o.tag) s = .next (s.replied .orderCancel tag .tooLate) := by
  have none_done : s.unbuilt.cancelTaken o = none := by
    refine (cancelTaken_out s.unbuilt o out).trans (if_neg fun ⟨first, second⟩ => ?_)
    rcases last with other | single
    · exact other first
    · rw [single] at second; cases second
  refine orderCancel_refused s tag o.tag l .tooLate ?_
  rw [known]
  exact cancelAnswer_late s.unbuilt o taken none_done

/-- Settles O21: a cancel closes, aborts, drops pass 2 or comes too late by the state it finds; that it does as HOIST_ABORT
does rests on the agenda never reading the replies that wait. -/
theorem closedBeforeLowering : Obligations.ClosedBeforeLowering := by
  unfold Obligations.ClosedBeforeLowering
  refine ⟨fun s tag o l q known pending own early => ?_, fun s h r live q running aligning own => ?_,
    fun s tag o l known pending taken => ⟨fun n named below => ?_, fun q own rehang => ?_, fun out =>
      ⟨fun q own first second => ?_, fun last => ?_⟩⟩⟩
  · obtain ⟨t, step, owed, ⟨own', orders, reserved, kept, others⟩, unasked, unclaimed, released⟩ :=
      cancel_unlowered s tag o l q known pending own early
    exact ⟨t, step, owed, own', orders, reserved, kept, unasked, unclaimed, released, others⟩
  · obtain ⟨t, step, ⟨own', orders, reserved, kept, others⟩, released⟩ :=
      alignTimeout_closes s h r live q running aligning own
    exact ⟨t, step, own', orders, reserved, kept, released, others⟩
  · exact cancel_aborts s tag n o l known pending taken named below
  · obtain ⟨t, step, owed, ⟨own', orders, reserved, kept, others⟩, holders, waits⟩ :=
      cancel_rehang s tag o l known pending taken q own rehang
    exact ⟨t, step, owed, own', orders, reserved, kept, holders, waits, others⟩
  · exact cancel_drops s tag o l known pending taken out q own first second
  · exact cancel_late s tag o l known taken out last

end Sys2Proof.Machine
end

section
/-! One hoist's part of the machine, with the notice marks and the agenda: what the operations of a dip context and its
drive make of it, each said once, as an equation over the state that holds the rest.

The proof of an index is written out here and below (`v[h]'h.2`): searching for it at each reading costs the check its
memory. -/

namespace Sys2Proof.Machine

set_option Elab.async false

/-! ### The part of one hoist -/

/-- What the operations on one hoist change: its dip context, its drive, its messages, the notice marks, the agenda. -/
structure Site where
  ctx : DipCtx
  drive : DriveIf
  mail : Mail
  marks : Vector Bool 6
  agenda : Agenda

def State.site (s : State) (h : Hoist) : Site := ⟨s.ctxs[h]'h.2, s.drives[h]'h.2, s.mail[h]'h.2, s.link.marks, s.agenda⟩

/-- The state with the part of one hoist replaced. -/
def State.putSite (s : State) (h : Hoist) (x : Site) : State :=
  { s with ctxs := s.ctxs.set h x.ctx, drives := s.drives.set h x.drive, mail := s.mail.set h x.mail,
           link := { s.link with marks := x.marks }, agenda := x.agenda }

theorem hoist_set_same {α : Type} (v : Vector α 4) (h : Hoist) (x : α) : (v.set h x)[h]'h.2 = x :=
  Vector.getElem_set_self h.isLt

theorem hoist_set_get {α : Type} (v : Vector α 4) (h : Hoist) : v.set h (v[h]'h.2) = v :=
  Vector.set_getElem_self h.isLt

theorem putSite_site (s : State) (h : Hoist) : s.putSite h (s.site h) = s := by
  simp only [State.putSite, State.site, hoist_set_get]

section
variable (s : State) (h : Hoist) (x : Site)

@[simp] theorem putSite_ctx : (s.putSite h x).ctxs[h]'h.2 = x.ctx := hoist_set_same _ _ _
@[simp] theorem putSite_drive : (s.putSite h x).drives[h]'h.2 = x.drive := hoist_set_same _ _ _
@[simp] theorem putSite_mail : (s.putSite h x).mail[h]'h.2 = x.mail := hoist_set_same _ _ _
@[simp] theorem putSite_kept : (s.putSite h x).kept = s.kept := rfl
@[simp] theorem putSite_inputs : (s.putSite h x).inputs = s.inputs := rfl
@[simp] theorem putSite_orders : (s.putSite h x).orders = s.orders := rfl
@[simp] theorem putSite_bench : (s.putSite h x).bench = s.bench := rfl
@[simp] theorem putSite_holders : (s.putSite h x).holders = s.holders := rfl
@[simp] theorem putSite_wu : (s.putSite h x).wu = s.wu := rfl
@[simp] theorem putSite_entries : (s.putSite h x).entries = s.entries := rfl
@[simp] theorem putSite_agenda : (s.putSite h x).agenda = x.agenda := rfl
@[simp] theorem putSite_marks : (s.putSite h x).link.marks = x.marks := rfl

@[simp] theorem putSite_putSite (y : Site) : (s.putSite h x).putSite h y = s.putSite h y := by
  simp only [State.putSite, Vector.set_set]

theorem putSite_modCtx (f : DipCtx → DipCtx) : (s.putSite h x).modCtx h f = s.putSite h { x with ctx := f x.ctx } := by
  simp only [State.modCtx, putSite_ctx]
  simp only [State.putSite, Vector.set_set]

theorem putSite_modDrive (f : DriveIf → DriveIf) :
    (s.putSite h x).modDrive h f = s.putSite h { x with drive := f x.drive } := by
  simp only [State.modDrive, putSite_drive]
  simp only [State.putSite, Vector.set_set]

theorem putSite_modMail (f : Mail → Mail) : (s.putSite h x).modMail h f = s.putSite h { x with mail := f x.mail } := by
  simp only [State.modMail, putSite_mail]
  simp only [State.putSite, Vector.set_set]

theorem putSite_report (r : FaultReport) : (s.putSite h x).report r =
    s.putSite h { x with agenda := ⟨x.agenda.reports ++ [r], x.agenda.follow⟩ } := rfl

theorem putSite_raise (k : FaultKind) : (s.putSite h x).raise k h =
    s.putSite h { x with agenda := ⟨x.agenda.reports ++ [.occur k (some h)], x.agenda.follow⟩ } := rfl

theorem putSite_followUp (f : Follow) : (s.putSite h x).followUp f =
    s.putSite h { x with agenda := ⟨x.agenda.reports, x.agenda.follow ++ [f]⟩ } := rfl

theorem putSite_modWu (f : WeighUnit → WeighUnit) :
    (s.putSite h x).modWu f = State.putSite { s with wu := f s.wu } h x := rfl

end

/-! ### Marks -/

/-- The marks after a class is marked where the condition holds (R196, R197). -/
def noted (enabled : Vector Bool 6) (b : Bool) (c : NoticeClass) (marks : Vector Bool 6) : Vector Bool 6 :=
  if b && enabled[c.ix]'c.ix.2 then marks.set c.ix true else marks

theorem markIf_eq (s : State) (b : Bool) (c : NoticeClass) :
    s.markIf b c = { s with link := { s.link with marks := noted s.kept.notices b c s.link.marks } } := by
  unfold State.markIf State.mark noted
  cases b
  · rfl
  · cases s.kept.notices[c.ix]'c.ix.2 <;> rfl

theorem mark_eq (s : State) (c : NoticeClass) :
    s.mark c = { s with link := { s.link with marks := noted s.kept.notices true c s.link.marks } } :=
  markIf_eq s true c

theorem putSite_markIf (s : State) (h : Hoist) (x : Site) (b : Bool) (c : NoticeClass) :
    (s.putSite h x).markIf b c = s.putSite h { x with marks := noted s.kept.notices b c x.marks } :=
  markIf_eq _ b c

theorem NoticeClass.ix_inj {c d : NoticeClass} (e : c.ix = d.ix) : c = d := by
  revert e
  cases c <;> cases d <;> decide

theorem noted_same (enabled : Vector Bool 6) (b : Bool) (c : NoticeClass) (marks : Vector Bool 6) :
    (noted enabled b c marks)[c.ix]'c.ix.2 = (marks[c.ix]'c.ix.2 || (b && enabled[c.ix]'c.ix.2)) := by
  unfold noted
  cases hb : b && enabled[c.ix]'c.ix.2
  · simp
  · simp

theorem noted_other (enabled : Vector Bool 6) (b : Bool) (c d : NoticeClass) (marks : Vector Bool 6) (ne : d ≠ c) :
    (noted enabled b c marks)[d.ix]'d.ix.2 = marks[d.ix]'d.ix.2 := by
  unfold noted
  split
  · exact Vector.getElem_set_ne _ _ fun e => ne (NoticeClass.ix_inj (Fin.ext e.symm))
  · rfl

/-! ### The conditions of R38 -/

/-- The two reports of R38 of a station whose dip context and drive are as given. -/
def State.conds (s : State) (h : Hoist) (c : DipCtx) (d : DriveIf) : List FaultReport :=
  [.cond .alignLost (some h) (s.holds h && !(s.inputs[h]'h.2).aligned && c.standsIn.any DipState.needsAligned),
   .cond .areaBreach (some h) (s.installed h && !(s.inputs[h]'h.2).areaClear &&
     (c.state.moving || (c.state == .drain && d.motion.isSome)))]

theorem reportConds_eq (s : State) (h : Hoist) : s.reportConds h =
    { s with agenda := ⟨s.agenda.reports ++ s.conds h (s.ctxs[h]'h.2) (s.drives[h]'h.2), s.agenda.follow⟩ } := by
  simp only [State.reportConds, State.report, List.append_assoc]
  rfl

theorem putSite_reportConds (s : State) (h : Hoist) (x : Site) : (s.putSite h x).reportConds h =
    s.putSite h { x with agenda := ⟨x.agenda.reports ++ s.conds h x.ctx x.drive, x.agenda.follow⟩ } := by
  rw [reportConds_eq, putSite_ctx, putSite_drive]
  rfl

/-- The contents that make no condition of R38 present, by the inputs or by the state (R38). -/
def State.unwatched (s : State) (h : Hoist) (c : DipCtx) : Prop :=
  ((s.inputs[h]'h.2).aligned = true ∨ c.standsIn.any DipState.needsAligned = false) ∧
  ((s.inputs[h]'h.2).areaClear = true ∨ (c.state.moving = false ∧ c.state ≠ .drain))

theorem unwatched_of_clear (s : State) (h : Hoist) (c : DipCtx) (clear : s.stationClear h) : s.unwatched h c :=
  ⟨.inl clear.1, .inl clear.2⟩

theorem conds_of_unwatched (s : State) (h : Hoist) (c : DipCtx) (d : DriveIf) (u : s.unwatched h c) :
    s.conds h c d = absentConds h := by
  obtain ⟨aligned, area⟩ := u
  have lost : (s.holds h && !(s.inputs[h]'h.2).aligned && c.standsIn.any DipState.needsAligned) = false := by
    rcases aligned with e | e
    · rw [e]; simp
    · rw [e]; simp
  have breach : (s.installed h && !(s.inputs[h]'h.2).areaClear &&
    (c.state.moving || (c.state == .drain && d.motion.isSome))) =
      false := by
    rcases area with e | ⟨e, n⟩
    · rw [e]; simp
    · rw [e, beq_false_of_ne n]; simp
  rw [State.conds, lost, breach]
  rfl

/-! ### A dip context in new contents -/

/-- The messages to the Level Unit after a change of what it is shown (R129). -/
def Mail.shown (m : Mail) (old new : DipCtx) : Mail :=
  { m with level := if old.view = new.view then m.level else m.level ++ [.view new.view] }

/-- TRAVEL_PERMIT by state outside bench mode (R150). -/
def DriveIf.permitted (d : DriveIf) (bench : Bool) (st : DipState) : DriveIf :=
  { d with permit := if bench then d.permit else st.permits }

/-- The marks after a change of a dip context (R25). -/
def State.hoistMarks (s : State) (old new : DipCtx) (marks : Vector Bool 6) : Vector Bool 6 :=
  noted s.kept.notices (old.state != new.state || old.heldFrom != new.heldFrom) .hoist marks

theorem putSite_setCtx (s : State) (h : Hoist) (x : Site) (c : DipCtx) : (s.putSite h x).setCtx h c =
    s.putSite h { ctx := { c with starved := c.starved && c.state.moving }, drive := x.drive.permitted s.bench c.state,
                  mail := x.mail.shown x.ctx c, marks := s.hoistMarks x.ctx c x.marks, agenda := x.agenda } := by
  unfold State.setCtx
  simp only [putSite_ctx, putSite_modCtx, putSite_markIf, putSite_modMail]
  unfold Mail.shown DriveIf.permitted State.hoistMarks
  by_cases same : x.ctx.view = c.view
  · simp only [same, if_true, putSite_bench, putSite_modDrive]
    cases s.bench <;> rfl
  · simp only [same, if_false, putSite_bench, putSite_modDrive]
    cases s.bench <;> rfl

theorem putSite_putCtx (s : State) (h : Hoist) (x : Site) (c : DipCtx) : (s.putSite h x).putCtx h c =
    s.putSite h { ctx := { c with starved := c.starved && c.state.moving }, drive := x.drive.permitted s.bench c.state,
                  mail := x.mail.shown x.ctx c, marks := s.hoistMarks x.ctx c x.marks,
                  agenda := ⟨x.agenda.reports ++ s.conds h c x.drive, x.agenda.follow⟩ } := by
  unfold State.putCtx
  rw [putSite_setCtx, putSite_reportConds]
  rfl

/-! ### Motions -/

/-- A drive whose motion, where one ran, has been ended (R144). -/
def DriveIf.halted (d : DriveIf) : DriveIf :=
  if d.motion.isSome then { d with motion := none, readyT := none, brakeRel := false } else d

@[simp] theorem halted_motion (d : DriveIf) : d.halted.motion = none := by
  unfold DriveIf.halted; split
  · rfl
  · simpa using ‹¬d.motion.isSome = true›
@[simp] theorem halted_count (d : DriveIf) : d.halted.count = d.count := by unfold DriveIf.halted; split <;> rfl
@[simp] theorem halted_known (d : DriveIf) : d.halted.known = d.known := by unfold DriveIf.halted; split <;> rfl
@[simp] theorem halted_permit (d : DriveIf) : d.halted.permit = d.permit := by unfold DriveIf.halted; split <;> rfl
theorem halted_brake (d : DriveIf) (runs : d.motion.isSome = true) : d.halted.brakeRel = false := by
  unfold DriveIf.halted; rw [if_pos runs]
theorem halted_of_still (d : DriveIf) (still : d.motion = none) : d.halted = d := by
  unfold DriveIf.halted; rw [still]; rfl

/-- The reports that the cancel of a motion makes: none where no motion runs (R38, R144). -/
def State.haltConds (s : State) (h : Hoist) (c : DipCtx) (d : DriveIf) : List FaultReport :=
  if d.motion.isSome then s.conds h c d.halted else []

theorem putSite_haltMotion (s : State) (h : Hoist) (x : Site) : (s.putSite h x).haltMotion h =
    s.putSite h { x with drive := { x.drive with motion := none, readyT := none, brakeRel := false } } :=
  putSite_modDrive s h x _

theorem putSite_cancelMotion (s : State) (h : Hoist) (x : Site) : (s.putSite h x).cancelMotion h =
    s.putSite h { x with drive := x.drive.halted,
                         agenda := ⟨x.agenda.reports ++ s.haltConds h x.ctx x.drive, x.agenda.follow⟩ } := by
  unfold State.cancelMotion State.stopMotion State.haltConds
  rw [putSite_drive, putSite_haltMotion, putSite_reportConds]
  by_cases runs : x.drive.motion.isSome = true
  · rw [if_pos runs, if_pos runs, DriveIf.halted, if_pos runs]
  · rw [if_neg runs, if_neg runs, DriveIf.halted, if_neg runs, List.append_nil]

theorem putSite_dropMotion (s : State) (h : Hoist) (x : Site) : (s.putSite h x).dropMotion h =
    s.putSite h { x with drive := x.drive.halted } := by
  unfold State.dropMotion
  rw [putSite_drive, putSite_haltMotion]
  by_cases runs : x.drive.motion.isSome = true
  · rw [if_pos runs, DriveIf.halted, if_pos runs]
  · rw [if_neg runs, DriveIf.halted, if_neg runs]

/-- A drive that has been sent on a motion (R142). -/
def DriveIf.sent (d : DriveIf) (set : DriveSet) (cmd : MotionCmd) : DriveIf :=
  match cmd with
  | .move target rate | .lift target rate =>
    { d with motion := some ⟨.move target, rate⟩, dir := decide (target < d.count), brakeRel := true }
  | .recal =>
    { d with motion := some ⟨.recal set.travelLimit, set.homeSpeed⟩, dir := true, brakeRel := true, travel := 0,
             known := false }
  | .shake cycles amplitude =>
    { d with motion := some ⟨.shake cycles amplitude true (min Config.maxPosition (d.count + amplitude)),
      set.shakeSpeed⟩,
             dir := false, brakeRel := true }

/-- A motion commanded with the drive clear and the hook not there yet runs (R142). -/
theorem putSite_startMotion (s : State) (h : Hoist) (x : Site) (cmd : MotionCmd) (clear : s.driveClear h)
    (sure : cmd = .recal ∨ x.drive.known = true) (away : cmd.alreadyThere x.drive.count = false) :
    (s.putSite h x).startMotion h cmd =
      s.putSite h { x with
        drive := x.drive.halted.sent s.kept.drive cmd,
        agenda := ⟨x.agenda.reports ++ s.conds h x.ctx (x.drive.halted.sent s.kept.drive cmd), x.agenda.follow⟩ } := by
  obtain ⟨ready, faultless, untopped⟩ := clear
  have known : (cmd != .recal && !x.drive.known) = false := by
    rcases sure with rfl | e
    · rfl
    · rw [e]; simp
  unfold State.startMotion
  simp only [putSite_dropMotion, putSite_drive, halted_known, halted_count, known, putSite_inputs, faultless, away,
    Bool.false_eq_true, if_false]
  unfold State.runMotion State.startMeets
  simp only [putSite_modDrive, putSite_reportConds, putSite_inputs, untopped, putSite_drive, ready, Bool.false_eq_true,
    if_false, Bool.not_true, Bool.and_false]
  cases cmd <;> rfl

/-- A motion commanded with the drive clear to a hook that is there is reported at once (R142; log entry 25). -/
theorem putSite_startMotion_there (s : State) (h : Hoist) (x : Site) (cmd : MotionCmd) (clear : s.driveClear h)
    (sure : cmd = .recal ∨ x.drive.known = true) (there : cmd.alreadyThere x.drive.count = true) :
    (s.putSite h x).startMotion h cmd =
      s.putSite h { x with
        drive := x.drive.halted, mail := { x.mail with motions := x.mail.motions ++ [⟨cmd.moved, none⟩] },
        agenda := ⟨x.agenda.reports ++ s.conds h x.ctx x.drive.halted, x.agenda.follow⟩ } := by
  have known : (cmd != .recal && !x.drive.known) = false := by
    rcases sure with rfl | e
    · rfl
    · rw [e]; simp
  unfold State.startMotion State.motionReport
  simp only [putSite_dropMotion, putSite_drive, halted_known, halted_count, known, putSite_inputs, clear.2.1, there,
    putSite_reportConds, putSite_modMail, Bool.false_eq_true, if_false, if_true]

/-! ### Holds (R41) -/

/-- The Weighing Unit with what a dip context asked for gone (R110, R115). -/
def WeighUnit.without (w : WeighUnit) (h : Hoist) : WeighUnit :=
  { w with waiting := w.waiting.set h false, queue := w.queue.filter fun q => !(q.hoist == h && q.dc.isSome),
           service := if (w.service.map fun x => x.req.hoist == h && x.req.dc.isSome).getD false then none
             else w.service }

theorem putSite_dropWeigh (s : State) (h : Hoist) (x : Site) : (s.putSite h x).dropWeigh h =
    State.putSite { s with wu := s.wu.without h } h
      { x with ctx := { x.ctx with asked := .none }, mail := { x.mail with results := [] } } := by
  unfold State.dropWeigh
  dsimp only
  rw [putSite_modWu, putSite_modMail, putSite_modCtx]
  rfl

theorem without_queue (w : WeighUnit) (h : Hoist) : ∀ q ∈ (w.without h).queue, q.hoist = h → q.dc = none := by
  intro q hq e
  have kept := (List.mem_filter.1 hq).2
  simpa [e] using kept

theorem putSite_dropFailures (s : State) (h : Hoist) (x : Site) : (s.putSite h x).dropFailures h =
    s.putSite h { x with mail := { x.mail with motions := x.mail.motions.filter fun r => r.cause.isNone } } :=
  putSite_modMail s h x _

/-- A dip context put into HELD (R41). -/
def DipCtx.holding (c : DipCtx) : DipCtx :=
  { c with state := .held, heldFrom := some c.state, asked := .none, snag := false, lost := false, starved := false,
           returning := false }

/-- The immersion clock has not passed the limit of the pass (R43). -/
def DipCtx.inLimit (c : DipCtx) : Prop := ∀ l, c.latched = some l → c.clock.tenths ≤ l.limit

theorem overrunDue_of_inLimit (c : DipCtx) (i : c.inLimit) : c.overrunDue = false := by
  unfold DipCtx.overrunDue
  cases e : c.latched with
  | none => simp
  | some l => simp [i l e]

/-- The part of a hoist put into HELD (R41). -/
def State.heldSite (s : State) (h : Hoist) (x : Site) : Site :=
  { ctx := x.ctx.holding, drive := x.drive.halted.permitted s.bench .held,
    mail := { x.mail with results := [], motions := x.mail.motions.filter fun r => r.cause.isNone,
                          level := (x.mail.shown x.ctx x.ctx.holding).level },
    marks := s.hoistMarks x.ctx x.ctx.holding x.marks,
    agenda := ⟨x.agenda.reports ++ s.haltConds h x.ctx x.drive ++ s.conds h x.ctx.holding x.drive.halted,
      x.agenda.follow⟩ }

theorem putSite_enterHeld (s : State) (h : Hoist) (x : Site) (busy : x.ctx.state ≠ .parked) (free : x.ctx.state ≠ .held)
    (i : x.ctx.inLimit) :
    (s.putSite h x).enterHeld h = State.putSite { s with wu := s.wu.without h } h (s.heldSite h x) := by
  have due : x.ctx.holding.overrunDue = false := overrunDue_of_inLimit _ i
  unfold State.enterHeld State.checkOverrun
  simp only [putSite_ctx, busy, free, or_self, if_false, putSite_cancelMotion, putSite_dropWeigh, putSite_dropFailures,
    putSite_putCtx]
  unfold DipCtx.holding at due
  simp only [DipState.moving, Bool.and_false, due, Bool.false_eq_true, if_false]
  rfl

end Sys2Proof.Machine
end

section
/-! The end of a step: an agenda that brings no occurrence and no take leaves only the values of the conditions, and the
transmitter sends what is owed. A step that has changed one hoist's part ends so. -/

namespace Sys2Proof.Machine

set_option Elab.async false

/-! ### An agenda that changes no more than the values of conditions -/

/-- Reports that bring no occurrence: each condition reported present was so before (R176). -/
def quietReports (entries : Vector FaultEntry 14) : List FaultReport → Prop
  | [] => True
  | .cond k h present :: rs =>
    (present = true → (entries[k.ix]'k.ix.2).reported h = true) ∧
    quietReports (entries.set k.ix ((entries[k.ix]'k.ix.2).keepValue h present)) rs
  | .occur _ _ :: _ => False

theorem quietReports_of_absent (entries : Vector FaultEntry 14) (reports : List FaultReport)
    (a : reports.all FaultReport.absent = true) : quietReports entries reports := by
  induction reports generalizing entries with
  | nil => exact trivial
  | cons r rs ih =>
    simp only [List.all_cons, Bool.and_eq_true] at a
    cases r with
    | occur k h => simp [FaultReport.absent] at a
    | cond k h present =>
      have off : present = false := by simpa [FaultReport.absent] using a.1
      exact ⟨fun on => absurd (off.symm.trans on) Bool.false_ne_true, ih _ a.2⟩

/-- A take attempt that comes to nothing: no order waits for the hoist, or it is not PARKED (R8). -/
def Follow.resting (s : State) : Follow → Prop
  | .take h => s.offered h = none ∨ (s.ctxs[h]'h.2).state ≠ .parked
  | .rehang _ => False

theorem attemptTake_resting (s : State) (h : Hoist) (r : Follow.resting s (.take h)) : s.attemptTake h = s := by
  rcases r with none_waits | away
  · unfold State.attemptTake
    rw [none_waits]
  · exact attemptTake_busy s h (.inl away)

/-- The oldest report is taken first. -/
theorem settleFor_report (n : Nat) (s : State) (r : FaultReport) (rs : List FaultReport) (follow : List Follow)
    (a : s.agenda = ⟨r :: rs, follow⟩) :
    settleFor (n + 1) s = settleFor n (State.takeReport { s with agenda := ⟨rs, follow⟩ } r) := by
  have todo : s.agenda ≠ Agenda.empty := by rw [a]; simp [Agenda.empty]
  have one : s.settleOne = State.takeReport { s with agenda := ⟨rs, follow⟩ } r := by
    unfold State.settleOne
    rw [a]
  rw [settleFor, if_neg todo, one]

theorem settleFor_take (n : Nat) (s : State) (h : Hoist) (follow : List Follow)
    (a : s.agenda = ⟨[], .take h :: follow⟩) :
    settleFor (n + 1) s = settleFor n (State.attemptTake { s with agenda := ⟨[], follow⟩ } h) := by
  have todo : s.agenda ≠ Agenda.empty := by rw [a]; simp [Agenda.empty]
  have one : s.settleOne = State.attemptTake { s with agenda := ⟨[], follow⟩ } h := by
    unfold State.settleOne
    rw [a]
  rw [settleFor, if_neg todo, one]

/-- A report that brings no occurrence leaves its value. -/
theorem takeReport_quiet (s : State) (k : FaultKind) (h : Option Hoist) (present : Bool)
    (known : present = true → (s.entries[k.ix]'k.ix.2).reported h = true) : s.takeReport (.cond k h present) =
      { s with entries := s.entries.set k.ix ((s.entries[k.ix]'k.ix.2).keepValue h present) } := by
  have none_new : (present && !(s.entries[k.ix]'k.ix.2).reported h && k != .driveFault) = false := by
    cases present
    · rfl
    · rw [known rfl]; rfl
  unfold State.takeReport
  simp only [none_new, Bool.false_eq_true, if_false]
  rfl

theorem settleFor_resting (n : Nat) (s : State) (reports : List FaultReport) (follow : List Follow)
    (a : s.agenda = ⟨reports, follow⟩) (q : quietReports s.entries reports) (f : ∀ x ∈ follow, x.resting s)
    (b : reports.length + follow.length ≤ n) :
    settleFor n s = { s with entries := keepReports s.entries reports, agenda := Agenda.empty } := by
  induction n generalizing s reports follow with
  | zero =>
    have hr : reports = [] := List.eq_nil_of_length_eq_zero (by omega)
    have hf : follow = [] := List.eq_nil_of_length_eq_zero (by omega)
    subst hr hf
    have e : Agenda.empty = s.agenda := a.symm
    rw [settleFor, e]; rfl
  | succ n ih =>
    cases reports with
    | nil =>
      cases follow with
      | nil =>
        have e : Agenda.empty = s.agenda := a.symm
        rw [settleFor_of_empty _ _ a, e]; rfl
      | cons x xs =>
        cases x with
        | rehang h => exact (f (.rehang h) (by simp)).elim
        | take h =>
          have here := f (.take h) (by simp)
          rw [settleFor_take n s h xs a, attemptTake_resting { s with agenda := ⟨[], xs⟩ } h here]
          rw [ih { s with agenda := ⟨[], xs⟩ } [] xs rfl trivial (fun y hy => ?_) (by simp at b ⊢; omega)]
          have there := f y (by simp [hy])
          cases y with
          | take i => exact there
          | rehang i => exact there
    | cons r rs =>
      cases r with
      | occur k h => exact q.elim
      | cond k h present =>
        obtain ⟨known, later⟩ := q
        rw [settleFor_report n s _ rs follow a, takeReport_quiet { s with agenda := ⟨rs, follow⟩ } k h present known]
        rw [ih _ rs follow rfl later (fun y hy => ?_) (by simp at b ⊢; omega)]
        · rfl
        · have there := f y hy
          cases y with
          | take i => exact there
          | rehang i => exact there

/-! ### The transmitter's choice -/

/-- From one link to another the replies given have joined those owed, the transmitter has chosen where it was idle, and
nothing else has changed that a statement asks about (R194, R195). -/
structure Sent (l : Link) (rs : List Reply) (l' : Link) : Prop where
  owed : l'.owed = l.owed ++ rs
  latches : l'.latches = l.latches
  powerLatch : l'.powerLatch = l.powerLatch
  busy : l.tx.isSome = true → l' = { l with replies := l.replies ++ rs }
  marks : ∀ c : NoticeClass, l.tx.isSome = true ∨ l.replies ≠ [] → l'.marks[c.ix]'c.ix.2 = l.marks[c.ix]'c.ix.2
  begun : ∀ c : NoticeClass, l.marks[c.ix]'c.ix.2 = true → l'.marks[c.ix]'c.ix.2 = true ∨
    ∃ fields, l'.tx = some (.notice c fields)

theorem transmit_sent (s : State) (rs : List Reply) : ∃ link,
    (s.owing rs).transmit = { s with link := link } ∧ Sent s.link rs link := by
  refine ⟨(s.owing rs).transmit.link, ?_, ?_⟩
  · rw [transmit_only_link]; rfl
  have owed : (s.owing rs).transmit.link.owed = s.link.owed ++ rs := (transmit_owed _).trans (owing_owed s rs)
  cases sending : (s.owing rs).link.tx with
  | some f =>
    have same : (s.owing rs).transmit = s.owing rs := by unfold State.transmit; rw [sending]
    rw [same] at owed ⊢
    exact ⟨owed, rfl, rfl, fun _ => rfl, fun _ _ => rfl, fun _ m => .inl m⟩
  | none =>
    have idle : s.link.tx = none := sending
    cases waiting : (s.owing rs).link.replies with
    | cons r rest =>
      have chosen : (s.owing rs).transmit.link = { (s.owing rs).link with replies := rest, tx := some (.reply r) } := by
        unfold State.transmit; rw [sending, waiting]; rfl
      rw [chosen] at owed ⊢
      exact ⟨owed, rfl, rfl, fun b => absurd b (by rw [idle]; exact Bool.false_ne_true), fun _ _ => rfl,
        fun _ m => .inl m⟩
    | nil =>
      have unanswered : s.link.replies = [] := (List.append_eq_nil_iff.1 waiting).1
      cases marked : (s.owing rs).link.marked with
      | none =>
        have same : (s.owing rs).transmit = s.owing rs := by unfold State.transmit; rw [sending, waiting, marked]
        rw [same] at owed ⊢
        exact ⟨owed, rfl, rfl, fun _ => rfl, fun _ _ => rfl, fun _ m => .inl m⟩
      | some d =>
        have chosen : (s.owing rs).transmit = (s.owing rs).beginNotice d := by
          unfold State.transmit; rw [sending, waiting, marked]
        rw [chosen] at owed ⊢
        refine ⟨owed, rfl, rfl, fun b => absurd b (by rw [idle]; exact Bool.false_ne_true), fun c b => ?_,
          fun c m => ?_⟩
        · rcases b with b | b
          · rw [idle] at b; cases b
          · exact absurd unanswered b
        · by_cases e : c = d
          · subst e
            exact .inr ⟨_, rfl⟩
          · have stays : ((s.owing rs).beginNotice d).link.marks[c.ix]'c.ix.2 = s.link.marks[c.ix]'c.ix.2 :=
              Vector.getElem_set_ne d.ix.isLt c.ix.isLt fun i => e (NoticeClass.ix_inj (Fin.ext i.symm))
            exact .inl (stays.trans m)

/-- A class marked on the way is marked, or its notice begun, at the end of the step (R195, R196). -/
theorem noticeMarked_of_sent (s t : State) (c : NoticeClass) (now : Bool) (l : Link)
    (marks : l.marks[c.ix]'c.ix.2 = (s.link.marks[c.ix]'c.ix.2 || (now && s.kept.notices[c.ix]'c.ix.2)))
    (tx : l.tx = s.link.tx)
    (replies : l.replies = s.link.replies) (sent : Sent l [] t.link) : NoticeMarked s t c now := by
  refine ⟨fun busy => ?_, fun _ _ on => sent.begun c ?_⟩
  · rw [← tx, ← replies] at busy
    exact (sent.marks c busy).trans marks
  · rw [marks]
    rcases on with on | ⟨on, enabled⟩
    · rw [on]; rfl
    · rw [on, enabled]; simp

/-! ### The end of a step that has changed one hoist's part -/

/-- The state at the end of a step that has made `x` of a hoist's part and sent `link`. -/
def State.finished (s : State) (h : Hoist) (x : Site) (link : Link) : State :=
  { s with ctxs := s.ctxs.set h x.ctx, drives := s.drives.set h x.drive, mail := s.mail.set h x.mail,
           entries := keepReports s.entries x.agenda.reports, link := link }

/-- What is left to do after a part of a hoist has become `x` comes to no occurrence and no take. -/
structure Site.Quiet (x : Site) (s : State) (h : Hoist) : Prop where
  reports : quietReports s.entries x.agenda.reports
  follow : ∀ y ∈ x.agenda.follow, y.resting (s.putSite h x)
  short : x.agenda.reports.length + x.agenda.follow.length ≤ 200

theorem Site.quiet_of_absent (x : Site) (s : State) (h : Hoist)
    (absent : x.agenda.reports.all FaultReport.absent = true)
    (none_due : x.agenda.follow = []) (short : x.agenda.reports.length ≤ 200) : x.Quiet s h :=
  ⟨quietReports_of_absent _ _ absent, by rw [none_due]; simp, by rw [none_due, List.length_nil]; exact short⟩

/-- A step whose agenda is quiet leaves the values of the conditions and what it sends. -/
theorem finish_quiet (s : State) (reports : List FaultReport) (follow : List Follow) (rs : List Reply)
    (a : s.agenda = ⟨reports, follow⟩) (q : quietReports s.entries reports) (f : ∀ y ∈ follow, y.resting s)
    (b : reports.length + follow.length ≤ 200) : ∃ link,
    (s.owing rs).settle.transmit =
      { s with entries := keepReports s.entries reports, link := link, agenda := Agenda.empty } ∧
    Sent s.link rs link := by
  have settled : s.settle = { s with entries := keepReports s.entries reports, agenda := Agenda.empty } :=
    settleFor_resting _ s _ _ a q f b
  obtain ⟨link, sent, link_sent⟩ := transmit_sent s.settle rs
  have owing : (s.owing rs).settle = s.settle.owing rs := by
    unfold State.owing
    rw [settle_withReplies, settled]
  exact ⟨link, by rw [owing, sent, settled], by rw [settled] at link_sent; exact link_sent⟩

theorem finish_site (s : State) (h : Hoist) (x : Site) (rs : List Reply) (idle : s.agenda = Agenda.empty)
    (q : x.Quiet s h) : ∃ link,
    ((s.putSite h x).owing rs).settle.transmit = s.finished h x link ∧
    Sent { s.link with marks := x.marks } rs link := by
  obtain ⟨link, finished, sent⟩ := finish_quiet (s.putSite h x) _ _ rs rfl q.reports q.follow q.short
  refine ⟨link, ?_, sent⟩
  rw [finished, State.finished, ← idle]
  rfl

/-- A step that answers nothing and leaves `x` of one hoist's part. -/
theorem whileRunning_site (s u : State) (h : Hoist) (x : Site) (f : State → State) (live : s.ready)
    (e : f s = u.putSite h x) (idle : u.agenda = Agenda.empty) (q : x.Quiet u h) : ∃ link,
    (.next (s.whileRunning f) : Effect) = .next (u.finished h x link) ∧
    Sent { u.link with marks := x.marks } [] link := by
  obtain ⟨link, finished, sent⟩ := finish_site u h x [] idle q
  rw [owing_nil] at finished
  exact ⟨link, by rw [whileRunning_of_ready s f live, e, finished], sent⟩

section
variable (s : State) (h : Hoist) (x : Site) (link : Link)

@[simp] theorem finished_ctx : (s.finished h x link).ctxs[h]'h.2 = x.ctx := hoist_set_same _ _ _
@[simp] theorem finished_drive : (s.finished h x link).drives[h]'h.2 = x.drive := hoist_set_same _ _ _
@[simp] theorem finished_mail : (s.finished h x link).mail[h]'h.2 = x.mail := hoist_set_same _ _ _

theorem finished_others : ∀ i : Hoist, i ≠ h → (s.finished h x link).ctxs[i]'i.2 = s.ctxs[i]'i.2 ∧
    (s.finished h x link).drives[i]'i.2 = s.drives[i]'i.2 :=
  fun i ne => ⟨hoist_set_ne _ h i _ ne, hoist_set_ne _ h i _ ne⟩

theorem finished_only : s.finished h x link =
    { s with ctxs := (s.finished h x link).ctxs, drives := (s.finished h x link).drives,
             mail := (s.finished h x link).mail, entries := (s.finished h x link).entries, link := link } := rfl

end

/-! ### Requests of one hoist -/

/-- The reply of a request. -/
def replyTo (k : ReqKind) (tag : Nat) (r : Result) (fields : List Field) : Reply :=
  { kind := replyKind k.code, tag := tag, result := r, fields := fields }

/-- A request that names an installed hoist, carried out on it. -/
theorem request_forHoist (s : State) (l : s.listening) (k : ReqKind) (tag n : Nat) (h : Hoist)
    (named : s.hoist? n = some h)
    (f : State → Hoist → Answer) : s.request k tag (fun s => s.forHoist n (f s)) =
      ((f s.unbuilt h).state.owing [replyTo k tag (f s.unbuilt h).result (f s.unbuilt h).fields]).settle.transmit := by
  have named' : s.unbuilt.hoist? n = some h := named
  have answer : s.unbuilt.forHoist n (f s.unbuilt) = f s.unbuilt h := by
    unfold State.forHoist
    rw [named']
  rw [request_of_listening s k tag _ l]
  exact congrArg (fun a : Answer => (a.state.addReply k.code tag a.result a.fields).settle.transmit) answer

/-- A request on an installed hoist that leaves `x` of its part. -/
theorem request_site (s : State) (l : s.listening) (k : ReqKind) (tag n : Nat) (h : Hoist) (named : s.hoist? n = some h)
    (f : State → Hoist → Answer) (u : State) (x : Site) (r : Result) (fields : List Field)
    (e : f s.unbuilt h = ⟨u.unbuilt.putSite h x, r, fields⟩) (idle : u.agenda = Agenda.empty)
    (q : x.Quiet u h) : ∃ link,
    (.next (s.request k tag fun s => s.forHoist n (f s)) : Effect) = .next (u.finished h x link) ∧
    link.owed = u.link.owed ++ [replyTo k tag r fields] := by
  obtain ⟨link, finished, sent⟩ := finish_site u.unbuilt h x [replyTo k tag r fields] idle ⟨q.reports,
    q.follow, q.short⟩
  exact ⟨link, by rw [request_forHoist s l k tag n h named f, e, finished]; rfl, sent.owed⟩

/-- A request on an installed hoist that leaves nothing to do is its state with the reply. -/
theorem request_forHoist_replied (s : State) (l : s.listening) (k : ReqKind) (tag n : Nat) (h : Hoist)
    (named : s.hoist? n = some h) (f : State → Hoist → Answer) (t : State) (r : Result) (fields : List Field)
    (e : f s.unbuilt h = ⟨t.unbuilt, r, fields⟩) (idle : t.agenda = Agenda.empty) :
    s.request k tag (fun s => s.forHoist n (f s)) = t.replied k tag r fields := by
  have named' : s.unbuilt.hoist? n = some h := named
  rw [← replied_rx]
  refine request_replied s k tag _ l t.unbuilt r fields ?_ idle rfl
  have answer : s.unbuilt.forHoist n (f s.unbuilt) = f s.unbuilt h := by
    unfold State.forHoist
    rw [named']
  exact answer.trans e

end Sys2Proof.Machine
end

section
/-! A tenth of a second on an empty queue, and the setups that replace all their settings or none (R24, R42, R52, R80, R136,
R151, R171). -/

namespace Sys2Proof.Machine

set_option Elab.async false

/-! ### A tenth of a second (R24, R42, R80) -/

theorem tick_ctx (s : State) (h : Hoist) (running : s.power = .running) :
    s.tick.ctxs[h]'h.2 = (s.ctxs[h]'h.2).tick := by
  unfold State.tick
  rw [if_pos running]
  exact Vector.getElem_map _ _

theorem tick_drive (s : State) (h : Hoist) (running : s.power = .running) :
    s.tick.drives[h]'h.2 = (s.drives[h]'h.2).tick := by
  unfold State.tick
  rw [if_pos running]
  exact Vector.getElem_map _ _

theorem tick_entry (s : State) (k : Fin 14) (running : s.power = .running) :
    s.tick.entries[k]'k.2 = (s.entries[k]'k.2).tick := by
  unfold State.tick
  rw [if_pos running]
  exact Vector.getElem_map _ _

/-- The immersion clock a tenth later: it rises where it runs (R24). -/
theorem DipCtx.tick_clock (c : DipCtx) : c.tick.clock.run = c.clock.run ∧
    c.tick.clock.tenths = c.clock.tenths + if c.clock.run = .running then 1 else 0 := by
  unfold DipCtx.tick
  by_cases runs : c.clock.run = .running
  · simp only [runs, if_true, and_self]
  · simp only [runs, if_false, Nat.add_zero, and_self]

/-- Settles O2: the tick, part by part. -/
theorem emptyQueueLetsATenthPass : Obligations.EmptyQueueLetsATenthPass := by
  unfold Obligations.EmptyQueueLetsATenthPass
  intro s waits running
  refine ⟨s.tick, by unfold step; rw [waits], ?_, ?_, ?_, fun h => ⟨?_, ?_, ?_, ?_⟩, ?_, ?_, fun k => ?_⟩
  · unfold State.tick; rw [if_pos running]
  · unfold State.tick; rw [if_pos running]
  · unfold State.tick; rw [if_pos running]; rfl
  · rw [tick_ctx s h running]; rfl
  · rw [tick_ctx s h running]; exact (DipCtx.tick_clock _).1
  · rw [tick_ctx s h running]; exact (DipCtx.tick_clock _).2
  · rw [tick_drive s h running]; rfl
  · unfold State.tick; rw [if_pos running]; rfl
  · unfold State.tick; rw [if_pos running]; rfl
  · rw [tick_entry s k running]; rfl

/-! ### Settings replaced (R52, R136, R151, R171) -/

/-- A setup within its ranges leaves the new settings and its reply, another its refusal alone. -/
theorem setup_answered (s : State) (l : s.listening) (k : ReqKind) (tag : Nat) (r : Retained) (ok : Bool)
    (f : State → Answer) (e : f s.unbuilt = if ok then State.okay { s.unbuilt with kept := r } else
      s.unbuilt.refuse .badValue) :
    s.request k tag f = if ok then { s with kept := r }.replied k tag .ok else s.replied k tag .badValue := by
  cases ok with
  | false => exact request_read s l k tag f .badValue [] e
  | true =>
    rw [if_pos rfl] at e ⊢
    rw [request_replied s k tag f l _ .ok [] e l.1.2 rfl]
    exact replied_rx { s with kept := r } k tag .ok []

theorem CycleSet.ok_iff (c : CycleSet) : c.ok = true ↔ (10 ≤ c.alignTimeout ∧ c.alignTimeout ≤ 600) ∧
    (50 ≤ c.abortSpeed ∧ c.abortSpeed ≤ 300) ∧ c.abortDrain ≤ 1200 ∧ c.overrun ≤ 6000 := by
  simp [CycleSet.ok, within, and_assoc]

theorem LevelSet.ok_iff (l : LevelSet) : l.ok = true ↔ l.refDepth ≤ 8000 ∧ l.refInventory ≤ 20000000 ∧
    (10 ≤ l.coefficient ∧ l.coefficient ≤ 10000) ∧ (5 ≤ l.band ∧ l.band ≤ 500) ∧
    (30 ≤ l.ageLimit ∧ l.ageLimit ≤ 600) := by
  simp [LevelSet.ok, within, and_assoc]

theorem DriveSet.ok_iff (d : DriveSet) : d.ok = true ↔ (20 ≤ d.homeSpeed ∧ d.homeSpeed ≤ 300) ∧
    (100 ≤ d.travelLimit ∧ d.travelLimit ≤ 8000) ∧ (5 ≤ d.readyTimeout ∧ d.readyTimeout ≤ 100) ∧
    (50 ≤ d.shakeSpeed ∧ d.shakeSpeed ≤ 500) := by
  simp [DriveSet.ok, within, and_assoc]

/-- Settles O11: each setup is judged by its ranges and replaces one record of the retained area. -/
theorem settingsReplaced : Obligations.SettingsReplaced := by
  unfold Obligations.SettingsReplaced
  refine fun s tag l => ⟨fun c => ?_, fun v => ?_, fun d => ?_, fun f => ?_⟩
  · simp only [← CycleSet.ok_iff]
    exact congrArg _ (setup_answered s l .cycleSetup tag { s.kept with cycle := c } c.ok _ rfl)
  · simp only [← LevelSet.ok_iff]
    exact congrArg _ (setup_answered s l .levelSetup tag { s.kept with level := v } v.ok _ rfl)
  · simp only [← DriveSet.ok_iff]
    exact congrArg _ (setup_answered s l .driveSetup tag { s.kept with drive := d } d.ok _ rfl)
  · exact congrArg _ (setup_answered s l .feedSetup tag { s.kept with feed := f.toSet } f.ok _ rfl)

end Sys2Proof.Machine
end

section
/-! HOIST_RUN and HOIST_STOP, HOIST_HOLD and the failed motion (R40, R41, R51, R142). -/

namespace Sys2Proof.Machine

set_option Elab.async false

/-! ### Reports of conditions that are absent -/

theorem absentConds_absent (h : Hoist) : (absentConds h).all FaultReport.absent = true := rfl

theorem conds_absent (s : State) (h : Hoist) (c : DipCtx) (d : DriveIf) (u : s.unwatched h c) :
    (s.conds h c d).all FaultReport.absent = true := by
  rw [conds_of_unwatched s h c d u]
  exact absentConds_absent h

theorem haltConds_absent (s : State) (h : Hoist) (c : DipCtx) (d : DriveIf) (u : s.unwatched h c) :
    (s.haltConds h c d).all FaultReport.absent = true := by
  unfold State.haltConds; split
  · exact conds_absent s h c _ u
  · rfl

theorem conds_length (s : State) (h : Hoist) (c : DipCtx) (d : DriveIf) : (s.conds h c d).length = 2 := rfl

theorem haltConds_length (s : State) (h : Hoist) (c : DipCtx) (d : DriveIf) : (s.haltConds h c d).length ≤ 2 := by
  unfold State.haltConds; split
  · exact Nat.le_of_eq (conds_length s h c _)
  · exact Nat.zero_le 2

/-! ### The hold (R41) -/

theorem enterHeld_eq (s : State) (h : Hoist) (busy : (s.ctxs[h]'h.2).state ≠ .parked)
    (free : (s.ctxs[h]'h.2).state ≠ .held)
    (i : (s.ctxs[h]'h.2).inLimit) :
    s.enterHeld h = State.putSite { s with wu := s.wu.without h } h (s.heldSite h (s.site h)) := by
  have e := putSite_enterHeld s h (s.site h) busy free i
  rwa [putSite_site] at e

/-- The hold of a hoist whose station is clear reports no condition present. -/
theorem heldSite_quiet (s u : State) (h : Hoist) (x : Site) (clear : s.stationClear h)
    (idle : x.agenda = Agenda.empty) :
    (s.heldSite h x).Quiet u h := by
  have two := haltConds_length s h x.ctx x.drive
  have unwatched := unwatched_of_clear s h
  refine Site.quiet_of_absent _ u h ?_ (congrArg Agenda.follow idle) ?_
  all_goals
    unfold State.heldSite
    simp only [idle, Agenda.empty, List.nil_append, List.all_append, List.length_append, conds_length, Bool.and_eq_true]
  · exact ⟨haltConds_absent s h _ _ (unwatched _ clear), conds_absent s h _ _ (unwatched _ clear)⟩
  · omega

theorem hoistHold_held (s : State) (tag n : Nat) (h : Hoist) (l : s.listening) (named : s.hoist? n = some h)
    (busy : (s.ctxs[h]'h.2).state ≠ .parked) (free : (s.ctxs[h]'h.2).state ≠ .held) (clear : s.stationClear h)
    (i : (s.ctxs[h]'h.2).inLimit) : ∃ link, exec (.hoistHold tag n) s =
      .next (State.finished { s with wu := s.wu.without h } h (s.heldSite h (s.site h)) link) ∧
      link.owed = s.link.owed ++ [replyTo .hoistHold tag .ok [fN 1 (s.ctxs[h]'h.2).state.code]] := by
  have busy' : (s.unbuilt.ctxs[h]'h.2).state ≠ .parked := busy
  have held := enterHeld_eq s.unbuilt h busy' free i
  have shown : (s.unbuilt.enterHeld h).heldField h = [fN 1 (s.ctxs[h]'h.2).state.code] := by
    unfold State.heldField
    rw [held, putSite_ctx]
    rfl
  refine request_site s l .hoistHold tag n h named _ { s with wu := s.wu.without h } (s.heldSite h (s.site h)) .ok _ ?_
    l.1.2 (heldSite_quiet s _ h (s.site h) clear l.1.2)
  rw [if_neg busy', shown, held]
  rfl

theorem motionFailed_held (s : State) (h : Hoist) (m : Moved) (c : FailCause) (rest : List MotionReport)
    (live : s.ready)
    (reported : (s.mail[h]'h.2).motions = ⟨m, some c⟩ :: rest) (busy : (s.ctxs[h]'h.2).state ≠ .parked)
    (free : (s.ctxs[h]'h.2).state ≠ .held) (clear : s.stationClear h) (i : (s.ctxs[h]'h.2).inLimit) : ∃ link,
    exec (.motionFailed h) s = .next (State.finished { s with wu := s.wu.without h } h
      (s.heldSite h { s.site h with mail := { s.mail[h]'h.2 with motions := rest } }) link) := by
  have popped := putSite_modMail s h (s.site h) fun x => { x with motions := rest }
  rw [putSite_site] at popped
  obtain ⟨link, step, _⟩ := whileRunning_site s { s with wu := s.wu.without h } h _ (fun s =>
    match (s.mail[h]'h.2).motions with
    | ⟨_, some _⟩ :: rs => (s.modMail h fun x => { x with motions := rs }).enterHeld h
    | _ => s) live
    (by
      simp only [reported]
      rw [popped]
      exact putSite_enterHeld s h _ busy free i)
    live.2 (heldSite_quiet s _ h _ clear live.2)
  exact ⟨link, step⟩

/-- Settles O23: a hold, by request or by a failed motion, puts one hoist's part into HELD. -/
theorem holdEntersHeld : Obligations.HoldEntersHeld := by
  unfold Obligations.HoldEntersHeld
  refine ⟨fun s tag n h l named => ⟨fun parked => ?_, fun held => ?_, fun busy free clear i => ?_⟩,
    fun s h m c rest live clear reported busy free i => ?_⟩
  · exact congrArg _ (request_forHoist_replied s l .hoistHold tag n h named _ s .wrongState [] (if_pos parked) l.1.2)
  · have held' : (s.unbuilt.ctxs[h]'h.2).state = .held := held
    have same : s.unbuilt.enterHeld h = s.unbuilt := if_pos (.inr held')
    refine congrArg _ (request_forHoist_replied s l .hoistHold tag n h named _ s .ok _ ?_ l.1.2)
    rw [same, held']
    rfl
  · obtain ⟨link, step, owed⟩ := hoistHold_held s tag n h l named busy free clear i
    refine ⟨_, step, owed, rfl, finished_ctx _ h _ link, ?_, ?_, ?_, fun runs => ?_, fun bench => ?_,
      without_queue s.wu h, ?_, finished_others _ h _ link⟩
    all_goals simp only [finished_drive, finished_mail, State.heldSite, DriveIf.permitted, State.site, halted_motion,
      halted_count, halted_known]
    · exact halted_brake _ runs
    · rw [bench]; rfl
  · obtain ⟨link, step⟩ := motionFailed_held s h m c rest live reported busy free clear i
    refine ⟨_, step, ?_, ?_, ?_, ?_, ?_, rfl, rfl, rfl, finished_others _ h _ link⟩
    all_goals simp only [finished_ctx, finished_drive, finished_mail, State.heldSite, DriveIf.permitted, State.site,
      DipCtx.holding, halted_motion, halted_known]

/-! ### HOIST_RUN and HOIST_STOP (R51) -/

/-- The part of a hoist sent into RECAL (R48). -/
def State.recalSite (s : State) (h : Hoist) (x : Site) (ret : Option DipState) : Site :=
  let c : DipCtx := { x.ctx with state := .recal, heldFrom := none, ret := ret }
  let d := (x.drive.permitted s.bench .recal).halted.sent s.kept.drive .recal
  { ctx := c, drive := d, mail := x.mail.shown x.ctx c, marks := s.hoistMarks x.ctx c x.marks,
    agenda := ⟨x.agenda.reports ++ s.conds h c d, x.agenda.follow⟩ }

theorem putSite_toRecal (s : State) (h : Hoist) (x : Site) (ret : Option DipState) (clear : s.driveClear h) :
    (s.putSite h x).toRecal h ret = s.putSite h (s.recalSite h x ret) := by
  unfold State.toRecal
  rw [putSite_ctx, putSite_setCtx, putSite_startMotion s h _ .recal clear (.inl rfl) rfl]
  simp only [DipState.moving, Bool.and_true]
  rfl

/-- A recalibration of a hoist without a load over the kettle is not watched by ALIGN_LOST (R38). -/
theorem unwatched_recal (s : State) (h : Hoist) (c : DipCtx) (ret : DipState) (calm : ret.needsAligned = false)
    (area : (s.inputs[h]'h.2).areaClear = true) :
    s.unwatched h { c with state := .recal, heldFrom := none, ret := some ret } := by
  refine ⟨.inr ?_, .inl area⟩
  have stands : DipCtx.standsIn { c with state := .recal, heldFrom := none, ret := some ret } = [.recal, ret] := rfl
  rw [stands]
  simp only [List.any_cons, calm]
  rfl

/-- The event of R9 after a change of run enable comes to nothing, and the reply is all that follows. -/
theorem followUp_replied (s : State) (k : ReqKind) (tag : Nat) (r : Result) (fields : List Field) (h : Hoist)
    (idle : s.agenda = Agenda.empty) (rests : Follow.resting s (.take h)) :
    ((s.unbuilt.followUp (.take h)).owing [replyTo k tag r fields]).settle.transmit = s.replied k tag r fields := by
  have due : (s.unbuilt.followUp (.take h)).agenda = ⟨[], [.take h]⟩ := by
    simp only [State.followUp, State.unbuilt, modLink_agenda, idle]; rfl
  have rested : (s.unbuilt.followUp (.take h)).settle = s.unbuilt := by
    refine (settleFor_resting _ (s.unbuilt.followUp (.take h)) [] [.take h] due trivial (fun y hy => ?_)
      (Nat.le_of_ble_eq_true rfl)).trans ?_
    · rw [List.mem_singleton.1 hy]
      exact rests
    · rw [← idle]; rfl
  have owing : ((s.unbuilt.followUp (.take h)).owing [replyTo k tag r fields]).settle =
      s.unbuilt.addReply k.code tag r fields := by
    unfold State.owing
    rw [settle_withReplies, rested]
    rfl
  rw [owing, addReply_transmit s.unbuilt k tag r fields rfl]
  exact replied_rx s k tag r fields

theorem hoistRun_on (s : State) (tag n : Nat) (h : Hoist) (l : s.listening) (named : s.hoist? n = some h)
    (q : s.noneQueued) (stays : s.runRecals h = false) : exec (.hoistRun tag n) s = .next
      ({ s with ctxs := s.ctxs.set h { s.ctxs[h]'h.2 with runEnable := true } }.replied .hoistRun tag .ok) := by
  have stays' : s.unbuilt.runRecals h = false := stays
  refine congrArg Host.Outcome.next ((request_forHoist s l .hoistRun tag n h named fun s h =>
    if s.runRecals h then
      (((s.modCtx h fun c => { c with runEnable := true }).startRecal h).followUp
        (.take h)).okay [fN 1 DipState.recal.code]
    else ((s.modCtx h fun c => { c with runEnable := true }).followUp (.take h)).okay).trans ?_)
  simp only [stays', Bool.false_eq_true, if_false]
  exact followUp_replied { s with ctxs := s.ctxs.set h { s.ctxs[h]'h.2 with runEnable := true } } .hoistRun tag .ok [] h
    l.1.2
    (.inl (offered_of_noneQueued s h q))

/-- HOIST_RUN sends a PARKED hoist of unknown position into RECAL (R51). -/
theorem hoistRun_recal (s : State) (tag n : Nat) (h : Hoist) (l : s.listening) (named : s.hoist? n = some h)
    (parked : (s.ctxs[h]'h.2).state = .parked) (unknown : (s.drives[h]'h.2).known = false) (unbenched : s.bench = false)
    (free : s.stopAll = false) (clear : s.driveClear h) (area : (s.inputs[h]'h.2).areaClear = true) (x : Site)
    (on : x = { s.site h with ctx := { s.ctxs[h]'h.2 with runEnable := true } }) : ∃ link,
    exec (.hoistRun tag n) s = .next (s.finished h (s.recalSite h x (some .parked)) link) ∧
      link.owed = s.link.owed ++ [replyTo .hoistRun tag .ok [fN 1 12]] := by
  have recals : s.unbuilt.runRecals h = true := by
    have p : (s.unbuilt.ctxs[h]'h.2).state = .parked := parked
    have u : (s.unbuilt.drives[h]'h.2).known = false := unknown
    have b : s.unbuilt.bench = false := unbenched
    unfold State.runRecals
    rw [p, u, b]
    rfl
  have on' : s.unbuilt.modCtx h (fun c => { c with runEnable := true }) = s.unbuilt.putSite h x := by
    have e := putSite_modCtx s.unbuilt h (s.unbuilt.site h) fun c => { c with runEnable := true }
    rw [putSite_site] at e
    rw [on]
    exact e
  have idle : x.agenda = Agenda.empty := by rw [on]; exact l.1.2
  have free' : (s.unbuilt.putSite h (s.unbuilt.recalSite h x (some .parked))).stopAll = false := free
  have calm := conds_absent s h _ (((x.drive.permitted s.bench .recal).halted).sent s.kept.drive .recal)
    (unwatched_recal s h x.ctx .parked rfl area)
  refine request_site s l .hoistRun tag n h named _ s
    { s.recalSite h x (some .parked) with agenda := ⟨(s.recalSite h x (some .parked)).agenda.reports, [.take h]⟩ } .ok
    [fN 1 12] ?_ l.1.2 ⟨quietReports_of_absent _ _ ?_, fun y hy => ?_, ?_⟩
  · rw [if_pos recals, on', State.startRecal, putSite_toRecal s.unbuilt h x _ clear, if_neg (by rw [free']; simp)]
    unfold State.recalSite
    rw [putSite_followUp, idle]
    rfl
  · unfold State.recalSite
    simp only [idle, Agenda.empty, List.nil_append]
    exact calm
  · rw [List.mem_singleton.1 hy]
    refine .inr ?_
    rw [putSite_ctx]
    exact fun e => by cases e
  · unfold State.recalSite
    simp only [idle, Agenda.empty, List.nil_append, conds_length, List.length_cons, List.length_nil]
    omega

/-- Settles O22: run enable is set in place; the recalibration is the part of one hoist sent into RECAL. -/
theorem runAndStop : Obligations.RunAndStop := by
  unfold Obligations.RunAndStop
  refine fun s tag n h l named => ⟨?_, fun q stays => ?_, fun parked unknown unbenched free clear area => ?_⟩
  · exact congrArg _ (request_forHoist_replied s l .hoistStop tag n h named _
      { s with ctxs := s.ctxs.set h { s.ctxs[h]'h.2 with runEnable := false } } .ok [] rfl l.1.2)
  · refine hoistRun_on s tag n h l named q ?_
    unfold State.runRecals
    rcases stays with away | known | bench
    · rw [beq_false_of_ne away]; rfl
    · rw [known]; simp
    · rw [bench]; simp
  · obtain ⟨link, step, owed⟩ := hoistRun_recal s tag n h l named parked unknown unbenched free clear area _ rfl
    refine ⟨_, step, owed, rfl, ?_, ?_, ?_, ?_, ?_, ?_, ?_, ?_, ?_, ?_, finished_others _ h _ link⟩
    all_goals simp only [finished_ctx, finished_drive, State.recalSite, DriveIf.sent, halted_permit, halted_count]
    · simp only [DriveIf.permitted, unbenched]; rfl
    · rfl

end Sys2Proof.Machine
end

section
/-! What brings a pass on its way: the grant and ALIGNED, the weigh request, REHANG_DONE (R26 to R28, R37, R89, R90, R93,
R110). -/

namespace Sys2Proof.Machine

set_option Elab.async false

/-! ### Where a dip context stands -/

theorem standsIn_held (c : DipCtx) (st : DipState) (held : c.state = .held) (from_ : c.heldFrom = some st)
    (still : st ≠ .recal) : c.standsIn = [.held, st] := by
  have effective : c.effective = st := by
    unfold DipCtx.effective
    rw [if_pos held, from_]
    rfl
  unfold DipCtx.standsIn
  rw [effective, if_neg still, if_pos held, held, from_]
  rfl

theorem standsIn_plain (c : DipCtx) (free : c.state ≠ .held) (still : c.state ≠ .recal) : c.standsIn = [c.state] := by
  unfold DipCtx.standsIn
  rw [effective_of_not_held c free, if_neg still, if_neg free]
  rfl

/-- A state in which neither ALIGNED nor AREA_CLEAR is watched (R38). -/
def DipState.calm (st : DipState) : Bool := !st.needsAligned && !st.moving && st != .drain

theorem unwatched_of_calm (s : State) (h : Hoist) (c : DipCtx) (calm : c.state.calm = true)
    (level : c.standsIn.any DipState.needsAligned = false) : s.unwatched h c := by
  simp only [DipState.calm, Bool.and_eq_true, Bool.not_eq_true', bne_iff_ne] at calm
  exact ⟨.inr level, .inr ⟨calm.1.2, calm.2⟩⟩

theorem unwatched_plain (s : State) (h : Hoist) (c : DipCtx) (calm : c.state.calm = true) (free : c.state ≠ .held)
    (still : c.state ≠ .recal) : s.unwatched h c := by
  refine unwatched_of_calm s h c calm ?_
  simp only [DipState.calm, Bool.and_eq_true, Bool.not_eq_true'] at calm
  rw [standsIn_plain c free still, List.any_cons, calm.1.1]
  rfl

theorem unwatched_held (s : State) (h : Hoist) (c : DipCtx) (st : DipState) (held : c.state = .held)
    (from_ : c.heldFrom = some st) (still : st ≠ .recal) (level : st.needsAligned = false) : s.unwatched h c := by
  refine unwatched_of_calm s h c (by rw [held]; rfl) ?_
  rw [standsIn_held c st held from_ still, List.any_cons, List.any_cons, level]
  rfl

/-! ### A weigh request (R28, R110) -/

/-- The Weighing Unit after a dip context has asked for its weighing. -/
def WeighUnit.askedBy (w : WeighUnit) (h : Hoist) (c : DipCtx) : WeighUnit :=
  if w.queue.any fun q => q.hoist == h then { w with waiting := w.waiting.set h true }
  else match c.order, c.pass with
    | some o, some p => { w with queue := w.queue ++ [⟨h, some (o.tag, p)⟩] }
    | _, _ => w

/-- Where the request of a dip context then stands. -/
def WeighUnit.placeOf (w : WeighUnit) (h : Hoist) (c : DipCtx) : Asked :=
  if w.queue.any fun q => q.hoist == h then .unplaced
  else match c.order, c.pass with
    | some _, some _ => .placed
    | _, _ => c.asked

theorem putSite_placeWeigh (s : State) (h : Hoist) (x : Site) : (s.putSite h x).placeWeigh h =
    State.putSite { s with wu := s.wu.askedBy h x.ctx } h
      { x with ctx := { x.ctx with asked := s.wu.placeOf h x.ctx } } := by
  unfold State.placeWeigh WeighUnit.askedBy WeighUnit.placeOf
  simp only [putSite_wu, putSite_ctx, putSite_modWu, putSite_modCtx]
  split
  · rfl
  · obtain ⟨c, d, m, k, a⟩ := x
    rcases c with ⟨_, _, _, order, pass⟩
    cases order <;> cases pass <;> rfl

/-- A request made by a dip context with the order and pass of `s` is that of R28. -/
theorem weighAsked_of (s t : State) (h : Hoist) (c : DipCtx) (order : c.order = (s.ctxs[h]'h.2).order)
    (pass : c.pass = (s.ctxs[h]'h.2).pass) (wu : t.wu = s.wu.askedBy h c)
    (asked : (t.ctxs[h]'h.2).asked = s.wu.placeOf h c) :
    WeighAsked s t h := by
  refine ⟨fun r p ordered passed free => ?_, fun ⟨q, hq, e⟩ => ?_⟩
  · have none_there : (s.wu.queue.any fun q => q.hoist == h) = false := by simpa using free
    rw [wu, asked, WeighUnit.askedBy, WeighUnit.placeOf, order, pass, ordered, passed, none_there]
    exact ⟨rfl, rfl⟩
  · have there : (s.wu.queue.any fun q => q.hoist == h) = true := List.any_eq_true.2 ⟨q, hq, by simpa using e⟩
    rw [wu, asked, WeighUnit.askedBy, WeighUnit.placeOf, there]
    exact ⟨rfl, rfl⟩

/-! ### ALIGNING and WEIGH_IN (R27, R28) -/

/-- A dip context on entry to WEIGH_IN. -/
def DipCtx.weighing (c : DipCtx) : DipCtx :=
  { c with state := .weighIn, heldFrom := none, alignT := none, starved := false }

/-- The part of a hoist that enters WEIGH_IN, its request made. -/
def State.weighInSite (s : State) (h : Hoist) (x : Site) : Site :=
  { ctx := { x.ctx.weighing with asked := s.wu.placeOf h x.ctx }, drive := x.drive.permitted s.bench .weighIn,
    mail := x.mail.shown x.ctx x.ctx.weighing, marks := s.hoistMarks x.ctx x.ctx.weighing x.marks,
    agenda := ⟨x.agenda.reports ++ s.conds h x.ctx.weighing x.drive, x.agenda.follow⟩ }

theorem putSite_toWeighIn (s : State) (h : Hoist) (x : Site) : (s.putSite h x).toWeighIn h =
    State.putSite { s with wu := s.wu.askedBy h x.ctx } h (s.weighInSite h x) := by
  unfold State.toWeighIn
  simp only [putSite_ctx, putSite_putCtx, DipState.moving, Bool.and_false]
  rw [putSite_placeWeigh]
  rfl

theorem unwatched_weighing (s : State) (h : Hoist) (c : DipCtx) (aligned : (s.inputs[h]'h.2).aligned = true) :
    s.unwatched h c.weighing :=
  ⟨.inl aligned, .inr ⟨rfl, by simp [DipCtx.weighing]⟩⟩

theorem putSite_checkAligned_present (s : State) (h : Hoist) (x : Site) (aligning : x.ctx.state = .aligning)
    (aligned : (s.inputs[h]'h.2).aligned = true) : (s.putSite h x).checkAligned h =
    State.putSite { s with wu := s.wu.askedBy h x.ctx } h (s.weighInSite h x) := by
  unfold State.checkAligned
  simp only [putSite_ctx, putSite_inputs, aligning, aligned, and_self, if_true]
  exact putSite_toWeighIn s h x

theorem putSite_checkAligned_absent (s : State) (h : Hoist) (x : Site) (unaligned : (s.inputs[h]'h.2).aligned = false) :
    (s.putSite h x).checkAligned h = s.putSite h x := by
  unfold State.checkAligned
  simp only [putSite_inputs, unaligned, Bool.false_eq_true, and_false, if_false]

/-! ### CLAIM_GRANT (R27, R93) -/

/-- A grant answers the outstanding claim of a dip context (R93). -/
def DipCtx.answeredBy (c : DipCtx) (g : Grant) : Prop :=
  c.claim = some g.serial ∧ c.order.map OrderRef.tag = some g.tag ∧ c.pass = some g.pass

/-- A dip context whose claim has been granted, the align timer loaded (R27). -/
def DipCtx.granted (c : DipCtx) (timer : Nat) : DipCtx := { c with claim := none, alignT := some timer }

theorem takeGrant_discards (s : State) (h : Hoist) (g : Grant) (c : DipCtx) (own : s.ctxs[h]'h.2 = c)
    (other : ¬c.answeredBy g ∨ (c.state ≠ .staged ∧ ¬(c.state = .held ∧ c.heldFrom = some .staged))) :
    s.takeGrant h g = s := by
  unfold State.takeGrant
  simp only [own]
  rcases other with alien | ⟨unstaged, unheld⟩
  · exact if_neg alien
  · simp only [if_neg unstaged, if_neg unheld, ite_self]

theorem putSite_takeGrant_held (s : State) (h : Hoist) (x : Site) (g : Grant) (mine : x.ctx.answeredBy g)
    (held : x.ctx.state = .held) (from_ : x.ctx.heldFrom = some .staged) : (s.putSite h x).takeGrant h g =
    (s.putSite h x).putCtx h { x.ctx.granted (s.kept.cycle.alignTimeout * 10) with heldFrom := some .aligning } := by
  unfold State.takeGrant
  simp only [putSite_ctx, putSite_kept]
  have unstaged : x.ctx.state ≠ .staged := by rw [held]; decide
  exact (if_pos mine).trans ((if_neg unstaged).trans (if_pos ⟨held, from_⟩))

theorem putSite_takeGrant_staged (s : State) (h : Hoist) (x : Site) (g : Grant) (mine : x.ctx.answeredBy g)
    (staged : x.ctx.state = .staged) : (s.putSite h x).takeGrant h g =
    ((s.putSite h x).putCtx h {
      x.ctx.granted (s.kept.cycle.alignTimeout * 10) with state := .aligning }).checkAligned h := by
  unfold State.takeGrant
  simp only [putSite_ctx, putSite_kept]
  exact (if_pos mine).trans (if_pos staged)

/-- The part of a hoist whose oldest grant has been taken out of its mail. -/
def State.grantTaken (s : State) (h : Hoist) (gs : List Grant) : Site :=
  { s.site h with mail := { s.mail[h]'h.2 with grants := gs } }

theorem modMail_grants (s : State) (h : Hoist) (gs : List Grant) :
    s.modMail h (fun m => { m with grants := gs }) = s.putSite h (s.grantTaken h gs) := by
  have e := putSite_modMail s h (s.site h) fun m => { m with grants := gs }
  rwa [putSite_site] at e

/-- The step of a grant that leaves `x` of the hoist's part. -/
theorem claimGrant_site (s : State) (h : Hoist) (g : Grant) (gs : List Grant) (live : s.ready)
    (handed : (s.mail[h]'h.2).grants = g :: gs) (u : State) (x : Site)
    (e : (s.putSite h (s.grantTaken h gs)).takeGrant h g = u.putSite h x) (idle : u.agenda = Agenda.empty)
    (q : x.Quiet u h) : ∃ link, exec (.claimGrant h) s = .next (u.finished h x link) := by
  obtain ⟨link, step, _⟩ := whileRunning_site s u h x (fun s => match (s.mail[h]'h.2).grants with
    | g :: gs => (s.modMail h fun m => { m with grants := gs }).takeGrant h g
    | [] => s) live (by
      simp only [handed]
      rw [modMail_grants, e]) idle q
  exact ⟨link, step⟩

/-- A part whose dip context and drive are as they were, with nothing reported, is a change of the mail alone. -/
theorem finished_mailOnly (s : State) (h : Hoist) (x : Site) (link : Link) (ctx : x.ctx = s.ctxs[h]'h.2)
    (drive : x.drive = s.drives[h]'h.2) (reports : x.agenda.reports = []) :
    s.finished h x link = { s with mail := s.mail.set h x.mail, link := link } := by
  unfold State.finished
  rw [ctx, drive, reports, hoist_set_get, hoist_set_get]
  rfl

theorem claimGrant_discarded (s : State) (h : Hoist) (g : Grant) (gs : List Grant) (live : s.ready)
    (handed : (s.mail[h]'h.2).grants = g :: gs) (other : ¬(s.ctxs[h]'h.2).answeredBy g ∨
      ((s.ctxs[h]'h.2).state ≠ .staged ∧ ¬((s.ctxs[h]'h.2).state = .held ∧
        (s.ctxs[h]'h.2).heldFrom = some .staged))) : ∃ link,
    exec (.claimGrant h) s =
      .next { s with mail := s.mail.set h { s.mail[h]'h.2 with grants := gs }, link := link } := by
  obtain ⟨link, step⟩ := claimGrant_site s h g gs live handed s (s.grantTaken h gs)
    (takeGrant_discards _ h g _ (putSite_ctx _ _ _) other) live.2
    (Site.quiet_of_absent _ s h (by simp only [State.grantTaken, State.site, live.2]; rfl)
      (congrArg Agenda.follow live.2) (by simp only [State.grantTaken, State.site, live.2]; exact Nat.zero_le _))
  rw [finished_mailOnly s h (s.grantTaken h gs) link rfl rfl (congrArg Agenda.reports live.2)] at step
  exact ⟨link, step⟩

/-- The part of a hoist put into contents that start no motion. -/
def State.ctxSite (s : State) (x : Site) (h : Hoist) (c : DipCtx) : Site :=
  { ctx := { c with starved := c.starved && c.state.moving }, drive := x.drive.permitted s.bench c.state,
    mail := x.mail.shown x.ctx c, marks := s.hoistMarks x.ctx c x.marks,
    agenda := ⟨x.agenda.reports ++ s.conds h c x.drive, x.agenda.follow⟩ }

/-- Contents in which no condition is watched leave nothing to do. -/
theorem ctxSite_quiet (s u : State) (x : Site) (h : Hoist) (c : DipCtx) (calm : s.unwatched h c)
    (idle : x.agenda = Agenda.empty) : (s.ctxSite x h c).Quiet u h := by
  have reports : (s.ctxSite x h c).agenda.reports = s.conds h c x.drive := by
    unfold State.ctxSite
    rw [idle]
    rfl
  refine Site.quiet_of_absent _ u h ?_ (congrArg Agenda.follow idle) ?_
  · rw [reports]; exact conds_absent s h c _ calm
  · rw [reports, conds_length]; omega

/-- The step of a grant taken in HELD from STAGED (R27). -/
theorem claimGrant_held (s : State) (h : Hoist) (g : Grant) (gs : List Grant) (live : s.ready)
    (handed : (s.mail[h]'h.2).grants = g :: gs) (mine : (s.ctxs[h]'h.2).answeredBy g)
    (held : (s.ctxs[h]'h.2).state = .held)
    (from_ : (s.ctxs[h]'h.2).heldFrom = some .staged) : ∃ link, exec (.claimGrant h) s = .next (s.finished h
      (s.ctxSite (s.grantTaken h gs) h
        { (s.ctxs[h]'h.2).granted (s.kept.cycle.alignTimeout * 10) with heldFrom := some .aligning }) link) := by
  have calm := unwatched_held s h
    { (s.ctxs[h]'h.2).granted (s.kept.cycle.alignTimeout * 10) with heldFrom := some .aligning }
    .aligning held rfl (by decide) rfl
  exact claimGrant_site s h g gs live handed s _
    ((putSite_takeGrant_held s h _ g mine held from_).trans (putSite_putCtx s h _ _)) live.2
    (ctxSite_quiet s s _ h _ calm live.2)

/-- A dip context in ALIGNING, its align timer loaded (R27). -/
def State.alignedCtx (s : State) (h : Hoist) : DipCtx :=
  { (s.ctxs[h]'h.2).granted (s.kept.cycle.alignTimeout * 10) with state := .aligning }

theorem claimGrant_aligning (s : State) (h : Hoist) (g : Grant) (gs : List Grant) (live : s.ready)
    (handed : (s.mail[h]'h.2).grants = g :: gs) (mine : (s.ctxs[h]'h.2).answeredBy g)
    (staged : (s.ctxs[h]'h.2).state = .staged)
    (unaligned : (s.inputs[h]'h.2).aligned = false) : ∃ link,
    exec (.claimGrant h) s = .next (s.finished h (s.ctxSite (s.grantTaken h gs) h (s.alignedCtx h)) link) := by
  have calm : s.unwatched h (s.alignedCtx h) := unwatched_plain s h _ rfl (fun e => nomatch e) (fun e => nomatch e)
  have taken : (s.putSite h (s.grantTaken h gs)).takeGrant h g =
      s.putSite h (s.ctxSite (s.grantTaken h gs) h (s.alignedCtx h)) := by
    rw [putSite_takeGrant_staged s h _ g mine staged, putSite_putCtx, putSite_checkAligned_absent s h _ unaligned]
    rfl
  exact claimGrant_site s h g gs live handed s _ taken live.2 (ctxSite_quiet s s _ h _ calm live.2)

theorem claimGrant_weighIn (s : State) (h : Hoist) (g : Grant) (gs : List Grant) (live : s.ready)
    (handed : (s.mail[h]'h.2).grants = g :: gs) (mine : (s.ctxs[h]'h.2).answeredBy g)
    (staged : (s.ctxs[h]'h.2).state = .staged)
    (aligned : (s.inputs[h]'h.2).aligned = true) : ∃ link,
    exec (.claimGrant h) s = .next (State.finished { s with wu := s.wu.askedBy h (s.alignedCtx h) } h
      (s.weighInSite h (s.ctxSite (s.grantTaken h gs) h (s.alignedCtx h))) link) := by
  have calm : s.unwatched h (s.alignedCtx h) := ⟨.inl aligned, .inr ⟨rfl, fun e => nomatch e⟩⟩
  have taken : (s.putSite h (s.grantTaken h gs)).takeGrant h g =
      State.putSite { s with wu := s.wu.askedBy h (s.alignedCtx h) } h
        (s.weighInSite h (s.ctxSite (s.grantTaken h gs) h (s.alignedCtx h))) := by
    rw [putSite_takeGrant_staged s h _ g mine staged, putSite_putCtx]
    exact putSite_checkAligned_present s h _ rfl aligned
  refine claimGrant_site s h g gs live handed _ _ taken live.2
    (Site.quiet_of_absent _ _ h ?_ (congrArg Agenda.follow live.2) ?_)
  all_goals
    have idle : (s.grantTaken h gs).agenda.reports = [] := congrArg Agenda.reports live.2
    simp only [State.weighInSite, State.ctxSite, idle, List.nil_append, List.all_append, List.length_append,
      conds_length,
      Bool.and_eq_true]
  · exact ⟨conds_absent s h _ _ calm, conds_absent s h _ _ (unwatched_weighing s h _ aligned)⟩
  · omega

/-- Settles O32: the grant is the dip context's own in STAGED or in HELD from it, or it is discarded. -/
theorem grantTaken : Obligations.GrantTaken := by
  unfold Obligations.GrantTaken
  refine fun s h g gs live handed => ⟨fun other => ?_, fun claim order pass held from_ => ?_,
    fun claim order pass staged => ?_⟩
  · obtain ⟨link, step⟩ := claimGrant_discarded s h g gs live handed (by
      rcases other with n | n | n | away
      · exact .inl fun mine => n mine.1
      · exact .inl fun mine => n mine.2.1
      · exact .inl fun mine => n mine.2.2
      · exact .inr away)
    exact ⟨_, step, rfl, hoist_set_same _ h _⟩
  · obtain ⟨link, step⟩ := claimGrant_held s h g gs live handed ⟨claim, order, pass⟩ held from_
    refine ⟨_, step, rfl, ?_, ?_, fun bench => ?_, finished_others s h _ link⟩
    · rw [finished_mail]; rfl
    · rw [finished_ctx]
      simp only [State.ctxSite, DipCtx.granted, held, DipState.moving, Bool.and_false]
    · rw [finished_drive]
      simp only [State.ctxSite, DriveIf.permitted, DipCtx.granted, held, bench]
      rfl
  · cases level : (s.inputs[h]'h.2).aligned with
    | false =>
      obtain ⟨link, step⟩ := claimGrant_aligning s h g gs live handed ⟨claim, order, pass⟩ staged level
      refine ⟨_, step, rfl, ?_, ?_, fun _ => ⟨?_, ?_, fun bench => ?_⟩, (fun on => nomatch on),
        finished_others s h _ link⟩
      · rw [finished_mail]; rfl
      · rw [finished_ctx]; rfl
      · rw [finished_ctx]; rfl
      · rw [finished_ctx]; rfl
      · rw [finished_drive]
        simp only [State.ctxSite, DriveIf.permitted, bench]
        rfl
    | true =>
      obtain ⟨link, step⟩ := claimGrant_weighIn s h g gs live handed ⟨claim, order, pass⟩ staged level
      obtain ⟨r, own, tag⟩ := Option.map_eq_some_iff.1 order
      refine ⟨_, step, rfl, ?_, ?_, (fun off => nomatch off), fun _ => ⟨?_, ?_, fun bench => ?_, fun free => ?_,
        fun taken => ?_⟩,
        finished_others _ h _ link⟩
      · rw [finished_mail]; rfl
      · rw [finished_ctx]; rfl
      · rw [finished_ctx]; rfl
      · rw [finished_ctx]; rfl
      · rw [finished_drive]
        simp only [State.weighInSite, State.ctxSite, DriveIf.permitted, bench]
        rfl
      · have asked := (weighAsked_of s (State.finished { s with wu := s.wu.askedBy h (s.alignedCtx h) } h
          (s.weighInSite h (s.ctxSite (s.grantTaken h gs) h (s.alignedCtx h))) link) h (s.alignedCtx h) rfl rfl rfl
          (by rw [finished_ctx]; rfl)).1 r g.pass own pass free
        rw [← tag]
        exact ⟨asked.2, congrArg WeighUnit.queue asked.1⟩
      · have asked := (weighAsked_of s (State.finished { s with wu := s.wu.askedBy h (s.alignedCtx h) } h
          (s.weighInSite h (s.ctxSite (s.grantTaken h gs) h (s.alignedCtx h))) link) h (s.alignedCtx h) rfl rfl rfl
          (by rw [finished_ctx]; rfl)).2 taken
        refine ⟨asked.2, by rw [asked.1], ?_⟩
        rw [asked.1]
        exact hoist_set_same _ h true

end Sys2Proof.Machine
end

section
/-! REHANG_DONE, and pass 2 that it begins (R26, R37, R89, R90). -/

namespace Sys2Proof.Machine

set_option Elab.async false

/-! ### The order of a dip context, changed in its place (R6) -/

/-- A change that keeps every slot keeps which order a slot finds. -/
theorem find_slot_map (l : List Order) (n : Nat) (f : Order → Order) (keeps : ∀ o, (f o).slot = o.slot) :
    (l.map f).find? (fun o => o.slot == n) = (l.find? fun o => o.slot == n).map f := by
  rw [List.find?_map]
  refine congrArg (Option.map f) (congrArg (fun p => l.find? p) (funext fun o => ?_))
  exact congrArg (· == n) (keeps o)

theorem orderOf_slot (s : State) (h : Hoist) (o : Order) (own : s.orderOf h = some o) :
    s.orders.find? (fun x => x.slot == o.slot) = some o ∧ ∃ r, (s.ctxs[h]'h.2).order = some r ∧ r.slot = o.slot := by
  unfold State.orderOf at own
  split at own
  · rename_i r ordered
    have slot : r.slot = o.slot := by
      have here := List.find?_some own
      exact (beq_iff_eq.1 here).symm
    exact ⟨slot ▸ own, r, ordered, slot⟩
  · cases own

/-- The order of a hoist after a change of it in the table. -/
theorem orderOf_of_map (s t : State) (h : Hoist) (o : Order) (f : Order → Order) (own : s.orderOf h = some o)
    (orders : t.orders = s.orders.map fun x => if x.slot = o.slot then f x else x)
    (r : OrderRef) (ordered : (t.ctxs[h]'h.2).order = some r) (slot : r.slot = o.slot)
    (slots : ∀ x, (f x).slot = x.slot) : t.orderOf h = some (f o) := by
  have found := (orderOf_slot s h o own).1
  have kept : ∀ x : Order, (if x.slot = o.slot then f x else x).slot = x.slot := by
    intro x; split
    · exact slots x
    · rfl
  unfold State.orderOf
  rw [ordered]
  simp only
  rw [orders, slot, find_slot_map _ _ _ kept, found]
  simp

/-! ### Pass 2 (R26, R37) -/

/-- From `s` to `t` a hoist's pass 2 has begun in STAGED, its dip context made from `c`: the order is ACTIVE in it, its
claim has arrived, the reservations are as they were. -/
def PassTwoBegun (s t : State) (h : Hoist) (o : Order) (c : DipCtx) : Prop :=
  t.ctxs[h]'h.2 = { c.beginPass ⟨o.slot, o.tag⟩ .two c.resv with claim := some s.nextSerial } ∧
  t.reserved = s.reserved ∧ t.kept = s.kept ∧ t.inputs = s.inputs ∧
  (∃ o', t.orderOf h = some o' ∧ o'.state = .active ∧ o'.pass = some .two ∧ o'.tag = o.tag) ∧
  ClaimArrives s t (s.claimOf h o .two) ∧
  ∀ i : Hoist, i ≠ h → t.ctxs[i]'i.2 = s.ctxs[i]'i.2 ∧ t.drives[i]'i.2 = s.drives[i]'i.2

/-- What a claim's arrival is judged over. -/
theorem claimArrives_from (s' s t : State) (c : Claim) (holders : s'.holders = s.holders) (kept : s'.kept = s.kept)
    (waits : s'.waits = s.waits) (grants : (s'.mail[c.hoist]'c.hoist.2).grants = (s.mail[c.hoist]'c.hoist.2).grants)
    (arrives : ClaimArrives s' t c) : ClaimArrives s t c := by
  unfold ClaimArrives at arrives ⊢
  rw [holders, kept, waits, grants] at arrives
  exact arrives

/-- REHANG_DONE is acted on in REHANG with no INHIBIT in force (R37). -/
theorem rehangGo_stages (s : State) (h : Hoist) (o : Order) (own : s.orderOf h = some o)
    (rehang : (s.ctxs[h]'h.2).state = .rehang)
    (remembered : (s.ctxs[h]'h.2).rehangKept = true) (free : s.inhibit = false) :
    s.rehangGo h = s.stage h o .two (s.ctxs[h]'h.2).resv := by
  unfold State.rehangGo
  simp only [own]
  exact if_pos ⟨rehang, remembered, free⟩

theorem rehangGo_rests (s : State) (h : Hoist)
    (rests : (s.ctxs[h]'h.2).state ≠ .rehang ∨ (s.ctxs[h]'h.2).rehangKept = false ∨ s.inhibit = true) :
    s.rehangGo h = s := by
  unfold State.rehangGo
  split
  · refine if_neg fun ⟨rehang, remembered, free⟩ => ?_
    rcases rests with n | n | n
    · exact n rehang
    · rw [n] at remembered; cases remembered
    · rw [n] at free; cases free
  · rfl

/-- The step that begins pass 2 over a part `x` whose reports are all of absent conditions. -/
theorem rehang_begins (s : State) (h : Hoist) (x : Site) (o : Order) (rs : List Reply)
    (own : s.orderOf h = some o) (order : x.ctx.order = (s.ctxs[h]'h.2).order)
    (grants : x.mail.grants = (s.mail[h]'h.2).grants)
    (rehang : x.ctx.state = .rehang) (remembered : x.ctx.rehangKept = true) (free : s.inhibit = false)
    (absent : x.agenda.reports.all FaultReport.absent = true) (short : x.agenda.reports.length ≤ 2)
    (none_due : x.agenda.follow = []) : ∃ t,
    (((s.putSite h x).rehangGo h).owing rs).settle.transmit = t ∧ t.link.owed = s.link.owed ++ rs ∧
      PassTwoBegun s t h o x.ctx := by
  have own' : (s.putSite h x).orderOf h = some o := by
    have same : (s.putSite h x).orderOf h = s.orderOf h := by
      unfold State.orderOf
      rw [putSite_ctx, order]
      rfl
    rw [same, own]
  have go := rehangGo_stages (s.putSite h x) h o own' (by rwa [putSite_ctx]) (by rwa [putSite_ctx]) free
  obtain ⟨drives, mail, holders, waits, m, staged, arrives, others, _⟩ := stage_only (s.putSite h x) h o .two
    ((s.putSite h x).ctxs[h]'h.2).resv
  rw [← go] at staged arrives
  generalize (s.putSite h x).rehangGo h = u at staged arrives
  rw [putSite_ctx] at staged
  have agenda : u.agenda = ⟨x.agenda.reports ++ absentConds h, []⟩ := by
    rw [staged, ← none_due]; rfl
  obtain ⟨link, finished, sent⟩ := finish_quiet u _ _ rs agenda
    (quietReports_of_absent _ _ (by rw [List.all_append, absent]; rfl)) (by simp)
    (by simp only [absentConds, List.length_append, List.length_cons, List.length_nil]; omega)
  refine ⟨_, finished, sent.owed.trans (by rw [staged]; rfl), ?_⟩
  have here : u.ctxs[h]'h.2 = { x.ctx.beginPass ⟨o.slot, o.tag⟩ .two x.ctx.resv with claim := some s.nextSerial } := by
    rw [staged]; exact hoist_set_same _ h _
  refine ⟨here, by rw [staged]; rfl, by rw [staged]; rfl, by rw [staged]; rfl,
    ⟨{ o with state := .active, pass := some .two }, ?_, rfl, rfl, rfl⟩, ?_, fun i ne => ⟨?_, ?_⟩⟩
  · exact orderOf_of_map s _ h o (fun x => { x with state := .active, pass := some .two }) own
      (congrArg State.orders staged) ⟨o.slot, o.tag⟩ (congrArg DipCtx.order here) rfl fun _ => rfl
  · refine claimArrives_from (s.putSite h x) s _ (s.claimOf h o .two) rfl rfl rfl ?_ arrives
    exact (congrArg Mail.grants (putSite_mail s h x)).trans grants
  · have far : (s.putSite h x).ctxs[i]'i.2 = s.ctxs[i]'i.2 := hoist_set_ne _ h i _ ne
    rw [staged]
    exact (hoist_set_ne _ h i _ ne).trans far
  · have far : (s.putSite h x).drives[i]'i.2 = s.drives[i]'i.2 := hoist_set_ne _ h i _ ne
    rw [staged]
    exact (others i ne).1.trans far

/-! ### REHANG_DONE (R37) -/

/-- The part of a hoist that remembers a REHANG_DONE. -/
def State.rehangSite (s : State) (h : Hoist) : Site :=
  { s.site h with ctx := { s.ctxs[h]'h.2 with rehangKept := true } }

theorem modCtx_rehangKept (s : State) (h : Hoist) :
    s.modCtx h (fun c => { c with rehangKept := true }) = s.putSite h (s.rehangSite h) := by
  have e := putSite_modCtx s h (s.site h) fun c => { c with rehangKept := true }
  rwa [putSite_site] at e

theorem rehangDone_remembers (s : State) (h : Hoist) (effective : (s.ctxs[h]'h.2).effective = .rehang)
    (rests : (s.ctxs[h]'h.2).state ≠ .rehang ∨ s.inhibit = true) :
    s.rehangDone h = s.modCtx h fun c => { c with rehangKept := true } := by
  unfold State.rehangDone
  rw [if_pos effective]
  refine rehangGo_rests _ h ?_
  rw [modCtx_rehangKept, putSite_ctx]
  exact rests.imp id .inr

theorem rehangDone_goes (s : State) (h : Hoist) (rehang : (s.ctxs[h]'h.2).state = .rehang) :
    s.rehangDone h = (s.putSite h (s.rehangSite h)).rehangGo h := by
  unfold State.rehangDone
  rw [if_pos ((effective_of_not_held _ (by rw [rehang]; decide)).trans rehang), modCtx_rehangKept]

/-- REHANG_DONE in REHANG begins pass 2, whatever the step answers. -/
theorem rehangDone_begins (s : State) (h : Hoist) (o : Order) (rs : List Reply) (idle : s.agenda = Agenda.empty)
    (rehang : (s.ctxs[h]'h.2).state = .rehang) (free : s.inhibit = false) (own : s.orderOf h = some o) : ∃ t,
    ((s.rehangDone h).owing rs).settle.transmit = t ∧ t.link.owed = s.link.owed ++ rs ∧
      PassTwoBegun s t h o { s.ctxs[h]'h.2 with rehangKept := true } := by
  rw [rehangDone_goes s h rehang]
  exact rehang_begins s h (s.rehangSite h) o rs own rfl rfl rehang rfl free
    (by simp only [State.rehangSite, State.site, idle]; rfl)
    (by simp only [State.rehangSite, State.site, idle]; exact Nat.zero_le _) (congrArg Agenda.follow idle)

/-- Settles O26: the request is refused, remembered, or acted on by the state of the dip context. -/
theorem rehangStartsPass2 : Obligations.RehangStartsPass2 := by
  unfold Obligations.RehangStartsPass2
  refine fun s tag n h l named => ⟨fun out => ?_, fun rehang inhibited => ?_, fun held from_ => ?_,
    fun o rehang free own => ?_⟩
  · exact congrArg _ (request_forHoist_replied s l .rehangDone tag n h named _ s .wrongState [] (if_neg out) l.1.2)
  · have effective := (effective_of_not_held _ (by rw [rehang]; decide)).trans rehang
    refine congrArg _ (request_forHoist_replied s l .rehangDone tag n h named _
      { s with ctxs := s.ctxs.set h { s.ctxs[h]'h.2 with rehangKept := true } } .ok [] ?_ l.1.2)
    refine (if_pos effective).trans ?_
    rw [rehangDone_remembers s.unbuilt h effective (.inr inhibited)]
    rfl
  · have effective : (s.ctxs[h]'h.2).effective = .rehang := by
      unfold DipCtx.effective
      rw [if_pos held, from_]
      rfl
    refine congrArg _ (request_forHoist_replied s l .rehangDone tag n h named _
      { s with ctxs := s.ctxs.set h { s.ctxs[h]'h.2 with rehangKept := true } } .ok [] ?_ l.1.2)
    refine (if_pos effective).trans ?_
    rw [rehangDone_remembers s.unbuilt h effective (.inl (by
      have held' : (s.unbuilt.ctxs[h]'h.2).state = .held := held
      rw [held']; decide))]
    rfl
  · have effective := (effective_of_not_held (s.ctxs[h]'h.2) (by rw [rehang]; decide)).trans rehang
    obtain ⟨t, finished, owed, ctx, reserved, kept, _, order, claim, others⟩ := rehangDone_begins s.unbuilt h o
      [replyTo .rehangDone tag .ok []] l.1.2 rehang free own
    have answered := request_forHoist s l .rehangDone tag n h named fun s h =>
      if (s.ctxs[h]'h.2).effective = .rehang then (s.rehangDone h).okay else s.refuse .wrongState
    have effective' : (s.unbuilt.ctxs[h]'h.2).effective = .rehang := effective
    simp only [if_pos effective'] at answered
    refine ⟨t, congrArg Host.Outcome.next (answered.trans finished), owed, ?_, ?_, ?_, ?_, ?_, ?_, reserved,
      kept, order, ?_,
      claim, others⟩
    all_goals rw [ctx]; rfl

end Sys2Proof.Machine
end

section
/-! The immersion: a state entered with a motion, the weigh-in that sends the hook down, the lift, the dwell and the drain
(R30, R33 to R35, R42, R65, R68, R97). -/

namespace Sys2Proof.Machine

set_option Elab.async false

/-! ### An agenda with nothing to do -/

/-- The agenda of a part holds reports of absent conditions, at most `n`, and takes that find no order. -/
structure Site.Calm (x : Site) (u : State) (n : Nat) : Prop where
  absent : x.agenda.reports.all FaultReport.absent = true
  short : x.agenda.reports.length ≤ n
  takes : ∀ y ∈ x.agenda.follow, ∃ i, y = .take i ∧ u.offered i = none
  few : x.agenda.follow.length ≤ 20

theorem Site.calm_of_idle (x : Site) (u : State) (n : Nat) (idle : x.agenda = Agenda.empty) : x.Calm u n := by
  refine ⟨by rw [idle]; rfl, by rw [idle]; exact Nat.zero_le n, fun y hy => ?_, by rw [idle]; exact Nat.zero_le 20⟩
  rw [idle] at hy
  exact absurd hy List.not_mem_nil

/-- Which orders wait is all that a calm agenda turns on. -/
theorem Site.Calm.of_orders {x : Site} {u : State} {n : Nat} (calm : x.Calm u n) (v : State)
    (same : v.orders = u.orders) :
    x.Calm v n := by
  refine ⟨calm.absent, calm.short, fun y hy => ?_, calm.few⟩
  obtain ⟨i, e, none_waits⟩ := calm.takes y hy
  exact ⟨i, e, by unfold State.offered at none_waits ⊢; rw [same]; exact none_waits⟩

theorem Site.Calm.of_agenda {x : Site} {u : State} {n : Nat} (calm : x.Calm u n) (y : Site)
    (same : y.agenda = x.agenda) :
    y.Calm u n :=
  ⟨same ▸ calm.absent, same ▸ calm.short, same ▸ calm.takes, same ▸ calm.few⟩

theorem Site.Calm.quiet {x : Site} {u : State} {n : Nat} (calm : x.Calm u n) (h : Hoist) (few : n ≤ 100) :
    x.Quiet u h := by
  obtain ⟨absent, short, takes, follows⟩ := calm
  refine ⟨quietReports_of_absent _ _ absent, fun y hy => ?_, by omega⟩
  obtain ⟨i, rfl, none_waits⟩ := takes y hy
  exact .inl none_waits

/-- A part with two more reports, of absent conditions. -/
theorem Site.Calm.more {x y : Site} {u : State} {n : Nat} (calm : x.Calm u n) (more : List FaultReport)
    (agenda : y.agenda = ⟨x.agenda.reports ++ more, x.agenda.follow⟩) (absent : more.all FaultReport.absent = true)
    (two : more.length ≤ 2) : y.Calm u (n + 2) := by
  obtain ⟨gone, short, takes, few⟩ := calm
  refine ⟨?_, ?_, ?_, ?_⟩
  all_goals rw [agenda]
  · simp only [List.all_append, gone, absent, Bool.and_self]
  · simp only [List.length_append]; omega
  · exact takes
  · exact few

theorem putSite_putCtx_site (s : State) (h : Hoist) (x : Site) (c : DipCtx) :
    (s.putSite h x).putCtx h c = s.putSite h (s.ctxSite x h c) := putSite_putCtx s h x c

theorem ctxSite_calm (s u : State) (x : Site) (h : Hoist) (c : DipCtx) (n : Nat) (unwatched : s.unwatched h c)
    (calm : x.Calm u n) : (s.ctxSite x h c).Calm u (n + 2) :=
  calm.more _ rfl (conds_absent s h c _ unwatched) (Nat.le_of_eq (conds_length s h c _))

/-! ### A state entered with a motion (R142) -/

/-- A drive that has been given a motion command (R142): it runs, unless the hook is there. -/
def DriveIf.commanded (d : DriveIf) (set : DriveSet) (cmd : MotionCmd) : DriveIf :=
  if cmd.alreadyThere d.count then d.halted else d.halted.sent set cmd

/-- The part of a hoist put into contents that start a motion. -/
def State.moveSite (s : State) (x : Site) (h : Hoist) (c : DipCtx) (cmd : MotionCmd) : Site :=
  { ctx := { c with starved := c.starved && c.state.moving },
    drive := (x.drive.permitted s.bench c.state).commanded s.kept.drive cmd,
    mail := { x.mail with level := (x.mail.shown x.ctx c).level,
                          motions := if cmd.alreadyThere x.drive.count then x.mail.motions ++ [⟨cmd.moved, none⟩]
                            else x.mail.motions },
    marks := s.hoistMarks x.ctx c x.marks,
    agenda := ⟨x.agenda.reports ++ s.conds h c ((x.drive.permitted s.bench c.state).commanded s.kept.drive cmd),
      x.agenda.follow⟩ }

theorem putSite_setCtx_startMotion (s : State) (h : Hoist) (x : Site) (c : DipCtx) (cmd : MotionCmd)
    (clear : s.driveClear h)
    (sure : cmd = .recal ∨ x.drive.known = true) :
    ((s.putSite h x).setCtx h c).startMotion h cmd = s.putSite h (s.moveSite x h c cmd) := by
  rw [putSite_setCtx]
  generalize hy : Site.mk _ _ _ _ _ = y
  have known : cmd = .recal ∨ y.drive.known = true := by rw [← hy]; exact sure
  have count : y.drive.count = x.drive.count := by rw [← hy]; rfl
  unfold State.moveSite DriveIf.commanded
  cases there : cmd.alreadyThere x.drive.count with
  | true =>
    rw [putSite_startMotion_there s h y cmd clear known (by rw [count]; exact there), ← hy]
    simp only [DriveIf.permitted, there, if_true]
    rfl
  | false =>
    rw [putSite_startMotion s h y cmd clear known (by rw [count]; exact there), ← hy]
    simp only [DriveIf.permitted, there, Bool.false_eq_true, if_false]
    rfl

theorem moveSite_calm (s u : State) (x : Site) (h : Hoist) (c : DipCtx) (cmd : MotionCmd) (n : Nat)
    (unwatched : s.unwatched h c) (calm : x.Calm u n) : (s.moveSite x h c cmd).Calm u (n + 2) :=
  calm.more _ rfl (conds_absent s h c _ unwatched) (Nat.le_of_eq (conds_length s h c _))

theorem moveSite_quiet (s u : State) (x : Site) (h : Hoist) (c : DipCtx) (cmd : MotionCmd) (unwatched : s.unwatched h c)
    (idle : x.agenda = Agenda.empty) : (s.moveSite x h c cmd).Quiet u h :=
  (moveSite_calm s u x h c cmd 0 unwatched (x.calm_of_idle u 0 idle)).quiet h (Nat.le_of_ble_eq_true rfl)

@[simp] theorem commanded_count (d : DriveIf) (set : DriveSet) (cmd : MotionCmd) :
    (d.commanded set cmd).count = d.count := by
  unfold DriveIf.commanded
  split
  · exact halted_count d
  · cases cmd <;> exact halted_count d

@[simp] theorem commanded_permit (d : DriveIf) (set : DriveSet) (cmd : MotionCmd) :
    (d.commanded set cmd).permit = d.permit := by
  unfold DriveIf.commanded
  split
  · exact halted_permit d
  · cases cmd <;> exact halted_permit d

theorem commanded_known (d : DriveIf) (set : DriveSet) (cmd : MotionCmd) (moves : cmd ≠ .recal) :
    (d.commanded set cmd).known = d.known := by
  unfold DriveIf.commanded
  split
  · exact halted_known d
  · cases cmd with
    | recal => exact absurd rfl moves
    | move => exact halted_known d
    | lift => exact halted_known d
    | shake => exact halted_known d

theorem commanded_away (d : DriveIf) (set : DriveSet) (cmd : MotionCmd) (away : cmd.alreadyThere d.count = false) :
    d.commanded set cmd = d.halted.sent set cmd := by
  unfold DriveIf.commanded
  rw [away]
  rfl

theorem commanded_there (d : DriveIf) (set : DriveSet) (cmd : MotionCmd) (there : cmd.alreadyThere d.count = true) :
    d.commanded set cmd = d.halted := by
  unfold DriveIf.commanded
  rw [there]
  rfl

/-- The commands that send the hook to a count (R142). -/
def MotionCmd.sendsTo (cmd : MotionCmd) (target rate : Nat) : Prop := cmd = .move target rate ∨ cmd = .lift target rate

/-- A hook commanded to a count runs there, or is reported there at once. -/
theorem hookSent_of_moveSite (s t u : State) (h : Hoist) (x : Site) (c : DipCtx) (cmd : MotionCmd) (target rate : Nat)
    (sends : cmd.sendsTo target rate) (drive : x.drive = s.drives[h]'h.2)
    (mail : x.mail.motions = (s.mail[h]'h.2).motions)
    (drive' : t.drives[h]'h.2 = (u.moveSite x h c cmd).drive) (mail' : t.mail[h]'h.2 = (u.moveSite x h c cmd).mail) :
    HookSent s t h target rate (cmd.alreadyThere (s.drives[h]'h.2).count = true) := by
  have moves : cmd ≠ .recal := by rcases sends with rfl | rfl <;> exact fun e => nomatch e
  have moved : cmd.moved = .move := by rcases sends with rfl | rfl <;> rfl
  rw [HookSent, drive', mail']
  unfold State.moveSite
  simp only [commanded_count, drive, mail, moved]
  refine ⟨rfl, (commanded_known _ _ _ moves).trans rfl, fun away => ?_, fun there => ?_⟩
  · have away' : cmd.alreadyThere (s.drives[h]'h.2).count = false := by simpa using away
    rw [commanded_away ((s.drives[h]'h.2).permitted u.bench c.state) _ _ away', away']
    rcases sends with rfl | rfl
    · exact ⟨rfl, rfl, by simp only [DriveIf.sent, halted_count]; rfl, rfl⟩
    · exact ⟨rfl, rfl, by simp only [DriveIf.sent, halted_count]; rfl, rfl⟩
  · rw [commanded_there ((s.drives[h]'h.2).permitted u.bench c.state) _ _ there, there]
    exact ⟨halted_motion _, rfl⟩

/-! ### LIFTING and ABORT_LIFT (R33, R47) -/

/-- A dip context on entry to LIFTING. -/
def DipCtx.lifting (c : DipCtx) : DipCtx := { c with state := .lifting, heldFrom := none, dwellT := none }

theorem latchedOr_of (c : DipCtx) (l : Latched) (f : Latched → Nat) (d : Nat) (latched : c.latched = some l) :
    c.latchedOr f d = f l := by
  unfold DipCtx.latchedOr
  rw [latched]
  rfl

theorem putSite_toLifting (s : State) (h : Hoist) (x : Site) (l : Latched) (latched : x.ctx.latched = some l)
    (clear : s.driveClear h) (sure : x.drive.known = true) : (s.putSite h x).toLifting h =
    s.putSite h (s.moveSite x h x.ctx.lifting (.lift l.drainPos l.profile.withdrawal)) := by
  rw [← putSite_setCtx_startMotion s h x x.ctx.lifting _ clear (.inr sure)]
  unfold State.toLifting State.liftOut
  have away : (((s.putSite h x).setCtx h x.ctx.lifting).ctxs[h]'h.2).latchedOr Latched.drainPos 0 = l.drainPos := by
    rw [putSite_setCtx, putSite_ctx]
    exact latchedOr_of _ l _ _ latched
  rw [putSite_ctx, latchedOr_of x.ctx l _ _ latched]
  exact congrArg (fun n => State.startMotion _ h (.lift n _)) away

/-- A dip context on entry to ABORT_LIFT. -/
def DipCtx.abortLifting (c : DipCtx) : DipCtx :=
  { c.leaveLowering with state := .abortLift, heldFrom := none, dwellT := none }

theorem leaveLowering_latched (c : DipCtx) : c.leaveLowering.latched = c.latched := by
  unfold DipCtx.leaveLowering; split <;> rfl

theorem putSite_toAbortLift (s : State) (h : Hoist) (x : Site) (l : Latched) (latched : x.ctx.latched = some l)
    (clear : s.driveClear h) (sure : x.drive.known = true) : (s.putSite h x).toAbortLift h =
    s.putSite h (s.moveSite x h x.ctx.abortLifting (.lift l.drainPos s.kept.cycle.abortSpeed)) := by
  rw [← putSite_setCtx_startMotion s h x x.ctx.abortLifting _ clear (.inr sure)]
  unfold State.toAbortLift State.liftOut
  have away : (((s.putSite h x).setCtx h x.ctx.abortLifting).ctxs[h]'h.2).latchedOr Latched.drainPos 0 =
    l.drainPos := by
    rw [putSite_setCtx, putSite_ctx]
    exact latchedOr_of _ l _ _ ((leaveLowering_latched x.ctx).trans latched)
  rw [putSite_ctx]
  exact congrArg (fun n => State.startMotion _ h (.lift n _)) away

/-! ### The drain end (R35) -/

/-- A release over a hoist's part: the zones, the wait list and the mail change, the hoist's own by grants. -/
theorem putSite_release (s : State) (h : Hoist) (x : Site) : ∃ holders waits mail,
    (s.putSite h x).release h =
      State.putSite { s with holders := holders, waits := waits, mail := mail } h { x with mail := mail[h]'h.2 } ∧
    ((∀ c ∈ s.waits, c.hoist ≠ h) → ∀ z : Fin 12, holders[z]'z.2 ≠ some h) := by
  obtain ⟨holders, waits, mail, released, _, free⟩ := release_only (s.putSite h x) h
  refine ⟨holders, waits, mail, ?_, free⟩
  rw [released, State.putSite, State.putSite]
  simp only [hoist_set_get]

/-- A dip context on entry to WEIGH_OUT. -/
def DipCtx.weighingOut (c : DipCtx) : DipCtx :=
  { c with state := .weighOut, drainT := none, drainExpired := false, starved := false }

/-- The end of a drain over a hoist's part. -/
theorem putSite_drainEnd (s : State) (h : Hoist) (x : Site) : ∃ holders waits mail own m,
    (s.putSite h x).drainEnd h =
      State.putSite { s with holders := holders, waits := waits, mail := mail, wu := s.wu.askedBy h x.ctx } h
        { ctx := { x.ctx.weighingOut with asked := s.wu.placeOf h x.ctx }, drive := x.drive.permitted s.bench .weighOut,
          mail := own, marks := m, agenda := ⟨x.agenda.reports ++ absentConds h, x.agenda.follow⟩ } ∧
    ((∀ c ∈ s.waits, c.hoist ≠ h) → ∀ z : Fin 12, holders[z]'z.2 ≠ some h) := by
  obtain ⟨holders, waits, mail, released, free⟩ := putSite_release s h x
  refine ⟨holders, waits, mail, (mail[h]'h.2).shown x.ctx x.ctx.weighingOut,
    s.hoistMarks x.ctx x.ctx.weighingOut x.marks, ?_, free⟩
  have calm := conds_of_unwatched { s with holders := holders, waits := waits, mail := mail } h
    { x.ctx with state := .weighOut, drainT := none, drainExpired := false } x.drive
    (unwatched_plain _ h _ rfl (fun e => nomatch e) (fun e => nomatch e))
  unfold State.drainEnd
  dsimp only
  rw [released, putSite_ctx, putSite_putCtx]
  simp only [DipState.moving, Bool.and_false, calm]
  rw [putSite_placeWeigh]
  rfl

/-- A DRAIN may end (R35). -/
def DipCtx.drained (c : DipCtx) : Prop :=
  c.state = .drain ∧ c.shakeDone = true ∧ c.returning = false ∧ (c.drainT = some 0 ∨ c.drainExpired = true)

theorem putSite_drainCheck_ends (s : State) (h : Hoist) (x : Site) (d : x.ctx.drained) :
    (s.putSite h x).drainCheck h = (s.putSite h x).drainEnd h := by
  unfold State.drainCheck
  rw [putSite_ctx]
  exact if_pos d

theorem putSite_drainCheck_stays (s : State) (h : Hoist) (x : Site) (d : ¬x.ctx.drained) :
    (s.putSite h x).drainCheck h = s.putSite h x := by
  unfold State.drainCheck
  rw [putSite_ctx]
  exact if_neg d

/-- The step that ends a drain over the part `x` of a hoist, whose order and pass are those of `s` (R35). -/
theorem drainEnd_finish (s : State) (h : Hoist) (x : Site) (n : Nat) (rs : List Reply) (idle : s.agenda = Agenda.empty)
    (order : x.ctx.order = (s.ctxs[h]'h.2).order) (pass : x.ctx.pass = (s.ctxs[h]'h.2).pass) (calm : x.Calm s n)
    (few : n ≤ 20) : ∃ t,
    (((s.putSite h x).drainEnd h).owing rs).settle.transmit = t ∧ t.link.owed = s.link.owed ++ rs ∧
      t.kept = s.kept ∧ t.drives[h]'h.2 = x.drive.permitted s.bench .weighOut ∧ DrainEnded s t h x.ctx := by
  obtain ⟨holders, waits, mail, own, m, ended, free⟩ := putSite_drainEnd s h x
  rw [ended]
  generalize hu : ({ s with holders := holders, waits := waits, mail := mail, wu := s.wu.askedBy h x.ctx } : State) = u
  generalize hy : (Site.mk _ _ _ _ _) = y
  have calm' : x.Calm u n := calm.of_orders u (by rw [← hu])
  have quiet : y.Quiet u h := (calm'.more (absentConds h) (by rw [← hy]) (absentConds_absent h) (Nat.le_refl 2)).quiet h
    (by omega)
  obtain ⟨link, finished, sent⟩ := finish_site u h y rs (by rw [← hu]; exact idle) quiet
  refine ⟨_, finished, sent.owed.trans (by rw [← hu]; rfl), by rw [← hu]; rfl, ?_, ?_, ?_, by rw [← hu]; rfl,
    by rw [← hu]; rfl, fun none_waits => ?_, fun i ne => ?_⟩
  · rw [finished_drive, ← hy]
  · rw [finished_ctx, ← hy]; rfl
  · exact weighAsked_of s _ h x.ctx order pass (by rw [← hu]; rfl) (by rw [finished_ctx, ← hy])
  · rw [← hu]; exact free none_waits
  · have far := finished_others u h y link i ne
    rw [← hu] at far ⊢
    exact far

/-! ### The dwell timer and the drain timer (R33, R35, R42) -/

/-- A part whose drive and mail are as they were, with nothing reported, is a change of the dip context alone. -/
theorem finished_ctxOnly (s : State) (h : Hoist) (x : Site) (link : Link) (drive : x.drive = s.drives[h]'h.2)
    (mail : x.mail = s.mail[h]'h.2) (reports : x.agenda.reports = []) :
    s.finished h x link = { s with ctxs := s.ctxs.set h x.ctx, link := link } := by
  unfold State.finished
  rw [drive, mail, reports, hoist_set_get, hoist_set_get]
  rfl

/-- A change of a dip context as a part of its hoist. -/
def State.ctxOnly (s : State) (h : Hoist) (c : DipCtx) : Site := { s.site h with ctx := c }

theorem modCtx_eq (s : State) (h : Hoist) (f : DipCtx → DipCtx) :
    s.modCtx h f = s.putSite h (s.ctxOnly h (f (s.ctxs[h]'h.2))) := by
  have e := putSite_modCtx s h (s.site h) f
  rwa [putSite_site] at e

/-- A step that answers nothing and changes one dip context alone. -/
theorem whileRunning_ctxOnly (s : State) (h : Hoist) (c : DipCtx) (f : State → State) (live : s.ready)
    (e : f s = s.putSite h (s.ctxOnly h c)) : ∃ link, (.next (s.whileRunning f) : Effect) =
      .next { s with ctxs := s.ctxs.set h c, link := link } := by
  have reports : (s.ctxOnly h c).agenda.reports = [] := congrArg Agenda.reports live.2
  obtain ⟨link, step, _⟩ := whileRunning_site s s h (s.ctxOnly h c) f live e live.2
    (Site.quiet_of_absent _ s h (by rw [reports]; rfl) (congrArg Agenda.follow live.2)
      (by rw [reports]; exact Nat.zero_le _))
  exact ⟨link, step.trans (congrArg _ (finished_ctxOnly s h _ link rfl rfl reports))⟩

theorem dwellTimerExpiry_lifts (s : State) (h : Hoist) (l : Latched) (live : s.ready)
    (due : (s.ctxs[h]'h.2).dwellT.isSome = true)
    (latched : (s.ctxs[h]'h.2).latched = some l) (dwell : (s.ctxs[h]'h.2).state = .dwell) (station : s.stationClear h)
    (clear : s.driveClear h) (known : (s.drives[h]'h.2).known = true) : ∃ link,
    exec (.dwellTimerExpiry h) s = .next (s.finished h
      (s.moveSite (s.site h) h (s.ctxs[h]'h.2).lifting (.lift l.drainPos l.profile.withdrawal)) link) := by
  have lifted := putSite_toLifting s h (s.site h) l latched clear known
  rw [putSite_site] at lifted
  obtain ⟨link, step, _⟩ := whileRunning_site s s h _ (fun s =>
      if (s.ctxs[h]'h.2).dwellT.isNone then s
      else if (s.ctxs[h]'h.2).state = .dwell then s.toLifting h
      else s.modCtx h fun c => { c with dwellT := some 0 }) live
    ((if_neg (by rw [← Option.not_isSome, due]; decide)).trans ((if_pos dwell).trans lifted)) live.2
    (moveSite_quiet s s (s.site h) h _ _ (unwatched_of_clear s h _ station) live.2)
  exact ⟨link, step⟩

theorem dwellTimerExpiry_held (s : State) (h : Hoist) (live : s.ready) (due : (s.ctxs[h]'h.2).dwellT.isSome = true)
    (held : (s.ctxs[h]'h.2).state = .held) : ∃ link, exec (.dwellTimerExpiry h) s =
      .next { s with ctxs := s.ctxs.set h { s.ctxs[h]'h.2 with dwellT := some 0 }, link := link } :=
  whileRunning_ctxOnly s h _ _ live
    ((if_neg (by rw [← Option.not_isSome, due]; decide)).trans ((if_neg (by rw [held]; decide)).trans
      (modCtx_eq s h _)))

/-- The part of a hoist whose drain timer has reached zero (R35). -/
def State.drainDue (s : State) (h : Hoist) : Site := s.ctxOnly h { s.ctxs[h]'h.2 with drainT := some 0 }

theorem drainTimerExpiry_checks (s : State) (h : Hoist) (due : (s.ctxs[h]'h.2).drainT.isSome = true)
    (drain : (s.ctxs[h]'h.2).state = .drain) : (if (s.ctxs[h]'h.2).drainT.isNone then s
    else if (s.ctxs[h]'h.2).state = .drain then (s.modCtx h fun c => { c with drainT := some 0 }).drainCheck h
    else s.modCtx h fun c => { c with drainT := some 0, drainExpired := true }) =
      (s.putSite h (s.drainDue h)).drainCheck h := by
  rw [if_neg (by rw [← Option.not_isSome, due]; decide), if_pos drain, modCtx_eq]
  rfl

theorem drainTimerExpiry_stays (s : State) (h : Hoist) (live : s.ready) (due : (s.ctxs[h]'h.2).drainT.isSome = true)
    (drain : (s.ctxs[h]'h.2).state = .drain) (shaking : (s.ctxs[h]'h.2).shakeDone = false) :
    ∃ link, exec (.drainTimerExpiry h) s =
      .next { s with ctxs := s.ctxs.set h { s.ctxs[h]'h.2 with drainT := some 0 }, link := link } := by
  have on : ¬(s.drainDue h).ctx.drained := fun d => Bool.false_ne_true (shaking.symm.trans d.2.1)
  exact whileRunning_ctxOnly s h _ _ live
    ((drainTimerExpiry_checks s h due drain).trans (putSite_drainCheck_stays s h _ on))

theorem drainTimerExpiry_ends (s : State) (h : Hoist) (live : s.ready) (due : (s.ctxs[h]'h.2).drainT.isSome = true)
    (drain : (s.ctxs[h]'h.2).state = .drain) (still : (s.ctxs[h]'h.2).returning = false)
    (shaken : (s.ctxs[h]'h.2).shakeDone = true) :
    ∃ t, exec (.drainTimerExpiry h) s = .next t ∧ t.kept = s.kept ∧ DrainEnded s t h (s.drainDue h).ctx := by
  obtain ⟨t, finished, _, kept, _, ended⟩ := drainEnd_finish s h (s.drainDue h) 0 [] live.2 rfl rfl
    (Site.calm_of_idle _ _ _ live.2) (Nat.zero_le 20)
  refine ⟨t, congrArg Host.Outcome.next ?_, kept, ended⟩
  rw [owing_nil] at finished
  refine (whileRunning_of_ready s _ live).trans ?_
  rw [drainTimerExpiry_checks s h due drain, putSite_drainCheck_ends s h _ ⟨drain, shaken, still, .inl rfl⟩]
  exact finished

/-- Settles O45: each timer acts on the part of its hoist, by the state it finds. -/
theorem dipTimersExpire : Obligations.DipTimersExpire := by
  unfold Obligations.DipTimersExpire
  refine ⟨fun s h l live due latched => ⟨fun dwell station clear known above => ?_, fun held => ?_⟩,
    fun s h live due drain still station => ⟨fun shaking => ?_, fun shaken => ?_⟩⟩
  · obtain ⟨link, step⟩ := dwellTimerExpiry_lifts s h l live due latched dwell station clear known
    obtain ⟨count, _, away, _⟩ := hookSent_of_moveSite s (s.finished h _ link) s h (s.site h) (s.ctxs[h]'h.2).lifting
      (.lift l.drainPos l.profile.withdrawal) l.drainPos l.profile.withdrawal (.inr rfl) rfl rfl
        (finished_drive _ h _ link)
      (finished_mail _ h _ link)
    obtain ⟨motion, brake, dir, _⟩ := away (by simpa [MotionCmd.alreadyThere] using above)
    refine ⟨_, step, finished_only s h _ link, ?_, ?_, ?_, motion, ?_, brake, count, finished_others s h _ link⟩
    iterate 3 rw [finished_ctx]; rfl
    · rw [dir]; exact decide_eq_true above
  · obtain ⟨link, step⟩ := dwellTimerExpiry_held s h live due held
    exact ⟨_, step, rfl, hoist_set_same _ h _, fun i ne => hoist_set_ne _ h i _ ne⟩
  · obtain ⟨link, step⟩ := drainTimerExpiry_stays s h live due drain shaking
    exact ⟨_, step, rfl, hoist_set_same _ h _⟩
  · obtain ⟨t, step, kept, ctx, ⟨placed, _⟩, orders, reserved, free, others⟩ :=
      drainTimerExpiry_ends s h live due drain still shaken
    refine ⟨t, step, by rw [ctx], by rw [ctx], kept, orders, reserved, free, fun r p ordered passed none_there => ?_,
      others⟩
    obtain ⟨wu, asked⟩ := placed r p ordered passed none_there
    exact ⟨by rw [wu], asked⟩

end Sys2Proof.Machine
end

section
/-! The weigh-in of OK: the pass parameters are latched, the PICKUP entry is written, the hook is sent down (R30, R65,
R68). -/

namespace Sys2Proof.Machine

set_option Elab.async false

/-! ### The order and the pass of a part -/

theorem putSite_orderOf (s : State) (h : Hoist) (x : Site) (order : x.ctx.order = (s.ctxs[h]'h.2).order) :
    (s.putSite h x).orderOf h = s.orderOf h := by
  unfold State.orderOf
  rw [putSite_ctx, order]
  rfl

theorem putSite_passOf (s : State) (h : Hoist) (x : Site) (order : x.ctx.order = (s.ctxs[h]'h.2).order)
    (pass : x.ctx.pass = (s.ctxs[h]'h.2).pass) : (s.putSite h x).passOf h = s.passOf h := by
  unfold State.passOf
  rw [putSite_orderOf s h x order, putSite_ctx, pass]

/-! ### LOWERING (R30) -/

/-- What a pass latches when its weigh-in is OK (R30, step 2). -/
def State.latchedFor (s : State) (r : PassRec) : Latched :=
  { profile := s.kept.profileOf r, drainPos := KettleSet.drainPosition s.kept.kettle r,
    overrun := s.kept.cycle.overrun }

/-- The flags of a pass after its weigh-in (R30, step 3). -/
def DipCtx.weighedFlags (c : DipCtx) (o : Order) (w : Int) : EntryFlags :=
  { c.flags with massDisagree := massDisagrees o.mass w }

/-- The PICKUP entry that a weigh-in writes (R65, R68). -/
def State.pickupEntry (s : State) (h : Hoist) (o : Order) (p : Pass) (w : Int) (flags : EntryFlags) : Entry :=
  { Entry.blank .pickup s.kept.runtime 0 with
    orderTag := some o.tag, hoist := some h, pass := some p, span := some ((o.passRec p).first, (o.passRec p).last),
    weighIn := some w, dwell := some (s.latchedFor (o.passRec p)).profile.dwell, immersion := some 0, flags := flags }

/-- The machine with the entry of a weigh-in written, one reservation used (R65). -/
def State.pickupWritten (s : State) (h : Hoist) (o : Order) (p : Pass) (w : Int) (flags : EntryFlags) : State :=
  { s with kept := s.kept.write (s.pickupEntry h o p w flags), reserved := s.reserved - 1 }

/-- A dip context on entry to LOWERING. -/
def DipCtx.lowering (c : DipCtx) (l : Latched) (w : Int) (flags : EntryFlags) (seq : Nat) : DipCtx :=
  { c with state := .lowering, weighIn := some w, latched := some l, flags := flags, entered := true,
           entrySeq := some seq, resv := c.resv - 1, asked := .none }

theorem putSite_beginLowering (s : State) (h : Hoist) (x : Site) (o : Order) (p : Pass) (w : Int)
    (clear : s.driveClear h) (sure : x.drive.known = true) : (s.putSite h x).beginLowering h o p w =
    (s.pickupWritten h o p w (x.ctx.weighedFlags o w)).putSite h
    ((s.pickupWritten h o p w (x.ctx.weighedFlags o w)).moveSite
      x h (x.ctx.lowering (s.latchedFor (o.passRec p)) w (x.ctx.weighedFlags o w) s.kept.nextSeq)
      (.move (o.passRec p).target (s.kept.profileOf (o.passRec p)).entrySpeed)) := by
  rw [← putSite_setCtx_startMotion (s.pickupWritten h o p w (x.ctx.weighedFlags o w)) h x _ _ clear (.inr sure)]
  unfold State.beginLowering
  simp only [putSite_ctx]
  have written : (s.putSite h x).writePickup h o.tag p ((o.passRec p).first, (o.passRec p).last) w
      (s.kept.profileOf (o.passRec p)).dwell (x.ctx.weighedFlags o w) =
      (s.pickupWritten h o p w (x.ctx.weighedFlags o w)).putSite h x := rfl
  refine (congrArg (fun u : State => (u.setCtx h { u.ctxs[h]'h.2 with
    state := .lowering, weighIn := some w, latched := some (s.latchedFor (o.passRec p)),
      flags := x.ctx.weighedFlags o w,
    entered := true, entrySeq := some s.kept.nextSeq, resv := (u.ctxs[h]'h.2).resv - 1, asked := .none }).startMotion h
      (.move (o.passRec p).target (s.kept.profileOf (o.passRec p)).entrySpeed)) written).trans ?_
  simp only [putSite_ctx]
  rfl

/-! ### WEIGH_RESULT -/

/-- A weigh result answers the request that a dip context has placed (R115). -/
def DipCtx.takes (c : DipCtx) (a : WeighAnswer) : Prop :=
  c.asked = .placed ∧ c.order.map OrderRef.tag = some a.tag ∧ c.pass = some a.pass

/-- The part of a hoist whose oldest weigh result has been taken out of its mail. -/
def State.resultTaken (s : State) (h : Hoist) (as : List WeighAnswer) : Site :=
  { s.site h with mail := { s.mail[h]'h.2 with results := as } }

theorem modMail_results (s : State) (h : Hoist) (as : List WeighAnswer) :
    s.modMail h (fun m => { m with results := as }) = s.putSite h (s.resultTaken h as) := by
  have e := putSite_modMail s h (s.site h) fun m => { m with results := as }
  rwa [putSite_site] at e

theorem takeResult_lowers (s : State) (h : Hoist) (a : WeighAnswer) (o : Order) (w : Int)
    (takes : (s.ctxs[h]'h.2).takes a)
    (weighing : (s.ctxs[h]'h.2).state = .weighIn) (own : s.orderOf h = some o) (value : a.value = some w) :
    s.takeResult h a = s.beginLowering h o a.pass w := by
  unfold State.takeResult
  refine (if_pos takes).trans ?_
  simp only [weighing, own, value]

/-- The step of a weigh result that leaves `x` of the hoist's part. -/
theorem weighResult_site (s : State) (h : Hoist) (a : WeighAnswer) (as : List WeighAnswer) (live : s.ready)
    (handed : (s.mail[h]'h.2).results = a :: as) (u : State) (x : Site)
    (e : (s.putSite h (s.resultTaken h as)).takeResult h a = u.putSite h x) (idle : u.agenda = Agenda.empty)
    (q : x.Quiet u h) : ∃ link, exec (.weighResult h) s = .next (u.finished h x link) := by
  obtain ⟨link, step, _⟩ := whileRunning_site s u h x (fun s => match (s.mail[h]'h.2).results with
    | a :: as => (s.modMail h fun m => { m with results := as }).takeResult h a
    | [] => s) live (by
      simp only [handed]
      rw [modMail_results, e]) idle q
  exact ⟨link, step⟩

theorem weighResult_lowers (s : State) (h : Hoist) (o : Order) (a : WeighAnswer) (as : List WeighAnswer) (w : Int)
    (u : State) (c : DipCtx)
    (live : s.ready) (handed : (s.mail[h]'h.2).results = a :: as) (takes : (s.ctxs[h]'h.2).takes a)
    (weighing : (s.ctxs[h]'h.2).state = .weighIn) (own : s.orderOf h = some o) (value : a.value = some w)
    (station : s.stationClear h) (clear : s.driveClear h) (known : (s.drives[h]'h.2).known = true)
    (written : u = s.pickupWritten h o a.pass w ((s.ctxs[h]'h.2).weighedFlags o w))
    (lowered : c = (s.ctxs[h]'h.2).lowering (s.latchedFor (o.passRec a.pass)) w ((s.ctxs[h]'h.2).weighedFlags o w)
      s.kept.nextSeq) :
    ∃ link, exec (.weighResult h) s = .next (u.finished h (u.moveSite (s.resultTaken h as) h c
      (.move (o.passRec a.pass).target (s.kept.profileOf (o.passRec a.pass)).entrySpeed)) link) := by
  subst written lowered
  refine weighResult_site s h a as live handed _ _ ?_ live.2
    (moveSite_quiet _ _ _ h _ _ (unwatched_of_clear _ h _ station) live.2)
  rw [takeResult_lowers _ h a o w (by rwa [putSite_ctx]) (by rwa [putSite_ctx])
    ((putSite_orderOf s h _ rfl).trans own) value]
  exact putSite_beginLowering s h (s.resultTaken h as) o a.pass w clear known

/-- Settles O35: the weigh-in writes one entry and sends one hook down. -/
theorem weighInLowers : Obligations.WeighInLowers := by
  unfold Obligations.WeighInLowers
  intro s h o p w n d rest live handed weighing asked order pass own station clear known above
  obtain ⟨link, step⟩ := weighResult_lowers s h o _ rest w _ _ live handed ⟨asked, by rw [order]; rfl,
    pass⟩ weighing own rfl
    station clear known rfl rfl
  obtain ⟨count, _, away, _⟩ := hookSent_of_moveSite s (State.finished _ h _ link) _ h (s.resultTaken h rest) _
    (.move (o.passRec p).target (s.kept.profileOf (o.passRec p)).entrySpeed) _ _ (.inl rfl) rfl rfl
    (finished_drive _ h _ link) (finished_mail _ h _ link)
  obtain ⟨motion, brake, _, _⟩ := away (by simpa [MotionCmd.alreadyThere] using above.symm)
  refine ⟨_, step, finished_only _ h _ link, ?_, ?_, ?_, ?_, ?_, ?_, ?_, ?_, ?_, motion, brake, count,
    finished_others _ h _ link⟩
  iterate 7 rw [finished_ctx]; rfl
  · refine ⟨{ s.pickupEntry h o p w ((s.ctxs[h]'h.2).weighedFlags o w) with seq := s.kept.nextSeq }, rfl, rfl, rfl,
      rfl, rfl, rfl, rfl,
      rfl, rfl, rfl, rfl, ?_⟩
    rw [finished_ctx]; rfl
  · exact Int.add_zero _

end Sys2Proof.Machine
end

section
/-! The order of a hoist turned onto the abort path: close pending with its reason, its reservations returned (R45, R66). -/

namespace Sys2Proof.Machine

set_option Elab.async false

/-- A dip context whose order has been turned onto the abort path. -/
def DipCtx.turned (c : DipCtx) (why : CloseReason) : DipCtx :=
  { c with closeReason := some why, resv := 0,
           flags := { c.flags with aborted := c.flags.aborted || c.entrySeq.isSome } }

/-- The orders with close pending on the one in a slot. -/
def closingAt (slot : Nat) (orders : List Order) : List Order :=
  orders.map fun o => if o.slot = slot then { o with closePending := true } else o

/-- The machine with an order on the abort path and its reservations returned. -/
def State.turnedAt (s : State) (slot n : Nat) (full : Bool) : State :=
  { s with orders := closingAt slot s.orders, reserved := s.reserved - n, nearlyFull := full }

/-- The part of a hoist whose order has been turned onto the abort path. -/
def State.turnedSite (s : State) (x : Site) (why : CloseReason) (m : Vector Bool 6) : Site :=
  { x with ctx := x.ctx.turned why, marks := m,
           agenda := ⟨x.agenda.reports, x.agenda.follow ++ s.takesAfterReturn x.ctx.resv⟩ }

theorem putSite_returnHeld (s : State) (h : Hoist) (x : Site) : ∃ full m, (s.putSite h x).returnHeld h =
    State.putSite { s with reserved := s.reserved - x.ctx.resv, nearlyFull := full } h
      { x with ctx := { x.ctx with resv := 0 }, marks := m,
               agenda := ⟨x.agenda.reports, x.agenda.follow ++ s.takesAfterReturn x.ctx.resv⟩ } := by
  obtain ⟨full, m, returned⟩ := returnHeld_only (s.putSite h x) h
  refine ⟨full, m, returned.trans ?_⟩
  rw [putSite_ctx]
  simp only [State.putSite, Vector.set_set]
  rfl

theorem putSite_turnAborted (s : State) (h : Hoist) (x : Site) (why : CloseReason) (r : OrderRef)
    (ordered : x.ctx.order = some r) : ∃ full m, (s.putSite h x).turnAborted h why =
      (s.turnedAt r.slot x.ctx.resv full).putSite h (s.turnedSite x why m) := by
  have closing : (s.putSite h x).modOrder h (fun o => { o with closePending := true }) =
      State.putSite { s with orders := closingAt r.slot s.orders } h x := by
    unfold State.modOrder
    rw [putSite_ctx, ordered]
    rfl
  unfold State.turnAborted
  dsimp only
  rw [closing, putSite_modCtx]
  exact putSite_returnHeld { s with orders := closingAt r.slot s.orders } h _

theorem closingAt_noneQueued (s : State) (slot : Nat) (none_waits : s.noneQueued) :
    ∀ o ∈ closingAt slot s.orders, o.state ≠ .queued := by
  intro o ho
  obtain ⟨p, hp, rfl⟩ := List.mem_map.1 ho
  split
  · exact none_waits p hp
  · exact none_waits p hp

theorem turnedSite_calm (s : State) (x : Site) (why : CloseReason) (m : Vector Bool 6) (slot n : Nat) (full : Bool)
    (none_waits : s.noneQueued) (idle : x.agenda = Agenda.empty) :
    (s.turnedSite x why m).Calm (s.turnedAt slot n full) 0 := by
  have calm := x.calm_of_idle s 0 idle
  have follow : (s.turnedSite x why m).agenda.follow = s.takesAfterReturn x.ctx.resv := by
    unfold State.turnedSite
    rw [idle]
    rfl
  refine ⟨calm.absent, calm.short, fun y hy => ?_, ?_⟩
  · rw [follow, State.takesAfterReturn] at hy
    split at hy
    · cases hy
    · obtain ⟨i, _, rfl⟩ := List.mem_map.1 hy
      exact ⟨i, rfl, offered_of_noneQueued _ i (closingAt_noneQueued s slot none_waits)⟩
  · rw [follow]
    exact (takesAfterReturn_length s _).trans (by omega)

/-- The order of a hoist after it has been turned onto the abort path. -/
theorem orderOf_turned (s t : State) (h : Hoist) (o : Order) (r : OrderRef) (own : s.orderOf h = some o)
    (at_ : (s.ctxs[h]'h.2).order = some r) (orders : t.orders = closingAt r.slot s.orders)
    (order : (t.ctxs[h]'h.2).order = some r) :
    t.orderOf h = some { o with closePending := true } := by
  obtain ⟨_, r', ordered, same⟩ := orderOf_slot s h o own
  have e : r' = r := Option.some.inj (ordered.symm.trans at_)
  subst e
  refine orderOf_of_map s t h o (fun x => { x with closePending := true }) own ?_ r' order same fun _ => rfl
  rw [orders, same]
  rfl

end Sys2Proof.Machine
end

section
/-! HOIST_RESUME: the held-from state entered again, or RECAL with the position unknown (R26, R35, R37, R44, R48, R50). -/

namespace Sys2Proof.Machine

set_option Elab.async false

/-! ### The part of a hoist as it stands -/

theorem putCtx_eq (s : State) (h : Hoist) (c : DipCtx) : s.putCtx h c = s.putSite h (s.ctxSite (s.site h) h c) := by
  have e := putSite_putCtx s h (s.site h) c
  rwa [putSite_site] at e

theorem setCtx_startMotion_eq (s : State) (h : Hoist) (c : DipCtx) (cmd : MotionCmd) (clear : s.driveClear h)
    (sure : cmd = .recal ∨ (s.drives[h]'h.2).known = true) :
    (s.setCtx h c).startMotion h cmd = s.putSite h (s.moveSite (s.site h) h c cmd) := by
  have e := putSite_setCtx_startMotion s h (s.site h) c cmd clear sure
  rwa [putSite_site] at e

/-! ### A resume that goes ahead (R44) -/

/-- A resume of a hold from a state that nothing bars. -/
structure Resuming (s : State) (n : Nat) (h : Hoist) (st : DipState) : Prop where
  listening : s.listening
  named : s.hoist? n = some h
  held : (s.ctxs[h]'h.2).state = .held
  heldFrom : (s.ctxs[h]'h.2).heldFrom = some st
  unbarred : s.resumeBarred h = false

theorem hoistResume_answer (s : State) (h : Hoist) (st : DipState) (held : (s.ctxs[h]'h.2).state = .held)
    (from_ : (s.ctxs[h]'h.2).heldFrom = some st) (unbarred : s.resumeBarred h = false) :
    (match (s.ctxs[h]'h.2).state, (s.ctxs[h]'h.2).heldFrom with
    | .held, some st =>
      if s.resumeBarred h then s.refuse .stillPresent
      else (s.resumeFrom h st).okay [fN 1 ((s.resumeFrom h st).ctxs[h]'h.2).state.code]
    | _, _ => s.refuse .wrongState) = (s.resumeFrom h st).okay [fN 1 ((s.resumeFrom h st).ctxs[h]'h.2).state.code] := by
  simp only [held, from_, unbarred, Bool.false_eq_true, if_false]

section
variable {s : State} {n : Nat} {h : Hoist} {st : DipState}

theorem Resuming.next (g : Resuming s n h st) (tag : Nat) : exec (.hoistResume tag n) s =
    .next ((s.unbuilt.resumeFrom h st).owing [replyTo .hoistResume tag .ok
      [fN 1 ((s.unbuilt.resumeFrom h st).ctxs[h]'h.2).state.code]]).settle.transmit := by
  have answered := hoistResume_answer s.unbuilt h st g.held g.heldFrom g.unbarred
  refine congrArg Host.Outcome.next ((request_forHoist s g.listening .hoistResume tag n h g.named _).trans ?_)
  exact congrArg (fun a : Answer =>
    (a.state.owing [replyTo .hoistResume tag a.result a.fields]).settle.transmit) answered

theorem Resuming.site (g : Resuming s n h st) (tag : Nat) (u : State) (x : Site)
    (e : s.unbuilt.resumeFrom h st = u.putSite h x) (idle : u.agenda = Agenda.empty) (q : x.Quiet u h) : ∃ link,
    exec (.hoistResume tag n) s = .next (u.finished h x link) ∧
      link.owed = u.link.owed ++ [replyTo .hoistResume tag .ok [fN 1 x.ctx.state.code]] := by
  obtain ⟨link, finished, sent⟩ := finish_site u h x [replyTo .hoistResume tag .ok [fN 1 x.ctx.state.code]] idle q
  refine ⟨link, ?_, sent.owed⟩
  rw [g.next tag, e, putSite_ctx, finished]

/-- A resume that changes the part of its hoist alone. -/
theorem Resuming.resumed (g : Resuming s n h st) (tag : Nat) (x : Site)
    (e : s.unbuilt.resumeFrom h st = s.unbuilt.putSite h x) (q : x.Quiet s.unbuilt h) : ∃ t,
    exec (.hoistResume tag n) s = .next t ∧ Resumed s t h tag x.ctx ∧ t.drives[h]'h.2 = x.drive ∧
    t.mail[h]'h.2 = x.mail := by
  obtain ⟨link, step, owed⟩ := g.site tag s.unbuilt x e g.listening.1.2 q
  exact ⟨_, step, ⟨owed, finished_only _ h x link, finished_ctx _ h x link, finished_others _ h x link⟩,
    finished_drive _ h x link, finished_mail _ h x link⟩

end

/-! ### The position known -/

/-- A dip context put back into its held-from state (R44). -/
def DipCtx.resumedAs (c : DipCtx) (st : DipState) : DipCtx := { c with state := st, heldFrom := none, ret := none }

theorem resumeFrom_known (s : State) (h : Hoist) (st : DipState) (known : (s.drives[h]'h.2).known = true) :
    s.resumeFrom h st = s.resumeInto h st := if_pos known

/-- The part of a hoist back in a state without a motion. -/
def State.backSite (s : State) (h : Hoist) (st : DipState) : Site :=
  s.ctxSite (s.site h) h ((s.ctxs[h]'h.2).resumedAs st)

theorem resumeInto_plain (s : State) (h : Hoist) (st : DipState)
    (plain : st = .staged ∨ (st = .rehang ∧ ((s.ctxs[h]'h.2).rehangKept = false ∨ s.inhibit = true)) ∨
      (st = .dwell ∧ (s.ctxs[h]'h.2).dwellT ≠ some 0)) : s.resumeInto h st = s.putSite h (s.backSite h st) := by
  unfold State.backSite
  rw [← putCtx_eq]
  rcases plain with rfl | ⟨rfl, rests⟩ | ⟨rfl, running⟩
  · rfl
  · refine rehangGo_rests _ h (.inr ?_)
    rw [putCtx_eq, putSite_ctx]
    exact rests
  · exact if_neg running

theorem resume_plain (s : State) (tag n : Nat) (h : Hoist) (st : DipState) (c : DipCtx) (g : Resuming s n h st)
    (on : c = { s.ctxs[h]'h.2 with state := st, heldFrom := none, ret := none, starved := false })
    (known : (s.drives[h]'h.2).known = true)
    (plain : st = .staged ∨ (st = .rehang ∧ ((s.ctxs[h]'h.2).rehangKept = false ∨ s.inhibit = true)) ∨
      (st = .dwell ∧ (s.ctxs[h]'h.2).dwellT ≠ some 0 ∧ s.stationClear h)) :
    ∃ t, exec (.hoistResume tag n) s = .next t ∧ Resumed s t h tag c ∧
      (s.bench = false → t.drives[h]'h.2 = { s.drives[h]'h.2 with permit := decide (st = .rehang) }) := by
  have still : st.moving = false ∧ st.permits = decide (st = .rehang) := by
    rcases plain with rfl | ⟨rfl, _⟩ | ⟨rfl, _⟩ <;> exact ⟨rfl, rfl⟩
  have unwatched : s.unbuilt.unwatched h ((s.ctxs[h]'h.2).resumedAs st) := by
    rcases plain with rfl | ⟨rfl, _⟩ | ⟨rfl, _, station⟩
    · exact unwatched_plain _ h _ rfl (fun e => nomatch e) (fun e => nomatch e)
    · exact unwatched_plain _ h _ rfl (fun e => nomatch e) (fun e => nomatch e)
    · exact unwatched_of_clear _ h _ station
  have into : s.unbuilt.resumeFrom h st = s.unbuilt.putSite h (s.unbuilt.backSite h st) := by
    rw [resumeFrom_known s.unbuilt h st known]
    refine resumeInto_plain s.unbuilt h st ?_
    rcases plain with e | e | ⟨e, running, _⟩
    · exact .inl e
    · exact .inr (.inl e)
    · exact .inr (.inr ⟨e, running⟩)
  obtain ⟨t, step, resumed, drive, _⟩ := g.resumed tag _ into (ctxSite_quiet _ _ _ h _ unwatched g.listening.1.2)
  have ctx : (s.unbuilt.backSite h st).ctx = c := by
    have calm : (s.unbuilt.backSite h st).ctx =
      { (s.ctxs[h]'h.2).resumedAs st with starved := (s.ctxs[h]'h.2).starved && st.moving } :=
      rfl
    rw [calm, still.1, Bool.and_false, on]
    rfl
  refine ⟨t, step, ctx ▸ resumed, fun unbenched => ?_⟩
  have permitted : t.drives[h]'h.2 = (s.drives[h]'h.2).permitted s.bench st := drive
  rw [permitted, DriveIf.permitted, unbenched, still.2]
  rfl

/-! ### A remembered REHANG_DONE (R26, R37) -/

theorem rehangGo_staged (s : State) (h : Hoist) (o : Order) (own : s.orderOf h = some o)
    (rehang : (s.ctxs[h]'h.2).state = .rehang)
    (remembered : (s.ctxs[h]'h.2).rehangKept = true) (free : s.inhibit = false) : ((s.rehangGo h).ctxs[h]'h.2).state =
    .staged := by
  obtain ⟨_, _, _, _, _, staged, _⟩ := stage_only s h o .two (s.ctxs[h]'h.2).resv
  rw [rehangGo_stages s h o own rehang remembered free, staged]
  exact congrArg DipCtx.state (hoist_set_same _ h _)

theorem resume_rehang (s : State) (tag n : Nat) (h : Hoist) (o : Order) (g : Resuming s n h .rehang)
    (known : (s.drives[h]'h.2).known = true) (remembered : (s.ctxs[h]'h.2).rehangKept = true) (free : s.inhibit = false)
    (own : s.orderOf h = some o) : ∃ t, exec (.hoistResume tag n) s = .next t ∧
      Replies s t .hoistResume tag .ok [fN 1 DipState.staged.code] ∧
      PassTwoBegun s t h o (s.backSite h .rehang).ctx := by
  have into : s.unbuilt.resumeFrom h .rehang = (s.unbuilt.putSite h (s.unbuilt.backSite h .rehang)).rehangGo h := by
    unfold State.backSite
    rw [resumeFrom_known s.unbuilt h _ known, ← putCtx_eq]
    rfl
  have staged : ((s.unbuilt.resumeFrom h .rehang).ctxs[h]'h.2).state = .staged := by
    rw [into]
    exact rehangGo_staged _ h o ((putSite_orderOf s.unbuilt h _ rfl).trans own)
      (congrArg DipCtx.state (putSite_ctx _ h _))
      ((congrArg DipCtx.rehangKept (putSite_ctx _ h _)).trans remembered) free
  have calm : (s.unbuilt.backSite h .rehang).Calm s.unbuilt 2 := ctxSite_calm s.unbuilt _ (s.unbuilt.site h) h _ 0
    (unwatched_plain _ h _ rfl (fun e => nomatch e) (fun e => nomatch e)) (Site.calm_of_idle _ _ _ g.listening.1.2)
  obtain ⟨t, finished, owed, begun⟩ := rehang_begins s.unbuilt h (s.unbuilt.backSite h .rehang) o
    [replyTo .hoistResume tag .ok [fN 1 DipState.staged.code]] own rfl rfl rfl remembered free calm.absent calm.short
    (congrArg Agenda.follow g.listening.1.2)
  exact ⟨t, by rw [g.next tag, staged, into, finished], owed, begun⟩

/-! ### A weighing asked for again (R28, R110) -/

/-- The part of a hoist back in a state of weighing, its request made. -/
def State.reweighSite (s : State) (h : Hoist) (st : DipState) : Site :=
  { s.backSite h st with
    ctx := { (s.backSite h st).ctx with asked := s.wu.placeOf h (s.backSite h st).ctx } }

theorem resumeInto_weighs (s : State) (h : Hoist) (st : DipState) (weighs : st = .weighIn ∨ st = .weighOut) :
    s.resumeInto h st = State.putSite { s with wu := s.wu.askedBy h (s.backSite h st).ctx } h (s.reweighSite h st) := by
  refine Eq.trans ?_ (putSite_placeWeigh s h (s.backSite h st))
  unfold State.backSite
  rw [← putCtx_eq]
  rcases weighs with rfl | rfl <;> rfl

theorem resumeInto_aligned (s : State) (h : Hoist) (aligned : (s.inputs[h]'h.2).aligned = true) :
    s.resumeInto h .aligning = State.putSite { s with wu := s.wu.askedBy h (s.backSite h .aligning).ctx } h
      (s.weighInSite h (s.backSite h .aligning)) := by
  refine Eq.trans ?_ (putSite_checkAligned_present s h (s.backSite h .aligning) rfl aligned)
  unfold State.backSite
  rw [← putCtx_eq]
  rfl

theorem resumeInto_unaligned (s : State) (h : Hoist) (unaligned : (s.inputs[h]'h.2).aligned = false) :
    s.resumeInto h .aligning = s.putSite h (s.backSite h .aligning) := by
  refine Eq.trans ?_ (putSite_checkAligned_absent s h (s.backSite h .aligning) unaligned)
  unfold State.backSite
  rw [← putCtx_eq]
  rfl

theorem resume_aligning (s : State) (tag n : Nat) (h : Hoist) (c : DipCtx) (g : Resuming s n h .aligning)
    (on : c = { s.ctxs[h]'h.2 with state := .aligning, heldFrom := none, ret := none, starved := false })
    (known : (s.drives[h]'h.2).known = true) (unaligned : (s.inputs[h]'h.2).aligned = false) : ∃ t,
    exec (.hoistResume tag n) s = .next t ∧ Resumed s t h tag c ∧
      (s.bench = false → t.drives[h]'h.2 = { s.drives[h]'h.2 with permit := true }) := by
  obtain ⟨t, step, resumed, drive, _⟩ := g.resumed tag (s.unbuilt.backSite h .aligning)
    ((resumeFrom_known s.unbuilt h _ known).trans (resumeInto_unaligned s.unbuilt h unaligned))
    (ctxSite_quiet _ _ _ h _ (unwatched_plain _ h _ rfl (fun e => nomatch e) (fun e => nomatch e)) g.listening.1.2)
  have ctx : (s.unbuilt.backSite h .aligning).ctx = c := by
    rw [on]
    unfold State.backSite State.ctxSite
    simp only [DipCtx.resumedAs, DipState.moving, Bool.and_false]
    rfl
  refine ⟨t, step, ctx ▸ resumed, fun unbenched => ?_⟩
  have permitted : t.drives[h]'h.2 = (s.drives[h]'h.2).permitted s.bench .aligning := drive
  rw [permitted, DriveIf.permitted, unbenched]
  rfl

/-- A resume whose state then asks for a weighing. -/
theorem Resuming.asks {s : State} {n : Nat} {h : Hoist} {st : DipState} (g : Resuming s n h st) (tag : Nat) (b x : Site)
    (e : s.unbuilt.resumeFrom h st = State.putSite { s.unbuilt with wu := s.wu.askedBy h b.ctx } h x)
    (order : b.ctx.order = (s.ctxs[h]'h.2).order) (pass : b.ctx.pass = (s.ctxs[h]'h.2).pass)
    (asked : x.ctx.asked = s.wu.placeOf h b.ctx) (calm : x.Calm s 4) :
    ∃ t, exec (.hoistResume tag n) s = .next t ∧
      t = { s with ctxs := t.ctxs, drives := t.drives, wu := t.wu, mail := t.mail, entries := t.entries,
                   link := t.link } ∧
      t.ctxs[h]'h.2 = x.ctx ∧ t.drives[h]'h.2 = x.drive ∧ WeighAsked s t h ∧
      Replies s t .hoistResume tag .ok [fN 1 (t.ctxs[h]'h.2).state.code] ∧
      ∀ i : Hoist, i ≠ h → t.ctxs[i]'i.2 = s.ctxs[i]'i.2 ∧ t.drives[i]'i.2 = s.drives[i]'i.2 := by
  have quiet : x.Quiet { s.unbuilt with wu := s.wu.askedBy h b.ctx } h :=
    (calm.of_orders { s.unbuilt with wu := s.wu.askedBy h b.ctx } rfl).quiet h (Nat.le_of_ble_eq_true rfl)
  obtain ⟨link, step, owed⟩ := g.site tag _ x e g.listening.1.2 quiet
  have ctx := finished_ctx { s.unbuilt with wu := s.wu.askedBy h b.ctx } h x link
  refine ⟨_, step, rfl, ctx, finished_drive _ h x link, ?_, ?_, finished_others _ h x link⟩
  · exact weighAsked_of s _ h b.ctx order pass rfl (by rw [ctx, asked])
  · rw [ctx]
    exact owed

/-- The states that are entered again with a weigh request (R28, R44). -/
def State.weighsAgain (s : State) (h : Hoist) (st : DipState) : Prop :=
  (st = .aligning ∧ (s.inputs[h]'h.2).aligned = true) ∨ ((st = .weighIn ∨ st = .weighOut) ∧ s.stationClear h)

/-- A dip context entered again with a weigh request. -/
def DipCtx.weighsAs (c : DipCtx) (st : DipState) (asked : Asked) : DipCtx :=
  { c with
    state := if st = .weighOut then .weighOut else .weighIn, heldFrom := none, ret := none, starved := false,
      asked := asked,
    alignT := if st = .aligning then none else c.alignT }

theorem resumeInto_asks (s : State) (h : Hoist) (st : DipState) (idle : s.agenda = Agenda.empty)
    (weighs : s.weighsAgain h st) : ∃ b x : Site,
    s.resumeInto h st = State.putSite { s with wu := s.wu.askedBy h b.ctx } h x ∧ b.ctx.order = (s.ctxs[h]'h.2).order ∧
      b.ctx.pass = (s.ctxs[h]'h.2).pass ∧ x.ctx.asked = s.wu.placeOf h b.ctx ∧ x.Calm s 4 ∧
      x.ctx = (s.ctxs[h]'h.2).weighsAs st x.ctx.asked ∧ x.drive = (s.drives[h]'h.2).permitted s.bench .weighIn := by
  have still := (s.site h).calm_of_idle s 0 idle
  rcases weighs with ⟨rfl, aligned⟩ | ⟨weighs, station⟩
  · have back : (s.backSite h .aligning).Calm s 2 := ctxSite_calm s s _ h _ 0
      ⟨.inl aligned, .inr ⟨rfl, fun e => nomatch e⟩⟩ still
    refine ⟨s.backSite h .aligning, _, resumeInto_aligned s h aligned, rfl, rfl, rfl,
      back.more _ rfl (conds_absent s h _ _ (unwatched_weighing s h _ aligned)) (Nat.le_refl 2), rfl, ?_⟩
    simp only [State.weighInSite, State.backSite, State.ctxSite, DriveIf.permitted]
    cases s.bench <;> rfl
  · have calm : st.moving = false ∧ st.permits = false ∧ st ≠ .aligning ∧
        (if st = .weighOut then DipState.weighOut else .weighIn) = st := by
      rcases weighs with rfl | rfl <;> exact ⟨rfl, rfl, (fun e => nomatch e), rfl⟩
    obtain ⟨unmoving, unpermitted, unaligning, same⟩ := calm
    have back : (s.backSite h st).Calm s 2 := ctxSite_calm s s _ h _ 0 (unwatched_of_clear s h _ station) still
    refine ⟨s.backSite h st, s.reweighSite h st, resumeInto_weighs s h st weighs, rfl, rfl, rfl,
      ⟨back.absent, back.short.trans (by omega), back.takes, back.few⟩, ?_, ?_⟩
    · rw [DipCtx.weighsAs, same, if_neg unaligning]
      unfold State.reweighSite State.backSite State.ctxSite DipCtx.resumedAs
      simp only [unmoving, Bool.and_false]
    · have permitted : (s.reweighSite h st).drive = (s.drives[h]'h.2).permitted s.bench st := rfl
      rw [permitted, DriveIf.permitted, unpermitted]
      rfl

theorem resume_weighs (s : State) (tag n : Nat) (h : Hoist) (st : DipState) (g : Resuming s n h st)
    (known : (s.drives[h]'h.2).known = true) (weighs : s.weighsAgain h st) : ∃ t,
    exec (.hoistResume tag n) s = .next t ∧
      t = { s with ctxs := t.ctxs, drives := t.drives, wu := t.wu, mail := t.mail, entries := t.entries,
                   link := t.link } ∧
      t.ctxs[h]'h.2 = (s.ctxs[h]'h.2).weighsAs st (t.ctxs[h]'h.2).asked ∧
      WeighAsked s t h ∧ Replies s t .hoistResume tag .ok [fN 1 (t.ctxs[h]'h.2).state.code] ∧
      (s.bench = false → t.drives[h]'h.2 = { s.drives[h]'h.2 with permit := false }) ∧
      ∀ i : Hoist, i ≠ h → t.ctxs[i]'i.2 = s.ctxs[i]'i.2 ∧ t.drives[i]'i.2 = s.drives[i]'i.2 := by
  obtain ⟨b, x, into, order, pass, placed, calm, here, drive⟩ := resumeInto_asks s.unbuilt h st g.listening.1.2 weighs
  obtain ⟨t, step, only, ctx, drive', asked, replies, others⟩ := g.asks tag b x
    ((resumeFrom_known s.unbuilt h _ known).trans into) order pass placed (calm.of_orders s rfl)
  refine ⟨t, step, only, by rw [ctx]; exact here, asked, replies, fun unbenched => ?_, others⟩
  have permitted : t.drives[h]'h.2 = (s.drives[h]'h.2).permitted s.bench .weighIn := drive'.trans drive
  rw [permitted, unbenched]
  rfl

/-! ### A motion begun again (R44, R142) -/

/-- A resume that sends the hook. -/
theorem Resuming.sends {s : State} {n : Nat} {h : Hoist} {st : DipState} (g : Resuming s n h st)
    (tag : Nat) (c : DipCtx)
    (cmd : MotionCmd) (target rate : Nat) (there : Prop) (sends : cmd.sendsTo target rate) (station : s.stationClear h)
    (reached : (cmd.alreadyThere (s.drives[h]'h.2).count = true) ↔ there)
    (e : s.unbuilt.resumeFrom h st = s.unbuilt.putSite h (s.unbuilt.moveSite (s.unbuilt.site h) h c cmd)) :
    ∃ t, exec (.hoistResume tag n) s = .next t ∧
      Resumed s t h tag { c with starved := c.starved && c.state.moving } ∧ HookSent s t h target rate there := by
  obtain ⟨t, step, resumed, drive, mail⟩ := g.resumed tag _ e
    (moveSite_quiet s.unbuilt s.unbuilt (s.unbuilt.site h) h c cmd (unwatched_of_clear _ h _ station) g.listening.1.2)
  have sent := hookSent_of_moveSite s t s.unbuilt h (s.unbuilt.site h) c cmd target rate sends rfl rfl drive mail
  rw [propext reached] at sent
  exact ⟨t, step, resumed, sent⟩

theorem resume_lowering (s : State) (tag n : Nat) (h : Hoist) (c : DipCtx) (l : Latched) (p : PassRec)
    (g : Resuming s n h .lowering)
    (on : c = { s.ctxs[h]'h.2 with state := .lowering, heldFrom := none, ret := none, starved := false })
    (known : (s.drives[h]'h.2).known = true) (latched : (s.ctxs[h]'h.2).latched = some l) (station : s.stationClear h)
    (clear : s.driveClear h) (pass : s.passOf h = some p) : ∃ t, exec (.hoistResume tag n) s = .next t ∧
      Resumed s t h tag { c with starved := (s.ctxs[h]'h.2).starved } ∧
      HookSent s t h p.target l.profile.entrySpeed ((s.drives[h]'h.2).count = p.target) := by
  have into : s.unbuilt.resumeFrom h .lowering = s.unbuilt.putSite h (s.unbuilt.moveSite (s.unbuilt.site h) h
      ((s.ctxs[h]'h.2).resumedAs .lowering) (.move p.target l.profile.entrySpeed)) := by
    have target : ((s.unbuilt.passOf h).map PassRec.target).getD 0 = p.target :=
      congrArg (fun x : Option PassRec => (x.map PassRec.target).getD 0) pass
    have rate : ((s.unbuilt.ctxs[h]'h.2).resumedAs .lowering).latchedOr (fun l => l.profile.entrySpeed) 1 =
      l.profile.entrySpeed :=
      latchedOr_of _ l _ _ latched
    rw [resumeFrom_known s.unbuilt h _ known, ← target, ← rate]
    exact setCtx_startMotion_eq s.unbuilt h _ _ clear (.inr known)
  obtain ⟨t, step, resumed, sent⟩ := g.sends tag _ _ p.target l.profile.entrySpeed ((s.drives[h]'h.2).count =
    p.target) (.inl rfl)
    station (by simp only [MotionCmd.alreadyThere, decide_eq_true_eq]; exact eq_comm) into
  refine ⟨t, step, ?_, sent⟩
  rw [on]
  simp only [DipCtx.resumedAs, DipState.moving, Bool.and_true] at resumed
  exact resumed

theorem resume_lifting (s : State) (tag n : Nat) (h : Hoist) (st : DipState) (l : Latched) (g : Resuming s n h st)
    (known : (s.drives[h]'h.2).known = true) (latched : (s.ctxs[h]'h.2).latched = some l) (station : s.stationClear h)
    (clear : s.driveClear h) (lifts : st = .lifting ∨ (st = .dwell ∧ (s.ctxs[h]'h.2).dwellT = some 0)) :
    ∃ t, exec (.hoistResume tag n) s = .next t ∧
      Resumed s t h tag { s.ctxs[h]'h.2 with state := .lifting, heldFrom := none, dwellT := none } ∧
      HookSent s t h l.drainPos l.profile.withdrawal ((s.drives[h]'h.2).count ≤ l.drainPos) := by
  have into : s.unbuilt.resumeFrom h st = s.unbuilt.toLifting h := by
    rw [resumeFrom_known s.unbuilt h _ known]
    rcases lifts with rfl | ⟨rfl, due⟩
    · rfl
    · exact if_pos due
  have lifted := putSite_toLifting s.unbuilt h (s.unbuilt.site h) l latched clear known
  rw [putSite_site, ← into] at lifted
  obtain ⟨t, step, resumed, sent⟩ :=
    g.sends tag _ _ l.drainPos l.profile.withdrawal ((s.drives[h]'h.2).count ≤ l.drainPos)
    (.inr rfl) station (by simp only [MotionCmd.alreadyThere, decide_eq_true_eq]) lifted
  refine ⟨t, step, ?_, sent⟩
  simp only [DipCtx.lifting, DipState.moving, Bool.and_true] at resumed
  exact resumed

theorem leaveLowering_stays (c : DipCtx) (other : c.effective ≠ .lowering ∨ c.contact = true) :
    c.leaveLowering = c := by
  refine if_neg fun ⟨lowering, untouched⟩ => ?_
  rcases other with n | n
  · exact n lowering
  · rw [n] at untouched; cases untouched

theorem effective_of_held (c : DipCtx) (st : DipState) (held : c.state = .held) (from_ : c.heldFrom = some st) :
    c.effective = st := by
  unfold DipCtx.effective
  rw [if_pos held, from_]
  rfl

theorem resume_abortLift (s : State) (tag n : Nat) (h : Hoist) (l : Latched) (g : Resuming s n h .abortLift)
    (known : (s.drives[h]'h.2).known = true) (latched : (s.ctxs[h]'h.2).latched = some l) (station : s.stationClear h)
    (clear : s.driveClear h) : ∃ t, exec (.hoistResume tag n) s = .next t ∧
      Resumed s t h tag { s.ctxs[h]'h.2 with state := .abortLift, heldFrom := none, dwellT := none } ∧
      HookSent s t h l.drainPos s.kept.cycle.abortSpeed ((s.drives[h]'h.2).count ≤ l.drainPos) := by
  have lifted := putSite_toAbortLift s.unbuilt h (s.unbuilt.site h) l latched clear known
  have into : s.unbuilt.resumeFrom h .abortLift = s.unbuilt.toAbortLift h := resumeFrom_known s.unbuilt h _ known
  rw [putSite_site, ← into] at lifted
  obtain ⟨t, step, resumed, sent⟩ :=
    g.sends tag _ _ l.drainPos s.kept.cycle.abortSpeed ((s.drives[h]'h.2).count ≤ l.drainPos)
    (.inr rfl) station (by simp only [MotionCmd.alreadyThere, decide_eq_true_eq]) lifted
  have stays : (s.unbuilt.site h).ctx.leaveLowering = s.ctxs[h]'h.2 :=
    leaveLowering_stays _ (.inl (by
      have e : (s.unbuilt.site h).ctx.effective = .abortLift := effective_of_held _ _ g.held g.heldFrom
      rw [e]; decide))
  refine ⟨t, step, ?_, sent⟩
  simp only [DipCtx.abortLifting, stays, DipState.moving, Bool.and_true] at resumed
  exact resumed

/-! ### A drain gone on with (R35, R44) -/

/-- A dip context back in DRAIN, its hook away or not. -/
def DipCtx.drainingAgain (c : DipCtx) (away : Bool) : DipCtx :=
  { c with state := .drain, heldFrom := none, ret := none, shakeDone := true, returning := away }

theorem resumeDrain_away (s : State) (h : Hoist) (l : Latched) (latched : (s.ctxs[h]'h.2).latched = some l)
    (clear : s.driveClear h) (known : (s.drives[h]'h.2).known = true) (away : l.drainPos < (s.drives[h]'h.2).count) :
    s.resumeDrain h = s.putSite h (s.moveSite (s.site h) h ((s.ctxs[h]'h.2).drainingAgain true)
      (.move l.drainPos s.kept.drive.shakeSpeed)) := by
  rw [← setCtx_startMotion_eq s h _ _ clear (.inr known)]
  have pos := latchedOr_of (s.ctxs[h]'h.2) l Latched.drainPos 0 latched
  unfold State.resumeDrain
  simp only [pos, away, decide_true, if_true]
  have kept : ∀ c : DipCtx, (s.setCtx h c).kept = s.kept := fun c => by
    have e := putSite_setCtx s h (s.site h) c
    rw [putSite_site] at e
    rw [e, putSite_kept]
  rw [kept]
  rfl

theorem resumeDrain_near (s : State) (h : Hoist) (l : Latched) (latched : (s.ctxs[h]'h.2).latched = some l)
    (near : (s.drives[h]'h.2).count ≤ l.drainPos) :
    s.resumeDrain h = (s.putSite h (s.ctxSite (s.site h) h ((s.ctxs[h]'h.2).drainingAgain false))).drainCheck h := by
  rw [← putCtx_eq]
  have pos := latchedOr_of (s.ctxs[h]'h.2) l Latched.drainPos 0 latched
  have stands : ¬l.drainPos < (s.drives[h]'h.2).count := by omega
  unfold State.resumeDrain
  simp only [pos, stands, decide_false, Bool.false_eq_true, if_false]
  rfl

theorem resume_drain_away (s : State) (tag n : Nat) (h : Hoist) (l : Latched) (c : DipCtx) (g : Resuming s n h .drain)
    (on : c = { s.ctxs[h]'h.2 with state := .drain, heldFrom := none, ret := none, starved := false })
    (known : (s.drives[h]'h.2).known = true) (latched : (s.ctxs[h]'h.2).latched = some l) (station : s.stationClear h)
    (clear : s.driveClear h) (away : l.drainPos < (s.drives[h]'h.2).count) :
      ∃ t, exec (.hoistResume tag n) s = .next t ∧
      Resumed s t h tag { c with shakeDone := true, returning := true } ∧
      HookSent s t h l.drainPos s.kept.drive.shakeSpeed False := by
  obtain ⟨t, step, resumed, sent⟩ := g.sends tag _ _ l.drainPos s.kept.drive.shakeSpeed False (.inl rfl)
    station (by simp only [MotionCmd.alreadyThere, decide_eq_true_eq, iff_false]; omega)
    ((resumeFrom_known s.unbuilt h _ known).trans (resumeDrain_away s.unbuilt h l latched clear known away))
  refine ⟨t, step, ?_, sent⟩
  rw [on]
  simp only [DipCtx.drainingAgain, DipState.moving, Bool.and_false] at resumed
  exact resumed

/-- The part of a hoist back in DRAIN with its hook there. -/
def State.drainSite (s : State) (h : Hoist) : Site := s.ctxSite (s.site h) h ((s.ctxs[h]'h.2).drainingAgain false)

theorem resume_drain_stays (s : State) (tag n : Nat) (h : Hoist) (l : Latched) (c : DipCtx) (g : Resuming s n h .drain)
    (on : c = { s.ctxs[h]'h.2 with state := .drain, heldFrom := none, ret := none, starved := false })
    (known : (s.drives[h]'h.2).known = true) (latched : (s.ctxs[h]'h.2).latched = some l) (station : s.stationClear h)
    (near : (s.drives[h]'h.2).count ≤ l.drainPos) (unexpired : (s.ctxs[h]'h.2).drainExpired = false)
    (running : (s.ctxs[h]'h.2).drainT ≠ some 0) : ∃ t, exec (.hoistResume tag n) s = .next t ∧
      Resumed s t h tag { c with shakeDone := true, returning := false } ∧
      (s.bench = false → t.drives[h]'h.2 = { s.drives[h]'h.2 with permit := false }) := by
  have on_ : ¬(s.unbuilt.drainSite h).ctx.drained := fun ⟨_, _, _, due⟩ => by
    rcases due with e | e
    · exact running e
    · exact Bool.false_ne_true (unexpired.symm.trans e)
  obtain ⟨t, step, resumed, drive, _⟩ := g.resumed tag (s.unbuilt.drainSite h)
    ((resumeFrom_known s.unbuilt h _ known).trans ((resumeDrain_near s.unbuilt h l latched near).trans
      (putSite_drainCheck_stays _ h _ on_)))
    (ctxSite_quiet _ _ _ h _ (unwatched_of_clear _ h _ station) g.listening.1.2)
  refine ⟨t, step, ?_, fun unbenched => ?_⟩
  · rw [on]
    simp only [State.drainSite, State.ctxSite, DipCtx.drainingAgain, DipState.moving, Bool.and_false] at resumed
    exact resumed
  · have permitted : t.drives[h]'h.2 = (s.drives[h]'h.2).permitted s.bench .drain := drive
    rw [permitted, DriveIf.permitted, unbenched]
    rfl

theorem drainEnd_state (s : State) (h : Hoist) (x : Site) : (((s.putSite h x).drainEnd h).ctxs[h]'h.2).state =
    .weighOut := by
  obtain ⟨_, _, _, _, _, ended, _⟩ := putSite_drainEnd s h x
  rw [ended, putSite_ctx]
  rfl

theorem resume_drain_ends (s : State) (tag n : Nat) (h : Hoist) (l : Latched) (g : Resuming s n h .drain)
    (known : (s.drives[h]'h.2).known = true) (latched : (s.ctxs[h]'h.2).latched = some l) (station : s.stationClear h)
    (near : (s.drives[h]'h.2).count ≤ l.drainPos) (due : (s.ctxs[h]'h.2).drainExpired = true ∨
      (s.ctxs[h]'h.2).drainT = some 0) :
    ∃ t, exec (.hoistResume tag n) s = .next t ∧ Replies s t .hoistResume tag .ok [fN 1 DipState.weighOut.code] ∧
      t.kept = s.kept ∧ DrainEnded s t h (s.drainSite h).ctx := by
  have drained : (s.unbuilt.drainSite h).ctx.drained := ⟨rfl, rfl, rfl, due.symm⟩
  have into : s.unbuilt.resumeFrom h .drain = (s.unbuilt.putSite h (s.unbuilt.drainSite h)).drainEnd h :=
    (resumeFrom_known s.unbuilt h _ known).trans ((resumeDrain_near s.unbuilt h l latched near).trans
      (putSite_drainCheck_ends _ h _ drained))
  have state : ((s.unbuilt.resumeFrom h .drain).ctxs[h]'h.2).state = .weighOut := by
    rw [into]; exact drainEnd_state _ h _
  obtain ⟨t, finished, owed, kept, _, ended⟩ := drainEnd_finish s.unbuilt h (s.unbuilt.drainSite h) 2
    [replyTo .hoistResume tag .ok [fN 1 DipState.weighOut.code]] g.listening.1.2 rfl rfl
    (ctxSite_calm _ _ _ h _ 0 (unwatched_of_clear _ h _ station) (Site.calm_of_idle _ _ _ g.listening.1.2))
    (Nat.le_of_ble_eq_true rfl)
  exact ⟨t, by rw [g.next tag, state, into, finished], owed, kept, ended⟩

end Sys2Proof.Machine
end

section
/-! HOIST_RESUME with the position unknown: RECAL, with or without a load in the zinc (R48, R50); and the obligation on
HOIST_RESUME. -/

namespace Sys2Proof.Machine

set_option Elab.async false

/-! ### RECAL -/

theorem recalSite_calm (s u : State) (h : Hoist) (x : Site) (ret : Option DipState) (n : Nat)
    (station : s.stationClear h)
    (calm : x.Calm u n) : (s.recalSite h x ret).Calm u (n + 2) :=
  calm.more _ rfl (conds_absent s h _ _ (unwatched_of_clear s h _ station)) (Nat.le_of_eq (conds_length s h _ _))

/-- A drive that runs a recalibration from a count (R48, R142). -/
def DriveIf.recals (d : DriveIf) (set : DriveSet) (count : Nat) : Prop :=
  d.motion = some ⟨.recal set.travelLimit, set.homeSpeed⟩ ∧ d.brakeRel = true ∧ d.dir = true ∧ d.travel = 0 ∧
  d.known = false ∧ d.count = count

theorem recalSite_drive (s : State) (h : Hoist) (x : Site) (ret : Option DipState) :
    (s.recalSite h x ret).drive.recals s.kept.drive x.drive.count := by
  refine ⟨rfl, rfl, rfl, rfl, rfl, ?_⟩
  unfold State.recalSite DriveIf.sent
  simp only [halted_count]
  rfl

theorem toRecal_eq (s : State) (h : Hoist) (ret : Option DipState) (clear : s.driveClear h) :
    s.toRecal h ret = s.putSite h (s.recalSite h (s.site h) ret) := by
  have e := putSite_toRecal s h (s.site h) ret clear
  rwa [putSite_site] at e

/-- A resume that recalibrates, its order as it was. -/
theorem Resuming.recals {s : State} {n : Nat} {h : Hoist} {st : DipState} (g : Resuming s n h st) (tag : Nat)
    (ret : Option DipState) (station : s.stationClear h) (clear : s.driveClear h)
    (into : s.unbuilt.resumeFrom h st = s.unbuilt.toRecal h ret) : ∃ t, exec (.hoistResume tag n) s = .next t ∧
      Resumed s t h tag { s.ctxs[h]'h.2 with state := .recal, heldFrom := none, ret := ret } ∧
      (t.drives[h]'h.2).recals s.kept.drive (s.drives[h]'h.2).count := by
  obtain ⟨t, step, resumed, drive, _⟩ := g.resumed tag _ (into.trans (toRecal_eq s.unbuilt h ret clear))
    ((recalSite_calm s.unbuilt s.unbuilt h _ ret 0 station (Site.calm_of_idle _ _ _ g.listening.1.2)).quiet h
      (Nat.le_of_ble_eq_true rfl))
  refine ⟨t, step, resumed, ?_⟩
  rw [drive]
  exact recalSite_drive s.unbuilt h (s.unbuilt.site h) ret

theorem resumeFrom_recal (s : State) (h : Hoist) : s.resumeFrom h .recal = s.toRecal h (s.ctxs[h]'h.2).ret := by
  unfold State.resumeFrom
  split
  · rfl
  · rfl

theorem resumeFrom_unknown (s : State) (h : Hoist) (st : DipState) (unknown : (s.drives[h]'h.2).known = false)
    (unloaded : st.loadBelow = false) (other : st ≠ .recal) : s.resumeFrom h st = s.toRecal h (some st) := by
  unfold State.resumeFrom State.resumeRecal
  simp only [unknown, unloaded, other, Bool.false_eq_true, if_false]

/-! ### RECAL with a load in the zinc (R50) -/

/-- A dip context that recalibrates with a load in the zinc (R32, R50). -/
def DipCtx.loadRecal (c : DipCtx) : DipCtx :=
  { c.leaveLowering with flags := { c.leaveLowering.flags with recalExit := true }, dwellT := none }

theorem loadRecal_eq (c : DipCtx) (st : DipState) (effective : c.effective = st) : c.loadRecal =
    { c with dwellT := none, flags := { c.flags with
        recalExit := true, noContact := c.flags.noContact || (decide (st = .lowering) && !c.contact) } } := by
  unfold DipCtx.loadRecal DipCtx.leaveLowering
  rw [effective]
  by_cases untouched : st = .lowering ∧ c.contact = false
  · obtain ⟨lowering, e⟩ := untouched
    simp only [lowering, e, decide_true, Bool.not_false, Bool.and_true, Bool.or_true, true_and, if_true]
  · rw [if_neg untouched]
    have none_left : (decide (st = .lowering) && !c.contact) = false := by
      simpa only [Bool.and_eq_false_iff, decide_eq_false_iff_not, Bool.not_eq_false', not_and_or, Bool.not_eq_false]
        using untouched
    rw [none_left, Bool.or_false]

theorem closePending_of (s : State) (h : Hoist) (o : Order) (own : s.orderOf h = some o) :
    s.closePending h = o.closePending := by
  unfold State.closePending
  rw [own]
  rfl

theorem resumeFrom_loaded (s : State) (h : Hoist) (st : DipState) (unknown : (s.drives[h]'h.2).known = false)
    (loaded : st.loadBelow = true) : s.resumeFrom h st = s.recalWithLoad h := by
  have other : st ≠ .recal := fun e => Bool.false_ne_true (by rw [e] at loaded; exact loaded)
  unfold State.resumeFrom State.resumeRecal
  simp only [unknown, loaded, other, Bool.false_eq_true, if_false, if_true]

/-- The part of a hoist sent into RECAL with a load in the zinc. -/
def State.loadRecalSite (s : State) (h : Hoist) (x : Site) : Site :=
  s.recalSite h { x with ctx := x.ctx.loadRecal } none

theorem putSite_loadRecal (s : State) (h : Hoist) (x : Site) (clear : s.driveClear h) :
    ((s.putSite h x).modCtx h fun _ => x.ctx.loadRecal).toRecal h none = s.putSite h (s.loadRecalSite h x) := by
  rw [putSite_modCtx, putSite_toRecal s h _ none clear]
  rfl

theorem recalWithLoad_pending (s : State) (h : Hoist) (o : Order) (own : s.orderOf h = some o)
    (closing : o.closePending = true) (clear : s.driveClear h) :
    s.recalWithLoad h = s.putSite h (s.loadRecalSite h (s.site h)) := by
  rw [← putSite_loadRecal s h (s.site h) clear, putSite_site]
  unfold State.recalWithLoad
  rw [if_pos ((closePending_of s h o own).trans closing)]
  rfl

theorem recalWithLoad_turns (s : State) (h : Hoist) (o : Order) (r : OrderRef) (own : s.orderOf h = some o)
    (at_ : (s.ctxs[h]'h.2).order = some r) (open_ : o.closePending = false) (clear : s.driveClear h) : ∃ full m,
    s.recalWithLoad h = (s.turnedAt r.slot (s.ctxs[h]'h.2).resv full).putSite h
      ((s.turnedAt r.slot (s.ctxs[h]'h.2).resv full).loadRecalSite h (s.turnedSite (s.site h) .recal m)) := by
  obtain ⟨full, m, turned⟩ := putSite_turnAborted s h (s.site h) .recal r at_
  rw [putSite_site] at turned
  refine ⟨full, m, ?_⟩
  rw [← putSite_loadRecal (s.turnedAt r.slot (s.ctxs[h]'h.2).resv full) h _ clear]
  unfold State.recalWithLoad
  rw [if_neg (by rw [closePending_of s h o own, open_]; decide), turned]
  simp only [putSite_ctx]
  rfl

/-- The dip context of a resume with the position unknown and the load in the zinc (R48, R50). -/
def DipCtx.resumedLoaded (c : DipCtx) (st : DipState) (pending : Bool) : DipCtx :=
  { c with
    state := .recal, heldFrom := none, ret := none, dwellT := none,
    closeReason := if pending then c.closeReason else some .recal, resv := if pending then c.resv else 0,
    flags := { c.flags with
      recalExit := true, aborted := c.flags.aborted || (!pending && c.entrySeq.isSome),
      noContact := c.flags.noContact || (decide (st = .lowering) && !c.contact) } }

theorem loadRecalSite_pending (s : State) (h : Hoist) (st : DipState) (effective : (s.ctxs[h]'h.2).effective = st) :
    (s.loadRecalSite h (s.site h)).ctx = (s.ctxs[h]'h.2).resumedLoaded st true := by
  have e := loadRecal_eq (s.ctxs[h]'h.2) st effective
  have ctx : (s.loadRecalSite h (s.site h)).ctx =
      { (s.ctxs[h]'h.2).loadRecal with state := .recal, heldFrom := none, ret := none } := rfl
  rw [ctx, e]
  simp only [DipCtx.resumedLoaded, if_true, Bool.not_true, Bool.false_and, Bool.or_false]

theorem loadRecalSite_turned (s u : State) (h : Hoist) (st : DipState) (m : Vector Bool 6)
    (effective : (s.ctxs[h]'h.2).effective = st) :
    (u.loadRecalSite h (s.turnedSite (s.site h) .recal m)).ctx = (s.ctxs[h]'h.2).resumedLoaded st false := by
  have e := loadRecal_eq ((s.ctxs[h]'h.2).turned .recal) st effective
  have ctx : (u.loadRecalSite h (s.turnedSite (s.site h) .recal m)).ctx =
      { ((s.ctxs[h]'h.2).turned .recal).loadRecal with state := .recal, heldFrom := none, ret := none } := rfl
  rw [ctx, e]
  simp only [DipCtx.resumedLoaded, DipCtx.turned, Bool.false_eq_true, if_false, Bool.not_false, Bool.true_and]

theorem resume_loaded (s : State) (tag n : Nat) (h : Hoist) (st : DipState) (o : Order) (g : Resuming s n h st)
    (none_waits : s.noneQueued) (unknown : (s.drives[h]'h.2).known = false) (loaded : st.loadBelow = true)
    (own : s.orderOf h = some o) (station : s.stationClear h) (clear : s.driveClear h) :
    ∃ t, exec (.hoistResume tag n) s = .next t ∧ Replies s t .hoistResume tag .ok [fN 1 DipState.recal.code] ∧
      t = { s with ctxs := t.ctxs, orders := t.orders, reserved := t.reserved, nearlyFull := t.nearlyFull,
                   drives := t.drives, mail := t.mail, entries := t.entries, link := t.link } ∧
      t.ctxs[h]'h.2 = (s.ctxs[h]'h.2).resumedLoaded st o.closePending ∧
      t.reserved = (if o.closePending then s.reserved else s.reserved - (s.ctxs[h]'h.2).resv) ∧
      t.orderOf h = some { o with closePending := true } ∧
      (t.drives[h]'h.2).recals s.kept.drive (s.drives[h]'h.2).count ∧
      ∀ i : Hoist, i ≠ h → t.ctxs[i]'i.2 = s.ctxs[i]'i.2 ∧ t.drives[i]'i.2 = s.drives[i]'i.2 := by
  have effective := effective_of_held (s.ctxs[h]'h.2) st g.held g.heldFrom
  have into := resumeFrom_loaded s.unbuilt h st unknown loaded
  obtain ⟨_, r, at_, slot⟩ := orderOf_slot s h o own
  cases pending : o.closePending with
  | true =>
    obtain ⟨t, step, ⟨owed, only, ctx, others⟩, drive, _⟩ := g.resumed tag _
      (into.trans (recalWithLoad_pending s.unbuilt h o own pending clear))
      ((recalSite_calm s.unbuilt s.unbuilt h _ none 0 station (Site.calm_of_idle _ _ _ g.listening.1.2)).quiet h
        (Nat.le_of_ble_eq_true rfl))
    have orders : t.orders = s.orders := by rw [only]
    have same : ({ o with closePending := true } : Order) = o := by rw [← pending]
    refine ⟨t, step, owed, by rw [only], ?_, by rw [only]; rfl, ?_, ?_, others⟩
    · rw [ctx]; exact loadRecalSite_pending s.unbuilt h st effective
    · have order : (t.ctxs[h]'h.2).order = (s.ctxs[h]'h.2).order := by
        rw [ctx, loadRecalSite_pending s.unbuilt h st effective]; rfl
      rw [same, ← own]
      unfold State.orderOf
      rw [order, orders]
    · rw [drive]; exact recalSite_drive s.unbuilt h _ none
  | false =>
    obtain ⟨full, m, turned⟩ := recalWithLoad_turns s.unbuilt h o r own at_ pending clear
    have calm : (s.unbuilt.turnedSite (s.unbuilt.site h) .recal m).Calm
      (s.unbuilt.turnedAt r.slot (s.ctxs[h]'h.2).resv full) 0 :=
      turnedSite_calm s.unbuilt (s.unbuilt.site h) .recal m r.slot (s.ctxs[h]'h.2).resv full none_waits g.listening.1.2
    have calm' : ({ s.unbuilt.turnedSite (s.unbuilt.site h) .recal m with
        ctx := (s.unbuilt.turnedSite (s.unbuilt.site h) .recal m).ctx.loadRecal } : Site).Calm
        (s.unbuilt.turnedAt r.slot (s.ctxs[h]'h.2).resv full) 0 := calm.of_agenda _ rfl
    obtain ⟨link, step, owed⟩ := g.site tag _ _ (into.trans turned) g.listening.1.2
      ((recalSite_calm _ _ h _ none 0 station calm').quiet h (Nat.le_of_ble_eq_true rfl))
    have ctx := (finished_ctx (s.unbuilt.turnedAt r.slot (s.ctxs[h]'h.2).resv full) h _ link).trans
      (loadRecalSite_turned s.unbuilt (s.unbuilt.turnedAt r.slot (s.ctxs[h]'h.2).resv full) h st m effective)
    refine ⟨_, step, owed, rfl, ctx, rfl, ?_, ?_, finished_others _ h _ link⟩
    · exact orderOf_turned s _ h o r own at_ rfl ((congrArg DipCtx.order ctx).trans at_)
    · rw [finished_drive]; exact recalSite_drive _ h _ none

/-! ### HOIST_RESUME (R44, R48) -/

theorem hoistResume_refused (s : State) (tag n : Nat) (h : Hoist) (l : s.listening) (named : s.hoist? n = some h)
    (r : Result) (answer : (match (s.unbuilt.ctxs[h]'h.2).state, (s.unbuilt.ctxs[h]'h.2).heldFrom with
      | .held, some st =>
        if s.unbuilt.resumeBarred h then s.unbuilt.refuse .stillPresent
        else (s.unbuilt.resumeFrom h st).okay [fN 1 ((s.unbuilt.resumeFrom h st).ctxs[h]'h.2).state.code]
      | _, _ => s.unbuilt.refuse .wrongState) = s.unbuilt.refuse r) :
    exec (.hoistResume tag n) s = .next (s.replied .hoistResume tag r) :=
  congrArg Host.Outcome.next (request_forHoist_replied s l .hoistResume tag n h named _ s r [] answer l.1.2)

/-- The resumes with the position known that start no motion, as the first statement of R44 sums them up. -/
theorem resume_summed (s : State) (tag n : Nat) (h : Hoist) (st : DipState) (g : Resuming s n h st)
    (station : s.stationClear h) (known : (s.drives[h]'h.2).known = true)
    (calm : st = .staged ∨ st = .weighIn ∨ st = .weighOut ∨ (st = .rehang ∧ (s.ctxs[h]'h.2).rehangKept = false) ∨
      (st = .dwell ∧ (s.ctxs[h]'h.2).dwellT ≠ some 0)) :
    ∃ t, exec (.hoistResume tag n) s = .next t ∧ Replies s t .hoistResume tag .ok [fN 1 st.code] ∧
      (t.ctxs[h]'h.2).state = st ∧ (t.ctxs[h]'h.2).heldFrom = none ∧ t.kept = s.kept ∧ t.orders = s.orders ∧
      t.holders = s.holders ∧ t.waits = s.waits ∧
      ∀ i : Hoist, i ≠ h → t.ctxs[i]'i.2 = s.ctxs[i]'i.2 ∧ t.drives[i]'i.2 = s.drives[i]'i.2 := by
  by_cases weighs : st = .weighIn ∨ st = .weighOut
  · obtain ⟨t, step, only, ctx, _, replies, _, others⟩ := resume_weighs s tag n h st g known (.inr ⟨weighs, station⟩)
    have state : (t.ctxs[h]'h.2).state = st := by
      rw [ctx]
      rcases weighs with rfl | rfl <;> rfl
    rw [state] at replies
    refine ⟨t, step, replies, state, by rw [ctx]; rfl, ?_, ?_, ?_, ?_, others⟩
    all_goals rw [only]
  · obtain ⟨t, step, ⟨replies, only, ctx, others⟩, _⟩ := resume_plain s tag n h st _ g rfl known (by
      rcases calm with e | e | e | ⟨e, forgotten⟩ | ⟨e, running⟩
      · exact .inl e
      · exact absurd (.inl e) weighs
      · exact absurd (.inr e) weighs
      · exact .inr (.inl ⟨e, .inl forgotten⟩)
      · exact .inr (.inr ⟨e, running, station⟩))
    refine ⟨t, step, replies, by rw [ctx], by rw [ctx], ?_, ?_, ?_, ?_, others⟩
    all_goals rw [only]

/-- Settles O24: each resume is the operation of its held-from state on the part of one hoist. -/
theorem resumeReturns : Obligations.ResumeReturns := by
  unfold Obligations.ResumeReturns
  refine ⟨fun s tag n h l named => ⟨fun unheld => ?_, fun st held from_ => ⟨fun barred => ?_,
      fun free station known calm => resume_summed s tag n h st ⟨l, named, held, from_, free⟩ station known calm,
      fun free station clear known e p lat pass latched away => ?_,
        fun free station clear unknown unloaded other => ?_⟩⟩,
    fun s tag n h st c l named held from_ free on => ?_⟩
  · refine hoistResume_refused s tag n h l named .wrongState ?_
    have unheld' : (s.unbuilt.ctxs[h]'h.2).state ≠ .held := unheld
    split
    · rename_i e _; exact absurd e unheld'
    · rfl
  · refine hoistResume_refused s tag n h l named .stillPresent ?_
    have held' : (s.unbuilt.ctxs[h]'h.2).state = .held := held
    have from' : (s.unbuilt.ctxs[h]'h.2).heldFrom = some st := from_
    have barred' : s.unbuilt.resumeBarred h = true := barred
    simp only [held', from', barred', if_true]
  · subst e
    obtain ⟨t, step, ⟨replies, _, ctx, others⟩, count, _, sent, _⟩ := resume_lowering s tag n h _ lat p
      ⟨l, named, held, from_, free⟩ rfl known latched station clear pass
    obtain ⟨motion, brake, dir, _⟩ := sent away
    exact ⟨t, step, replies, by rw [ctx], by rw [ctx], motion, brake, dir, count, others⟩
  · have g : Resuming s n h st := ⟨l, named, held, from_, free⟩
    obtain ⟨t, step, ⟨replies, _, ctx, others⟩, motion, _⟩ := g.recals tag (some st) station clear
      (resumeFrom_unknown s.unbuilt h st unknown unloaded other)
    exact ⟨t, step, replies, by rw [ctx], by rw [ctx], by rw [ctx], motion, others⟩
  have g : Resuming s n h st := ⟨l, named, held, from_, free⟩
  refine ⟨fun known => ⟨fun plain => resume_plain s tag n h st c g on known plain, fun o e remembered free own => ?_,
      fun e unaligned => ?_, fun weighs => on ▸ resume_weighs s tag n h st g known weighs,
      fun lat latched station clear => ⟨fun p e pass => ?_,
        fun lifts => resume_lifting s tag n h st lat g known latched station clear lifts, fun e => ?_, fun e away => ?_,
        fun e near unexpired running => ?_, fun e near due => ?_⟩⟩,
    fun station clear => ⟨fun e => ?_, fun o none_waits unknown loaded own => ?_⟩⟩
  · subst e
    obtain ⟨t, step, replies, ctx, reserved, _, _, order, claim, others⟩ :=
      resume_rehang s tag n h o g known remembered free own
    refine ⟨t, step, replies, ?_, ?_, ?_, ?_, ?_, reserved, order, claim, others⟩
    all_goals exact (congrArg _ ctx).trans rfl
  · subst e
    exact resume_aligning s tag n h c g on known unaligned
  · subst e
    exact resume_lowering s tag n h c lat p g on known latched station clear pass
  · subst e
    exact resume_abortLift s tag n h lat g known latched station clear
  · subst e
    exact resume_drain_away s tag n h lat c g on known latched station clear away
  · subst e
    exact resume_drain_stays s tag n h lat c g on known latched station near unexpired running
  · subst e
    obtain ⟨t, step, replies, kept, ctx, asked, orders, reserved, holders, others⟩ :=
      resume_drain_ends s tag n h lat g known latched station near due
    refine ⟨t, step, replies, ?_, asked, kept, orders, reserved, holders, others⟩
    rw [ctx, on]
    rfl
  · subst e
    obtain ⟨t, step, resumed, motion, brake, dir, travel, lost, count⟩ := g.recals tag (s.ctxs[h]'h.2).ret station clear
      (resumeFrom_recal s.unbuilt h)
    exact ⟨t, step, resumed, motion, brake, dir, travel, lost, count⟩
  · obtain ⟨t, step, replies, only, ctx, reserved, own', ⟨motion, brake, dir, _, lost, count⟩, others⟩ :=
      resume_loaded s tag n h st o g none_waits unknown loaded own station clear
    exact ⟨t, step, replies, only, ctx, reserved, ⟨_, own', rfl, rfl, rfl⟩, motion, brake, dir, lost, count, others⟩

end Sys2Proof.Machine
end

section
/-! HOIST_ABORT, by the state it finds (R45 to R47). -/

namespace Sys2Proof.Machine

set_option Elab.async false

/-! ### The order turned onto the abort path (R45) -/

/-- An abort request on a hoist whose order is not yet on the abort path. -/
structure Aborting (s : State) (n : Nat) (h : Hoist) (o : Order) (r : OrderRef) : Prop where
  listening : s.listening
  named : s.hoist? n = some h
  lowered : (s.ctxs[h]'h.2).state ≠ .parked
  none_waits : s.noneQueued
  ordered : (s.ctxs[h]'h.2).order = some r
  slot : r.slot = o.slot
  own : s.orderOf h = some o
  open_ : o.closePending = false

/-- The machine with the order of a hoist on the abort path. -/
abbrev State.turnedFor (s : State) (h : Hoist) (r : OrderRef) (full : Bool) : State :=
  s.turnedAt r.slot (s.ctxs[h]'h.2).resv full

theorem turnAborted_eq (s : State) (h : Hoist) (why : CloseReason) (r : OrderRef)
    (ordered : (s.ctxs[h]'h.2).order = some r) :
    ∃ full m, s.turnAborted h why = (s.turnedFor h r full).putSite h (s.turnedSite (s.site h) why m) := by
  have turned := putSite_turnAborted s h (s.site h) why r ordered
  rwa [putSite_site] at turned

theorem abort_turns (s : State) (h : Hoist) (o : Order) (r : OrderRef) (why : CloseReason)
    (ordered : (s.ctxs[h]'h.2).order = some r)
    (own : s.orderOf h = some o) (open_ : o.closePending = false) :
    s.abort h why = (s.turnAborted h why).abortBy h why := by
  unfold State.abort
  simp only [ordered, closePending_of s h o own, open_, Option.isNone_some, Bool.false_eq_true, if_false]

section
variable {s : State} {n : Nat} {h : Hoist} {o : Order} {r : OrderRef}

theorem Aborting.abort_eq (g : Aborting s n h o r) : ∃ full m, s.unbuilt.abort h .request =
    ((s.unbuilt.turnedFor h r full).putSite h (s.unbuilt.turnedSite (s.unbuilt.site h)
      .request m)).abortBy h .request := by
  obtain ⟨full, m, turned⟩ := turnAborted_eq s.unbuilt h .request r g.ordered
  exact ⟨full, m, (abort_turns s.unbuilt h o r .request g.ordered g.own g.open_).trans (by rw [turned])⟩

theorem Aborting.next (g : Aborting s n h o r) (tag : Nat) : exec (.hoistAbort tag n) s =
    .next ((s.unbuilt.abort h .request).owing
      [replyTo .hoistAbort tag .ok [fN 1 (s.ctxs[h]'h.2).state.code]]).settle.transmit :=
  hoistAbort_taken s tag n h g.listening g.named g.lowered

theorem Aborting.calm (g : Aborting s n h o r) (full : Bool) (m : Vector Bool 6) :
    (s.unbuilt.turnedSite (s.unbuilt.site h) .request m).Calm (s.unbuilt.turnedFor h r full) 0 :=
  turnedSite_calm s.unbuilt (s.unbuilt.site h) .request m r.slot (s.ctxs[h]'h.2).resv full g.none_waits g.listening.1.2

/-- An abort that changes, besides the order and its reservations, the part of its hoist alone. -/
theorem Aborting.turned (g : Aborting s n h o r) (tag : Nat) (full : Bool) (x : Site)
    (e : s.unbuilt.abort h .request = (s.unbuilt.turnedFor h r full).putSite h x)
    (q : x.Quiet (s.unbuilt.turnedFor h r full) h) : ∃ t, exec (.hoistAbort tag n) s = .next t ∧
      Replies s t .hoistAbort tag .ok [fN 1 (s.ctxs[h]'h.2).state.code] ∧ TurnedAborted s t h o x.ctx ∧
      t.drives = s.drives.set h x.drive ∧ t.mail = s.mail.set h x.mail ∧
      t.entries = keepReports s.entries x.agenda.reports := by
  obtain ⟨link, finished, sent⟩ :=
    finish_site (s.unbuilt.turnedFor h r full) h x [replyTo .hoistAbort tag .ok [fN 1 (s.ctxs[h]'h.2).state.code]]
    g.listening.1.2 q
  refine ⟨_, (g.next tag).trans (congrArg Host.Outcome.next
    ((congrArg (fun u : State => (u.owing _).settle.transmit) e).trans
    finished)), sent.owed, ⟨rfl, finished_ctx (s.unbuilt.turnedFor h r full) h x link, fun i ne =>
    (finished_others (s.unbuilt.turnedFor h r full) h x link i ne).1, ?_⟩, rfl, rfl, rfl⟩
  rw [← g.slot]
  rfl

end

/-! ### The abort path by state -/

theorem abortBy_weighOut (s : State) (h : Hoist) (why : CloseReason)
    (effective : (s.ctxs[h]'h.2).effective = .weighOut) :
    s.abortBy h why = s := by
  unfold State.abortBy
  simp only [effective]

theorem abortBy_recal (s : State) (h : Hoist) (why : CloseReason) (effective : (s.ctxs[h]'h.2).effective = .recal)
    (ret : (s.ctxs[h]'h.2).ret = some .drain) : s.abortBy h why = s.modCtx h fun c =>
    { c with recalAbort := true } := by
  unfold State.abortBy
  simp only [effective, State.modCtx, ret, decide_true, Bool.true_or]

theorem abortBy_heldDrain (s : State) (h : Hoist) (why : CloseReason) (held : (s.ctxs[h]'h.2).state = .held)
    (effective : (s.ctxs[h]'h.2).effective = .drain) :
    s.abortBy h why = s.modCtx h fun c => { c with drainExpired := true, shakeDone := true } := by
  unfold State.abortBy
  simp only [effective, held, if_true]

theorem abortBy_drain (s : State) (h : Hoist) (why : CloseReason) (drain : (s.ctxs[h]'h.2).state = .drain) :
    s.abortBy h why = s.cutDrain h := by
  have effective := effective_of_not_held (s.ctxs[h]'h.2) (by rw [drain]; decide)
  unfold State.abortBy
  simp only [effective, drain]
  exact if_neg (fun e => nomatch e)

theorem abortBy_heldLoaded (s : State) (h : Hoist) (why : CloseReason) (held : (s.ctxs[h]'h.2).state = .held)
    (st : DipState)
    (effective : (s.ctxs[h]'h.2).effective = st) (loaded : st = .lowering ∨ st = .dwell ∨ st = .lifting) :
    s.abortBy h why = s.putCtx h {
      (s.ctxs[h]'h.2).leaveLowering with heldFrom := some .abortLift, dwellT := none } := by
  unfold State.abortBy
  rcases loaded with rfl | rfl | rfl <;> simp only [effective, held, if_true]

theorem abortBy_loaded (s : State) (h : Hoist) (why : CloseReason)
    (loaded : (s.ctxs[h]'h.2).state = .lowering ∨ (s.ctxs[h]'h.2).state = .dwell ∨ (s.ctxs[h]'h.2).state = .lifting) :
    s.abortBy h why = s.toAbortLift h := by
  have free : (s.ctxs[h]'h.2).state ≠ .held := by
    intro e
    rw [e] at loaded
    rcases loaded with n | n | n <;> exact nomatch n
  have effective := effective_of_not_held (s.ctxs[h]'h.2) free
  unfold State.abortBy
  rcases loaded with e | e | e <;> simp only [effective, e] <;> exact if_neg (fun n => nomatch n)

theorem abortBy_unlowered (s : State) (h : Hoist) (why : CloseReason)
    (early : (s.ctxs[h]'h.2).effective = .staged ∨ (s.ctxs[h]'h.2).effective = .aligning ∨
      (s.ctxs[h]'h.2).effective = .weighIn) :
    s.abortBy h why = s.closeUnlowered h .aborted why := by
  unfold State.abortBy
  rcases early with e | e | e <;> simp only [e]

theorem abortBy_rehang (s : State) (h : Hoist) (why : CloseReason) (rehang : (s.ctxs[h]'h.2).effective = .rehang) :
    s.abortBy h why = s.closeRehang h why := by
  unfold State.abortBy
  simp only [rehang]

/-! ### Aborts that only mark (R45) -/

/-- An abort that changes the dip context and nothing else of its hoist. -/
theorem Aborting.marks {s : State} {n : Nat} {h : Hoist} {o : Order} {r : OrderRef} (g : Aborting s n h o r) (tag : Nat)
    (f : DipCtx → DipCtx) (by_ : ∀ (u : State) (x : Site), x.ctx = (s.ctxs[h]'h.2).turned .request →
      (u.putSite h x).abortBy h .request = u.putSite h { x with ctx := f x.ctx }) :
    ∃ t, exec (.hoistAbort tag n) s = .next t ∧ TurnedAborted s t h o (f ((s.ctxs[h]'h.2).turned .request)) ∧
      t.drives = s.drives ∧ t.mail = s.mail ∧ t.entries = s.entries ∧
      Replies s t .hoistAbort tag .ok [fN 1 (s.ctxs[h]'h.2).state.code] := by
  obtain ⟨full, m, e⟩ := g.abort_eq
  rw [by_ _ _ rfl] at e
  have calm := g.calm full m
  have reports : (s.unbuilt.turnedSite (s.unbuilt.site h) .request m).agenda.reports = [] :=
    congrArg Agenda.reports g.listening.1.2
  have calm' : ({ s.unbuilt.turnedSite (s.unbuilt.site h) .request m with
      ctx := f ((s.ctxs[h]'h.2).turned .request) } : Site).Calm
      (s.unbuilt.turnedFor h r full) 0 := calm.of_agenda _ rfl
  obtain ⟨t, step, replies, turned, drives, mail, entries⟩ := g.turned tag full _ e (calm'.quiet h (Nat.zero_le 100))
  refine ⟨t, step, turned, drives.trans (hoist_set_get _ h), mail.trans (hoist_set_get _ h), entries.trans ?_, replies⟩
  rw [reports]
  rfl

theorem abort_weighOut (s : State) (tag n : Nat) (h : Hoist) (o : Order) (r : OrderRef) (g : Aborting s n h o r)
    (effective : (s.ctxs[h]'h.2).effective = .weighOut) : ∃ t, exec (.hoistAbort tag n) s = .next t ∧
      TurnedAborted s t h o ((s.ctxs[h]'h.2).turned .request) ∧ t.drives = s.drives ∧ t.mail = s.mail ∧
      t.entries = s.entries ∧
      Replies s t .hoistAbort tag .ok [fN 1 (s.ctxs[h]'h.2).state.code] :=
  g.marks tag id fun u x e => abortBy_weighOut _ h _ (by rw [putSite_ctx, e]; exact effective)

theorem abort_recal (s : State) (tag n : Nat) (h : Hoist) (o : Order) (r : OrderRef) (g : Aborting s n h o r)
    (effective : (s.ctxs[h]'h.2).effective = .recal) (ret : (s.ctxs[h]'h.2).ret = some .drain) :
    ∃ t, exec (.hoistAbort tag n) s = .next t ∧
      TurnedAborted s t h o { (s.ctxs[h]'h.2).turned .request with recalAbort := true } ∧ t.drives = s.drives ∧
      t.mail = s.mail ∧ t.entries = s.entries ∧ Replies s t .hoistAbort tag .ok [fN 1 (s.ctxs[h]'h.2).state.code] :=
  g.marks tag (fun c => { c with recalAbort := true }) fun u x e => by
    rw [abortBy_recal _ h _ (by rw [putSite_ctx, e]; exact effective) (by rw [putSite_ctx, e]; exact ret)]
    exact putSite_modCtx u h x _

theorem abort_heldDrain (s : State) (tag n : Nat) (h : Hoist) (o : Order) (r : OrderRef) (g : Aborting s n h o r)
    (held : (s.ctxs[h]'h.2).state = .held) (from_ : (s.ctxs[h]'h.2).heldFrom = some .drain) :
    ∃ t, exec (.hoistAbort tag n) s = .next t ∧
      TurnedAborted s t h o { (s.ctxs[h]'h.2).turned .request with drainExpired := true, shakeDone := true } ∧
      t.drives = s.drives ∧ t.mail = s.mail ∧ t.entries = s.entries ∧
      Replies s t .hoistAbort tag .ok [fN 1 (s.ctxs[h]'h.2).state.code] :=
  g.marks tag (fun c => { c with drainExpired := true, shakeDone := true }) fun u x e => by
    rw [abortBy_heldDrain _ h _ (by rw [putSite_ctx, e]; exact held)
      (by rw [putSite_ctx, e]; exact effective_of_held (s.ctxs[h]'h.2) .drain held from_)]
    exact putSite_modCtx u h x _

/-! ### Aborts with a load in the zinc (R45, R47) -/

/-- A dip context held from a state with the load in the zinc, after its order's abort (R32, R45). -/
def DipCtx.liftsAtResume (c : DipCtx) : DipCtx := { c.leaveLowering with heldFrom := some .abortLift, dwellT := none }

theorem leaveLowering_eq (c : DipCtx) (st : DipState) (effective : c.effective = st) : c.leaveLowering =
    { c with flags := { c.flags with noContact := c.flags.noContact || (decide (st = .lowering) && !c.contact) } } := by
  unfold DipCtx.leaveLowering
  rw [effective]
  by_cases untouched : st = .lowering ∧ c.contact = false
  · obtain ⟨lowering, e⟩ := untouched
    simp only [lowering, e, decide_true, Bool.not_false, Bool.and_true, Bool.or_true, true_and, if_true]
  · rw [if_neg untouched]
    have none_left : (decide (st = .lowering) && !c.contact) = false := by
      simpa only [Bool.and_eq_false_iff, decide_eq_false_iff_not, Bool.not_eq_false', not_and_or, Bool.not_eq_false]
        using untouched
    rw [none_left, Bool.or_false]

theorem abort_heldLoaded (s : State) (tag n : Nat) (h : Hoist) (o : Order) (r : OrderRef) (st : DipState)
    (g : Aborting s n h o r) (held : (s.ctxs[h]'h.2).state = .held) (from_ : (s.ctxs[h]'h.2).heldFrom = some st)
    (station : s.stationClear h) (loaded : st = .lowering ∨ st = .dwell ∨ st = .lifting) :
    ∃ t, exec (.hoistAbort tag n) s = .next t ∧ Replies s t .hoistAbort tag .ok [fN 1 (s.ctxs[h]'h.2).state.code] ∧
      TurnedAborted s t h o { ((s.ctxs[h]'h.2).turned .request).liftsAtResume with starved := false } ∧
      (s.bench = false → t.drives[h]'h.2 = { s.drives[h]'h.2 with permit := false }) ∧
      ∀ i : Hoist, i ≠ h → t.drives[i]'i.2 = s.drives[i]'i.2 := by
  obtain ⟨full, m, e⟩ := g.abort_eq
  have effective := effective_of_held (s.ctxs[h]'h.2) st held from_
  rw [abortBy_heldLoaded _ h _ (by rw [putSite_ctx]; exact held) st (by rw [putSite_ctx]; exact effective) loaded,
    putSite_ctx,
    putSite_putCtx_site] at e
  obtain ⟨t, step, replies, turned, drives, _, _⟩ := g.turned tag full _ e
    ((ctxSite_calm (s.unbuilt.turnedFor h r full) _ _ h ((s.ctxs[h]'h.2).turned .request).liftsAtResume 0
      (unwatched_of_clear _ h _ station) (g.calm full m)).quiet h (Nat.le_of_ble_eq_true rfl))
  have still : ((s.ctxs[h]'h.2).turned .request).liftsAtResume.state = .held := by
    unfold DipCtx.liftsAtResume DipCtx.leaveLowering
    split
    · exact held
    · exact held
  refine ⟨t, step, replies, ?_, fun unbenched => ?_, fun i ne => ?_⟩
  · have ctx : ({ ((s.ctxs[h]'h.2).turned .request).liftsAtResume with
        starved := ((s.ctxs[h]'h.2).turned .request).liftsAtResume.starved &&
          ((s.ctxs[h]'h.2).turned .request).liftsAtResume.state.moving }
        : DipCtx) = { ((s.ctxs[h]'h.2).turned .request).liftsAtResume with starved := false } := by
      rw [still]
      simp only [DipState.moving, Bool.and_false]
    exact ctx ▸ turned
  · have state : ((s.ctxs[h]'h.2).turned .request).leaveLowering.state = .held := still
    have permitted : t.drives[h]'h.2 =
      (s.drives[h]'h.2).permitted s.bench ((s.ctxs[h]'h.2).turned .request).leaveLowering.state := by
      rw [drives, hoist_set_same]
      rfl
    rw [permitted, state, unbenched]
    rfl
  · rw [drives]
    exact hoist_set_ne _ h i _ ne

/-- From LOWERING, DWELL and LIFTING the hook is brought up (R45, R47). -/
theorem abort_lifts (s : State) (tag n : Nat) (h : Hoist) (o : Order) (r : OrderRef) (l : Latched)
    (g : Aborting s n h o r)
    (latched : (s.ctxs[h]'h.2).latched = some l)
    (loaded : (s.ctxs[h]'h.2).state = .lowering ∨ (s.ctxs[h]'h.2).state = .dwell ∨ (s.ctxs[h]'h.2).state = .lifting)
    (station : s.stationClear h) (clear : s.driveClear h) (known : (s.drives[h]'h.2).known = true)
    (above : l.drainPos < (s.drives[h]'h.2).count) : ∃ t, exec (.hoistAbort tag n) s = .next t ∧
      Replies s t .hoistAbort tag .ok [fN 1 (s.ctxs[h]'h.2).state.code] ∧
      TurnedAborted s t h o ((s.ctxs[h]'h.2).turned .request).abortLifting ∧
      (t.drives[h]'h.2).motion = some ⟨.move l.drainPos, s.kept.cycle.abortSpeed⟩ ∧ (t.drives[h]'h.2).dir = true ∧
      (t.drives[h]'h.2).brakeRel = true ∧ (t.drives[h]'h.2).count = (s.drives[h]'h.2).count ∧
      ∀ i : Hoist, i ≠ h → t.drives[i]'i.2 = s.drives[i]'i.2 := by
  obtain ⟨full, m, e⟩ := g.abort_eq
  rw [abortBy_loaded _ h _ (by rw [putSite_ctx]; exact loaded),
    putSite_toAbortLift (s.unbuilt.turnedFor h r full) h _ l latched clear known] at e
  obtain ⟨t, step, replies, ⟨only, ctx, rest, orders⟩, drives, mail, _⟩ := g.turned tag full _ e
    ((moveSite_calm (s.unbuilt.turnedFor h r full) _ _ h _ _ 0 (unwatched_of_clear _ h _ station)
      (g.calm full m)).quiet h (Nat.le_of_ble_eq_true rfl))
  obtain ⟨count, _, away, _⟩ := hookSent_of_moveSite s t (s.unbuilt.turnedFor h r full) h _
    ((s.ctxs[h]'h.2).turned .request).abortLifting (.lift l.drainPos s.kept.cycle.abortSpeed)
      l.drainPos s.kept.cycle.abortSpeed
    (.inr rfl) rfl rfl (by rw [drives]; exact hoist_set_same _ h _) (by rw [mail]; exact hoist_set_same _ h _)
  obtain ⟨motion, brake, dir, _⟩ := away (by simpa [MotionCmd.alreadyThere] using above)
  have starved : ({ ((s.ctxs[h]'h.2).turned .request).abortLifting with
      starved := ((s.ctxs[h]'h.2).turned .request).abortLifting.starved && true } : DipCtx) =
      ((s.ctxs[h]'h.2).turned .request).abortLifting := by rw [Bool.and_true]
  refine ⟨t, step, replies, ⟨only, ctx.trans starved, rest, orders⟩, motion, ?_, brake, count, fun i ne => ?_⟩
  · rw [dir]; exact decide_eq_true above
  · rw [drives]
    exact hoist_set_ne _ h i _ ne

/-! ### DRAIN cut short (R45) -/

/-- A dip context whose drain is cut short, its hook away or not. -/
def DipCtx.cutShort (c : DipCtx) (away : Bool) : DipCtx :=
  { c with shakeDone := true, drainT := some 0, returning := away }

/-- The part of a hoist whose drain is cut short with its hook there. -/
def State.cutSite (s : State) (h : Hoist) (x : Site) : Site :=
  { x with ctx := x.ctx.cutShort false, drive := x.drive.halted,
           agenda := ⟨x.agenda.reports ++ s.haltConds h (x.ctx.cutShort false) x.drive, x.agenda.follow⟩ }

theorem cutSite_calm (s u : State) (h : Hoist) (x : Site) (n : Nat) (station : s.stationClear h) (calm : x.Calm u n) :
    (s.cutSite h x).Calm u (n + 2) :=
  calm.more _ rfl (haltConds_absent s h _ _ (unwatched_of_clear s h _ station)) (haltConds_length s h _ _)

theorem putSite_cutDrain_near (s : State) (h : Hoist) (x : Site) (l : Latched) (latched : x.ctx.latched = some l)
    (drain : x.ctx.state = .drain) (near : x.drive.count ≤ l.drainPos) : (s.putSite h x).cutDrain h =
    (s.putSite h (s.cutSite h x)).drainEnd h := by
  rw [← putSite_drainCheck_ends s h (s.cutSite h x) ⟨drain, rfl, rfl, .inl rfl⟩]
  have pos := latchedOr_of x.ctx l Latched.drainPos 0 latched
  have stands : ¬l.drainPos < x.drive.count := by omega
  unfold State.cutDrain
  simp only [putSite_ctx, putSite_drive, pos, stands, decide_false, Bool.false_eq_true, if_false, putSite_modCtx,
    putSite_cancelMotion]
  rfl

theorem putSite_cutDrain_away (s : State) (h : Hoist) (x : Site) (l : Latched) (latched : x.ctx.latched = some l)
    (away : l.drainPos < x.drive.count) (clear : s.driveClear h) (known : x.drive.known = true) :
    (s.putSite h x).cutDrain h = s.putSite h { x with
      ctx := x.ctx.cutShort true, drive := x.drive.halted.sent s.kept.drive (.move l.drainPos s.kept.drive.shakeSpeed),
      agenda := ⟨x.agenda.reports ++ s.conds h (x.ctx.cutShort true)
        (x.drive.halted.sent s.kept.drive (.move l.drainPos s.kept.drive.shakeSpeed)), x.agenda.follow⟩ } := by
  have pos := latchedOr_of x.ctx l Latched.drainPos 0 latched
  have leaves : (MotionCmd.move l.drainPos s.kept.drive.shakeSpeed).alreadyThere x.drive.count = false := by
    simp only [MotionCmd.alreadyThere, decide_eq_false_iff_not]
    omega
  unfold State.cutDrain
  simp only [putSite_ctx, putSite_drive, pos, away, decide_true, if_true, putSite_modCtx, putSite_kept]
  exact putSite_startMotion s h { x with ctx := x.ctx.cutShort true } _ clear (.inr known) leaves

theorem abort_drain_away (s : State) (tag n : Nat) (h : Hoist) (o : Order) (r : OrderRef) (l : Latched)
    (g : Aborting s n h o r) (drain : (s.ctxs[h]'h.2).state = .drain) (latched : (s.ctxs[h]'h.2).latched = some l)
    (station : s.stationClear h) (away : l.drainPos < (s.drives[h]'h.2).count) (clear : s.driveClear h)
    (known : (s.drives[h]'h.2).known = true) : ∃ t, exec (.hoistAbort tag n) s = .next t ∧
      Replies s t .hoistAbort tag .ok [fN 1 (s.ctxs[h]'h.2).state.code] ∧
      TurnedAborted s t h o (((s.ctxs[h]'h.2).turned .request).cutShort true) ∧
      (t.drives[h]'h.2).motion = some ⟨.move l.drainPos, s.kept.drive.shakeSpeed⟩ ∧ (t.drives[h]'h.2).dir = true ∧
      (t.drives[h]'h.2).brakeRel = true ∧ (t.drives[h]'h.2).count = (s.drives[h]'h.2).count ∧
      ∀ i : Hoist, i ≠ h → t.drives[i]'i.2 = s.drives[i]'i.2 := by
  obtain ⟨full, m, e⟩ := g.abort_eq
  rw [abortBy_drain _ h _ (by rw [putSite_ctx]; exact drain),
    putSite_cutDrain_away (s.unbuilt.turnedFor h r full) h _ l latched away clear known] at e
  obtain ⟨t, step, replies, turned, drives, _, _⟩ := g.turned tag full _ e
    (((g.calm full m).more _ rfl (conds_absent _ h _ _ (unwatched_of_clear _ h _ station))
      (Nat.le_of_eq (conds_length _ h _ _))).quiet h (Nat.le_of_ble_eq_true rfl))
  refine ⟨t, step, replies, turned, ?_, ?_, ?_, ?_, fun i ne => by rw [drives]; exact hoist_set_ne _ h i _ ne⟩
  all_goals rw [drives, hoist_set_same]
  · rfl
  · have count : ((s.drives[h]'h.2).halted).count = (s.drives[h]'h.2).count := halted_count _
    exact decide_eq_true (count.symm ▸ away)
  · rfl
  · exact halted_count (s.drives[h]'h.2)

theorem abort_drain_near (s : State) (tag n : Nat) (h : Hoist) (o : Order) (r : OrderRef) (l : Latched)
    (g : Aborting s n h o r) (drain : (s.ctxs[h]'h.2).state = .drain) (latched : (s.ctxs[h]'h.2).latched = some l)
    (station : s.stationClear h) (near : (s.drives[h]'h.2).count ≤ l.drainPos) : ∃ t full,
      exec (.hoistAbort tag n) s = .next t ∧ Replies s t .hoistAbort tag .ok [fN 1 (s.ctxs[h]'h.2).state.code] ∧
      t.kept = s.kept ∧ (t.drives[h]'h.2).motion = none ∧
      DrainEnded (s.turnedFor h r full) t h (((s.ctxs[h]'h.2).turned .request).cutShort false) := by
  obtain ⟨full, m, e⟩ := g.abort_eq
  rw [abortBy_drain _ h _ (by rw [putSite_ctx]; exact drain),
    putSite_cutDrain_near (s.unbuilt.turnedFor h r full) h _ l latched drain near] at e
  obtain ⟨t, finished, owed, kept, drive, ended⟩ := drainEnd_finish (s.unbuilt.turnedFor h r full) h _ 2
    [replyTo .hoistAbort tag .ok [fN 1 (s.ctxs[h]'h.2).state.code]] g.listening.1.2 rfl rfl
    (cutSite_calm (s.unbuilt.turnedFor h r full) _ h _ 0 station (g.calm full m)) (Nat.le_of_ble_eq_true rfl)
  refine ⟨t, full, by rw [g.next tag, e, finished], owed, kept, ?_, ended⟩
  rw [drive]
  exact halted_motion (s.drives[h]'h.2)

/-! ### Closes by an abort (R45) -/

theorem withdrawClaim_frees (s : State) (h : Hoist) (unclaimed : ∀ c ∈ s.waits, c.hoist ≠ h) :
    ∀ z : Fin 12, (s.withdrawClaim h).holders[z]'z.2 ≠ some h := by
  have none_waits : ¬(s.waits.any fun c => c.hoist == h) = true := by simpa using unclaimed
  intro z
  unfold State.withdrawClaim
  rw [if_neg none_waits]
  split
  · obtain ⟨holders, waits, mail, released, _, free⟩ := release_only s h
    rw [released]
    exact free unclaimed z
  · rename_i unheld
    intro held
    refine unheld (List.any_eq_true.2 ⟨z, ?_, by simpa using held⟩)
    exact List.mem_finRange z

/-- After an order is closed with nothing lowered its hoist holds no zone, unless an older claim of its was still waiting. -/
theorem closeUnlowered_frees (s : State) (h : Hoist) (how : Closing) (why : CloseReason) (r : OrderRef)
    (ordered : (s.ctxs[h]'h.2).order = some r) (unclaimed : ∀ c ∈ s.waits, c.hoist ≠ h) :
    ∀ z : Fin 12, (s.closeUnlowered h how why).holders[z]'z.2 ≠ some h := by
  by_cases staged : (s.ctxs[h]'h.2).effective = .staged
  · obtain ⟨wu, mail, dropped, _⟩ := dropWeigh_only s h
    obtain ⟨holders, waits, mail', withdrawn, _⟩ := withdrawClaim_only (s.dropWeigh h) h
    have free : ∀ z : Fin 12, holders[z]'z.2 ≠ some h := by
      have gone := withdrawClaim_frees (s.dropWeigh h) h (by rw [dropped]; exact unclaimed)
      rw [withdrawn] at gone
      exact gone
    have closing : s.closeUnlowered h how why = ((State.returnHeld { s.dropWeigh h with
        holders := holders, waits := waits, mail := mail' } h).closeOrder h how (some why)) := by
      unfold State.closeUnlowered
      dsimp only
      rw [if_pos staged, withdrawn]
    obtain ⟨full, m, returned⟩ :=
      returnHeld_only { s.dropWeigh h with holders := holders, waits := waits, mail := mail' } h
    have own :
      ((State.returnHeld { s.dropWeigh h with holders := holders, waits := waits, mail := mail' } h).ctxs[h]'h.2).order =
        some r := by
      rw [returned, hoist_set_same, dropped]
      exact (congrArg DipCtx.order (hoist_set_same _ h _)).trans ordered
    obtain ⟨_, _, _, closed, _⟩ := closeOrder_only _ h how (some why) r own
    rw [closing, closed, returned]
    exact free
  · obtain ⟨_, _, _, _, _, _, _, closed, _, _, _, released⟩ := closeUnlowered_only s h how why r ordered
    rw [closed]
    exact released staged unclaimed

/-- An order gone from the table leaves it as it was, close pending or not. -/
theorem closingAt_filter (slot : Nat) (orders : List Order) :
    (closingAt slot orders).filter (fun o => o.slot != slot) = orders.filter fun o => o.slot != slot := by
  unfold closingAt
  induction orders with
  | nil => rfl
  | cons o os ih =>
    rw [List.map_cons, List.filter_cons, List.filter_cons, ih]
    by_cases e : o.slot = slot
    · simp [e]
    · simp [e]

/-- From `s` to `t` an abort has closed a hoist's order: it has left the table, its reservations are returned, its dip
context is PARKED. -/
def AbortClosed (s t : State) (h : Hoist) (r : OrderRef) (how : Closing) : Prop :=
  t.ctxs[h]'h.2 = { DipCtx.parked with
    runEnable := (s.ctxs[h]'h.2).runEnable, last := some ⟨r.tag, how, some .request⟩ } ∧
  t.orders = s.orders.filter (fun x => x.slot != r.slot) ∧ t.reserved = s.reserved - (s.ctxs[h]'h.2).resv ∧
    t.kept = s.kept ∧
  ∀ i : Hoist, i ≠ h → t.ctxs[i]'i.2 = s.ctxs[i]'i.2 ∧ t.drives[i]'i.2 = s.drives[i]'i.2

section
variable {s : State} {n : Nat} {h : Hoist} {o : Order} {r : OrderRef}

/-- The end of an abort that has closed the order, whatever it has left of the other blocks. -/
theorem Aborting.closes (g : Aborting s n h o r) (tag : Nat) (how : Closing) (x : State)
    (e : s.unbuilt.abort h .request = x)
    (agenda : x.agenda = ⟨absentConds h, s.takesAfterReturn (s.ctxs[h]'h.2).resv ++ [.take h]⟩)
    (ctxs : x.ctxs = s.ctxs.set h { DipCtx.parked with
      runEnable := (s.ctxs[h]'h.2).runEnable, last := some ⟨r.tag, how, some .request⟩ })
    (orders : x.orders = (closingAt r.slot s.orders).filter fun o => o.slot != r.slot)
    (reserved : x.reserved = s.reserved - (s.ctxs[h]'h.2).resv) (kept : x.kept = s.kept)
    (drives : ∀ i : Hoist, i ≠ h → x.drives[i]'i.2 = s.drives[i]'i.2) (owed : x.link.owed = s.link.owed) :
    ∃ t, exec (.hoistAbort tag n) s = .next t ∧ Replies s t .hoistAbort tag .ok [fN 1 (s.ctxs[h]'h.2).state.code] ∧
      AbortClosed s t h r how ∧ t.wu = x.wu ∧ t.waits = x.waits ∧ t.holders = x.holders := by
  rw [closingAt_filter] at orders
  obtain ⟨link, entries, finished, sent⟩ := finish_closed s x h _
    [replyTo .hoistAbort tag .ok [fN 1 (s.ctxs[h]'h.2).state.code]] agenda
      (noneQueued_of_filter s x _ g.none_waits orders)
  refine ⟨_, (g.next tag).trans (congrArg Host.Outcome.next
    ((congrArg (fun u : State => (u.owing _).settle.transmit) e).trans
    finished)), ?_, ⟨?_, orders, reserved, kept, fun i ne => ⟨?_, drives i ne⟩⟩, rfl, rfl, rfl⟩
  · exact sent.trans (congrArg (· ++ _) owed)
  · exact (congrArg (fun v : Vector DipCtx 4 => v[h]'h.2) ctxs).trans (hoist_set_same _ h _)
  · exact (congrArg (fun v : Vector DipCtx 4 => v[i]'i.2) ctxs).trans (hoist_set_ne _ h i _ ne)

theorem Aborting.turned_agenda (g : Aborting s n h o r) (m : Vector Bool 6) :
    (s.unbuilt.turnedSite (s.unbuilt.site h) .request m).agenda = ⟨[], s.takesAfterReturn (s.ctxs[h]'h.2).resv⟩ := by
  have idle : (s.unbuilt.site h).agenda = Agenda.empty := g.listening.1.2
  unfold State.turnedSite
  rw [idle]
  rfl

theorem takesAfterReturn_turned (s : State) (c : DipCtx) (why : CloseReason) :
    s.takesAfterReturn (c.turned why).resv = [] := if_pos rfl

/-- With nothing lowered the order closes ABORTED (R45). -/
theorem abort_unlowered (tag : Nat) (g : Aborting s n h o r)
    (early : (s.ctxs[h]'h.2).effective = .staged ∨ (s.ctxs[h]'h.2).effective = .aligning ∨
      (s.ctxs[h]'h.2).effective = .weighIn) :
    ∃ t, exec (.hoistAbort tag n) s = .next t ∧ Replies s t .hoistAbort tag .ok [fN 1 (s.ctxs[h]'h.2).state.code] ∧
      AbortClosed s t h r .aborted ∧ (∀ q ∈ t.wu.queue, q.hoist = h → q.dc = none) ∧
      ((s.ctxs[h]'h.2).effective = .staged → ∀ c ∈ t.waits, c.hoist ≠ h) ∧
      ((∀ c ∈ s.waits, c.hoist ≠ h) → ∀ z : Fin 12, t.holders[z]'z.2 ≠ some h) := by
  obtain ⟨full, m, e⟩ := g.abort_eq
  generalize hv : (s.unbuilt.turnedFor h r full).putSite h (s.unbuilt.turnedSite (s.unbuilt.site h) .request m) = v at e
  have ctx : v.ctxs[h]'h.2 = (s.ctxs[h]'h.2).turned .request := by rw [← hv, putSite_ctx]; rfl
  have ordered : (v.ctxs[h]'h.2).order = some r := by rw [ctx]; exact g.ordered
  have effective : (v.ctxs[h]'h.2).effective = (s.ctxs[h]'h.2).effective := by rw [ctx]; rfl
  rw [abortBy_unlowered v h _ (by rw [effective]; exact early)] at e
  obtain ⟨wu, drives, mail, holders, waits, full', m', closed, others, unasked, unclaimed, _⟩ :=
    closeUnlowered_only v h .aborted .request r ordered
  have free := closeUnlowered_frees v h .aborted .request r ordered
  have agenda : v.agenda = ⟨[], s.takesAfterReturn (s.ctxs[h]'h.2).resv⟩ := by
    rw [← hv, putSite_agenda]; exact g.turned_agenda m
  have gone : (⟨v.agenda.reports ++ absentConds h,
      v.agenda.follow ++ v.takesAfterReturn ((s.ctxs[h]'h.2).turned .request).resv ++ [.take h]⟩ : Agenda) =
      ⟨absentConds h, s.takesAfterReturn (s.ctxs[h]'h.2).resv ++ [.take h]⟩ := by
    rw [agenda, takesAfterReturn_turned, List.append_nil, List.nil_append]
  rw [closed, ctx] at e
  rw [closed] at free
  obtain ⟨t, step, replies, done, wu', waits', holders'⟩ := g.closes tag .aborted _ e gone
    (by rw [← hv]; simp only [State.putSite, Vector.set_set]; rfl) (by rw [← hv]; rfl) (by rw [← hv]; rfl)
    (by rw [← hv]; rfl) (fun i ne => (others i ne).trans (by rw [← hv]; exact hoist_set_ne _ h i _ ne))
      (by rw [← hv]; rfl)
  refine ⟨t, step, replies, done, by rw [wu']; exact unasked, fun staged => ?_, fun none_waits => ?_⟩
  · rw [waits']
    exact unclaimed (effective.trans staged)
  · rw [holders']
    exact free (by rw [← hv]; exact none_waits)

/-- Between its passes the order closes PARTIAL (R45). -/
theorem abort_rehang (tag : Nat) (g : Aborting s n h o r) (rehang : (s.ctxs[h]'h.2).effective = .rehang) :
    ∃ t, exec (.hoistAbort tag n) s = .next t ∧ Replies s t .hoistAbort tag .ok [fN 1 (s.ctxs[h]'h.2).state.code] ∧
      AbortClosed s t h r .partialDone ∧ t.holders = s.holders ∧ t.waits = s.waits := by
  obtain ⟨full, m, e⟩ := g.abort_eq
  generalize hv : (s.unbuilt.turnedFor h r full).putSite h (s.unbuilt.turnedSite (s.unbuilt.site h) .request m) = v at e
  have ctx : v.ctxs[h]'h.2 = (s.ctxs[h]'h.2).turned .request := by rw [← hv, putSite_ctx]; rfl
  have ordered : (v.ctxs[h]'h.2).order = some r := by rw [ctx]; exact g.ordered
  rw [abortBy_rehang v h _ (by rw [ctx]; exact rehang)] at e
  obtain ⟨drives, mail, full', m', closed, others⟩ := closeRehang_only v h .request r ordered
  have agenda : v.agenda = ⟨[], s.takesAfterReturn (s.ctxs[h]'h.2).resv⟩ := by
    rw [← hv, putSite_agenda]; exact g.turned_agenda m
  have gone : (⟨v.agenda.reports ++ absentConds h,
      v.agenda.follow ++ v.takesAfterReturn ((s.ctxs[h]'h.2).turned .request).resv ++ [.take h]⟩ : Agenda) =
      ⟨absentConds h, s.takesAfterReturn (s.ctxs[h]'h.2).resv ++ [.take h]⟩ := by
    rw [agenda, takesAfterReturn_turned, List.append_nil, List.nil_append]
  rw [closed, ctx] at e
  obtain ⟨t, step, replies, done, _, waits', holders'⟩ := g.closes tag .partialDone _ e gone
    (by rw [← hv]; simp only [State.putSite, Vector.set_set]; rfl) (by rw [← hv]; rfl) (by rw [← hv]; rfl)
    (by rw [← hv]; rfl) (fun i ne => (others i ne).trans (by rw [← hv]; exact hoist_set_ne _ h i _ ne))
      (by rw [← hv]; rfl)
  exact ⟨t, step, replies, done, holders'.trans (by rw [← hv]; rfl), waits'.trans (by rw [← hv]; rfl)⟩

end

/-! ### A recalibration given up (R45, R46) -/

/-- A dip context PARKED from a recalibration. -/
def DipCtx.parkedAgain (c : DipCtx) : DipCtx :=
  { c with state := .parked, heldFrom := none, ret := none, starved := false }

/-- The part of a hoist PARKED from a recalibration. -/
def State.parkSite (s : State) (h : Hoist) (x : Site) : Site :=
  { ctx := x.ctx.parkedAgain, drive := x.drive.halted.permitted s.bench .parked,
    mail := x.mail.shown x.ctx x.ctx.parkedAgain, marks := s.hoistMarks x.ctx x.ctx.parkedAgain x.marks,
    agenda := ⟨x.agenda.reports ++ s.haltConds h x.ctx x.drive ++ s.conds h x.ctx.parkedAgain x.drive.halted,
      x.agenda.follow ++ [.take h]⟩ }

theorem parkRecal_eq (s : State) (h : Hoist) : s.parkRecal h = s.putSite h (s.parkSite h (s.site h)) := by
  have stop := putSite_cancelMotion s h (s.site h)
  rw [putSite_site] at stop
  unfold State.parkRecal
  rw [stop, putSite_putCtx, putSite_followUp]
  simp only [DipState.moving, Bool.and_false]
  rfl

theorem parkSite_quiet (s : State) (h : Hoist) (station : s.stationClear h) (none_waits : s.noneQueued)
    (idle : s.agenda = Agenda.empty) : (s.parkSite h (s.site h)).Quiet s h := by
  have few := haltConds_length s h (s.ctxs[h]'h.2) (s.drives[h]'h.2)
  have reports : (s.parkSite h (s.site h)).agenda.reports = s.haltConds h (s.ctxs[h]'h.2) (s.drives[h]'h.2) ++
      s.conds h (s.ctxs[h]'h.2).parkedAgain (s.drives[h]'h.2).halted := by
    simp only [State.parkSite, State.site, idle, Agenda.empty, List.nil_append]
  have calm : (s.parkSite h (s.site h)).Calm s 4 := by
    refine ⟨?_, ?_, fun y hy => ?_, ?_⟩
    · rw [reports, List.all_append, haltConds_absent s h _ _ (unwatched_of_clear s h _ station),
        conds_absent s h _ _ (unwatched_of_clear s h _ station)]
      rfl
    · rw [reports, List.length_append, conds_length]; omega
    · simp only [State.parkSite, State.site, idle, Agenda.empty, List.nil_append, List.mem_singleton] at hy
      exact ⟨h, hy, offered_of_noneQueued s h none_waits⟩
    · simp only [State.parkSite, State.site, idle, Agenda.empty, List.nil_append, List.length_cons, List.length_nil]
      omega
  exact calm.quiet h (Nat.le_of_ble_eq_true rfl)

theorem abort_parks (s : State) (tag n : Nat) (h : Hoist) (l : s.listening) (named : s.hoist? n = some h)
    (none_waits : s.noneQueued) (station : s.stationClear h) (orderless : (s.ctxs[h]'h.2).order = none)
    (recal : (s.ctxs[h]'h.2).effective = .recal) (ret : (s.ctxs[h]'h.2).ret = some .parked) :
    ∃ t, exec (.hoistAbort tag n) s = .next t ∧ Replies s t .hoistAbort tag .ok [fN 1 (s.ctxs[h]'h.2).state.code] ∧
      t.ctxs[h]'h.2 = (s.ctxs[h]'h.2).parkedAgain ∧
      t.drives[h]'h.2 = (s.drives[h]'h.2).halted.permitted s.bench .parked ∧ t.kept = s.kept ∧
      t.orders = s.orders ∧ ∀ i : Hoist, i ≠ h → t.ctxs[i]'i.2 = s.ctxs[i]'i.2 ∧ t.drives[i]'i.2 = s.drives[i]'i.2 := by
  have lowered : (s.ctxs[h]'h.2).state ≠ .parked := by
    intro e
    have same := effective_of_not_held (s.ctxs[h]'h.2) (by rw [e]; decide)
    rw [same, e] at recal
    cases recal
  have parks : s.unbuilt.abort h .request = s.unbuilt.putSite h (s.unbuilt.parkSite h (s.unbuilt.site h)) := by
    rw [← parkRecal_eq]
    unfold State.abort
    have orderless' : (s.unbuilt.ctxs[h]'h.2).order = none := orderless
    simp only [orderless', Option.isNone_none, if_true]
    exact if_pos ⟨recal, ret⟩
  obtain ⟨link, finished, sent⟩ :=
    finish_site s.unbuilt h _ [replyTo .hoistAbort tag .ok [fN 1 (s.ctxs[h]'h.2).state.code]] l.1.2
    (parkSite_quiet s.unbuilt h station none_waits l.1.2)
  refine ⟨_, (hoistAbort_taken s tag n h l named lowered).trans (congrArg Host.Outcome.next
    ((congrArg (fun u : State => (u.owing _).settle.transmit) parks).trans finished)), sent.owed, ?_, ?_, rfl, rfl,
    finished_others s.unbuilt h _ link⟩
  · rw [finished_ctx]; rfl
  · rw [finished_drive]; rfl

/-! ### HOIST_ABORT (R45, R46) -/

theorem abort_pending (s : State) (tag n : Nat) (h : Hoist) (o : Order) (l : s.listening) (named : s.hoist? n = some h)
    (lowered : (s.ctxs[h]'h.2).state ≠ .parked) (own : s.orderOf h = some o) (closing : o.closePending = true) :
    exec (.hoistAbort tag n) s = .next (s.replied .hoistAbort tag .ok [fN 1 (s.ctxs[h]'h.2).state.code]) := by
  have lowered' : (s.unbuilt.ctxs[h]'h.2).state ≠ .parked := lowered
  obtain ⟨_, r, ordered, _⟩ := orderOf_slot s h o own
  have stays : s.unbuilt.abort h .request = s.unbuilt := by
    have ordered' : (s.unbuilt.ctxs[h]'h.2).order = some r := ordered
    unfold State.abort
    simp only [ordered', closePending_of s.unbuilt h o own, closing, Option.isNone_some, Bool.false_eq_true,
      if_false, if_true]
  refine congrArg _ (request_forHoist_replied s l .hoistAbort tag n h named _ s .ok _ ?_ l.1.2)
  rw [if_neg lowered', stays]
  rfl

/-- A dip context with an order in a state other than PARKED is one that an abort finds. -/
theorem lowered_of_effective (c : DipCtx) (st : DipState) (effective : c.effective = st) (other : st ≠ .parked) :
    c.state ≠ .parked := by
  intro e
  refine other (effective.symm.trans ?_)
  rw [effective_of_not_held c (by rw [e]; decide), e]

theorem abortLifting_fields (c : DipCtx) : c.abortLifting.closeReason = c.closeReason ∧ c.abortLifting.resv = c.resv ∧
    c.abortLifting.flags.aborted = c.flags.aborted := by
  unfold DipCtx.abortLifting DipCtx.leaveLowering
  split <;> exact ⟨rfl, rfl, rfl⟩

/-- Settles O25: the order is turned onto the abort path, and then each state has its own end. -/
theorem abortInZinc : Obligations.AbortInZinc := by
  unfold Obligations.AbortInZinc
  refine ⟨fun s tag n h l named => ⟨fun parked => ?_,
      fun o lowered own closing => abort_pending s tag n h o l named lowered own closing,
      fun o lat none_waits own open_ latched loaded station clear known above => ?_,
      fun none_waits station orderless recal ret => ?_⟩,
    fun s tag n h o l named none_waits ordered own open_ => ?_⟩
  · exact congrArg _ (request_forHoist_replied s l .hoistAbort tag n h named _ s .wrongState [] (if_pos parked) l.1.2)
  · obtain ⟨_, r, ordered, slot⟩ := orderOf_slot s h o own
    have lowered : (s.ctxs[h]'h.2).state ≠ .parked := by
      rcases loaded with e | e | e <;> rw [e] <;> exact fun n => nomatch n
    obtain ⟨t, step, replies, ⟨only, ctx, others, orders⟩, motion, dir, brake, count, drives⟩ :=
      abort_lifts s tag n h o r lat
      ⟨l, named, lowered, none_waits, ordered, slot, own, open_⟩ latched loaded station clear known above
    obtain ⟨reason, resv, aborted⟩ := abortLifting_fields ((s.ctxs[h]'h.2).turned .request)
    refine ⟨t, step, replies, by rw [ctx]; rfl, by rw [ctx, reason]; rfl, by rw [ctx]; rfl, by rw [ctx, resv]; rfl,
      by rw [only], by rw [ctx, aborted]; rfl, ⟨{ o with closePending := true }, ?_, rfl, rfl, rfl⟩, motion, dir,
      brake, count, by rw [only], by rw [only], by rw [only], fun i ne => ⟨others i ne, drives i ne⟩⟩
    refine orderOf_turned s t h o r own ordered (by rw [orders, slot]; rfl) ?_
    rw [ctx]
    unfold DipCtx.abortLifting DipCtx.leaveLowering
    split <;> exact ordered
  · obtain ⟨t, step, replies, ctx, drive, kept, orders, others⟩ :=
      abort_parks s tag n h l named none_waits station orderless recal ret
    refine ⟨t, step, replies, ctx, ?_, ?_, ?_, fun unbenched => ?_, kept, orders, others⟩
    all_goals rw [drive]
    · exact halted_motion _
    · exact halted_known _
    · exact halted_count _
    · rw [unbenched]; rfl
  have aborting (st : DipState) (effective : (s.ctxs[h]'h.2).effective = st) (other : st ≠ .parked) :
      Aborting s n h o ⟨o.slot, o.tag⟩ :=
    ⟨l, named, lowered_of_effective _ st effective other, none_waits, ordered, rfl, own, open_⟩
  refine ⟨fun early => ?_, fun rehang => ?_, fun c on => ⟨fun out => ?_, fun recal ret => ?_, fun held from_ => ?_,
    fun st held from_ station loaded => ?_⟩, fun lat drain latched station => ⟨fun near => ?_,
      fun away clear known => ?_⟩⟩
  · have g : Aborting s n h o ⟨o.slot, o.tag⟩ := by
      rcases early with e | e | e <;> exact aborting _ e fun n => nomatch n
    obtain ⟨t, step, replies, ⟨ctx, orders, reserved, kept, others⟩, unasked, unclaimed, free⟩ :=
      abort_unlowered tag g early
    exact ⟨t, step, replies, ctx, orders, reserved, kept, unasked, unclaimed, free, others⟩
  · obtain ⟨t, step, replies, ⟨ctx, orders, reserved, kept, others⟩, holders, waits⟩ :=
      abort_rehang tag (aborting _ rehang fun n => nomatch n) rehang
    exact ⟨t, step, replies, ctx, orders, reserved, kept, holders, waits, others⟩
  · subst on
    exact abort_weighOut s tag n h o _ (aborting _ out fun n => nomatch n) out
  · subst on
    exact abort_recal s tag n h o _ (aborting _ recal fun n => nomatch n) recal ret
  · subst on
    have from_drain := effective_of_held (s.ctxs[h]'h.2) .drain held from_
    have marked := abort_heldDrain s tag n h o _ (aborting _ from_drain fun n => nomatch n) held from_
    rwa [held] at marked
  · subst on
    have effective := effective_of_held (s.ctxs[h]'h.2) st held from_
    have g : Aborting s n h o ⟨o.slot, o.tag⟩ := aborting st effective (by
      rcases loaded with rfl | rfl | rfl <;> exact fun n => nomatch n)
    have lifts := abort_heldLoaded s tag n h o _ st g held from_ station loaded
    have e := leaveLowering_eq ((s.ctxs[h]'h.2).turned .request) st effective
    rw [held, DipCtx.liftsAtResume, e] at lifts
    exact lifts
  · have effective := (effective_of_not_held (s.ctxs[h]'h.2) (by rw [drain]; decide)).trans drain
    have g := aborting _ effective fun n => nomatch n
    obtain ⟨t, full, step, replies, kept, motion, ctx, asked, orders, reserved, free, others⟩ :=
      abort_drain_near s tag n h o _ lat g drain latched station near
    rw [drain] at replies
    refine ⟨t, step, replies, by rw [ctx], by rw [ctx], by rw [ctx]; rfl, by rw [ctx]; rfl, orders, reserved,
      motion, kept,
      fun none_there p pass => ?_, free, others⟩
    obtain ⟨wu, asked⟩ := asked.1 _ p ordered pass none_there
    exact ⟨by rw [wu]; rfl, asked⟩
  · have effective := (effective_of_not_held (s.ctxs[h]'h.2) (by rw [drain]; decide)).trans drain
    have g := aborting _ effective fun n => nomatch n
    obtain ⟨t, step, replies, turned, motion, dir, brake, count, others⟩ :=
      abort_drain_away s tag n h o _ lat g drain latched station away clear known
    rw [drain] at replies
    exact ⟨t, step, replies, turned, motion, dir, brake, count, others⟩

end Sys2Proof.Machine
end

section
/-! MOTION_REACHED: what the dip context does with a reached report, by its state (R32 to R35, R45, R47, R49, R50, R147,
R157). -/

namespace Sys2Proof.Machine

set_option Elab.async false

/-! ### The withdrawal of a load (R34, R97) -/

/-- The machine with a withdrawal reported: the surfaces and the ZONE mark. -/
def State.withdrawnTo (s : State) (surfaces : Vector Surface 12) (m : Vector Bool 6) : State :=
  { s with kept := { s.kept with surfaces := surfaces }, link := { s.link with marks := m } }

theorem reportWithdrawal_eq (s : State) (h : Hoist) (p : PassRec) (pass : s.passOf h = some p) : ∃ surfaces m,
    s.reportWithdrawal h = s.withdrawnTo surfaces m ∧
    ∀ z : Fin 12, surfaces[z]'z.2 = if (s.ctxs[h]'h.2).entered = true ∧ p.first ≤ zoneNo z ∧ zoneNo z ≤ p.last
      then ⟨true, min 255 ((s.kept.surfaces[z]'z.2).withdrawals + 1)⟩ else s.kept.surfaces[z]'z.2 := by
  unfold State.reportWithdrawal
  rw [pass]
  simp only
  by_cases entered : (s.ctxs[h]'h.2).entered = true
  · rw [if_pos entered]
    unfold State.loadWithdrawn
    dsimp only
    rw [markIf_eq]
    refine ⟨_, _, rfl, fun z => ?_⟩
    have spanned : ((s.ctxs[h]'h.2).entered = true ∧ p.first ≤ zoneNo z ∧ zoneNo z ≤ p.last) =
        (p.first ≤ z.val + 1 ∧ z.val + 1 ≤ p.last) := propext (and_iff_right entered)
    simp only [spanned]
    exact Vector.getElem_mapIdx _
  · rw [if_neg entered]
    refine ⟨s.kept.surfaces, s.link.marks, rfl, fun z => ?_⟩
    rw [if_neg fun ⟨e, _⟩ => entered e]

/-! ### DRAIN (R34, R50) -/

/-- The contents a dip context has on entry to DRAIN, its starved mark as it was. -/
def DipCtx.draining (c : DipCtx) (timer : Nat) (shakeDone : Bool) : DipCtx :=
  { c with state := .drain, heldFrom := none, ret := none, clock := c.clock.stop, entered := false,
           drainT := some timer,
           drainExpired := false, shakeDone := shakeDone, returning := false, recalAbort := false }

theorem draining_inDrain (c : DipCtx) (timer : Nat) (shakeDone : Bool) :
    { c.draining timer shakeDone with starved := (c.draining timer shakeDone).starved && DipState.drain.moving } =
      c.inDrain timer shakeDone := by
  simp only [DipState.moving, Bool.and_false]
  rfl

/-- The part of a hoist that enters DRAIN without a motion. -/
def State.drainInSite (u : State) (h : Hoist) (timer : Nat) : Site :=
  u.ctxSite (u.site h) h ((u.ctxs[h]'h.2).draining timer true)

theorem drainInSite_ctx (u : State) (h : Hoist) (timer : Nat) :
    (u.drainInSite h timer).ctx = (u.ctxs[h]'h.2).inDrain timer true :=
  draining_inDrain (u.ctxs[h]'h.2) timer true

theorem toDrainStill_eq (s : State) (h : Hoist) (timer : Nat) : s.toDrainStill h timer =
    ((s.reportWithdrawal h).putSite h ((s.reportWithdrawal h).drainInSite h timer)).drainCheck h := by
  unfold State.drainInSite
  rw [← putCtx_eq]
  rfl

theorem drained_inDrain (u : State) (h : Hoist) (timer : Nat) : (u.drainInSite h timer).ctx.drained ↔ timer = 0 := by
  constructor
  · rintro ⟨_, _, _, due⟩
    rcases due with e | e
    · exact Option.some.inj e
    · cases e
  · rintro rfl
    exact ⟨rfl, rfl, rfl, .inl rfl⟩

/-- DRAIN entered without a shake, to the end of the step. -/
theorem drainStill_begun (s : State) (h : Hoist) (p : PassRec) (timer : Nat) (idle : s.agenda = Agenda.empty)
    (station : s.stationClear h) (pass : s.passOf h = some p) : ∃ t,
    (s.toDrainStill h timer).settle.transmit = t ∧ DrainBegun s t h p (s.ctxs[h]'h.2) timer := by
  obtain ⟨surfaces, m, withdrawn, span⟩ := reportWithdrawal_eq s h p pass
  rw [toDrainStill_eq, withdrawn]
  generalize hu : s.withdrawnTo surfaces m = u
  have idle' : u.agenda = Agenda.empty := by rw [← hu]; exact idle
  have calm : (u.drainInSite h timer).Calm u 2 :=
    ctxSite_calm u u _ h _ 0 (unwatched_of_clear u h _ (by rw [← hu]; exact station)) (Site.calm_of_idle _ _ _ idle')
  have ctx : (u.drainInSite h timer).ctx = (s.ctxs[h]'h.2).inDrain timer true := by
    rw [drainInSite_ctx, ← hu]; rfl
  by_cases zero : timer = 0
  · obtain ⟨t, finished, _, kept, _, ended⟩ := drainEnd_finish u h (u.drainInSite h timer) 2 [] idle' rfl rfl calm
      (Nat.le_of_ble_eq_true rfl)
    rw [owing_nil] at finished
    rw [ctx] at ended
    subst hu
    refine ⟨t, by rw [putSite_drainCheck_ends _ h _ ((drained_inDrain _ h timer).2 zero)]; exact finished,
      ⟨by rw [kept]; rfl, fun z => by rw [kept]; exact span z⟩, fun n => absurd zero n, fun _ => ended⟩
  · obtain ⟨link, finished, _⟩ :=
      finish_site u h (u.drainInSite h timer) [] idle' (calm.quiet h (Nat.le_of_ble_eq_true rfl))
    have here := (finished_ctx u h (u.drainInSite h timer) link).trans ctx
    have drive := finished_drive u h (u.drainInSite h timer) link
    have others := finished_others u h (u.drainInSite h timer) link
    rw [owing_nil] at finished
    rw [putSite_drainCheck_stays u h _ fun d => zero ((drained_inDrain u h timer).1 d)]
    subst hu
    refine ⟨_, finished, ⟨rfl, span⟩, fun _ => ⟨here, rfl, rfl, rfl, fun unbenched => ?_, others⟩,
      fun e => absurd e zero⟩
    have permitted : ((s.withdrawnTo surfaces m).drainInSite h timer).drive =
      (s.drives[h]'h.2).permitted s.bench .drain := rfl
    rw [drive, permitted, unbenched]
    rfl

/-- A drive sent on a shake (R34, R142). -/
theorem commanded_shake (d : DriveIf) (set : DriveSet) (cycles amplitude : Nat) :
    (d.commanded set (.shake cycles amplitude)).motion =
      some ⟨.shake cycles amplitude true (min 8000 (d.count + amplitude)), set.shakeSpeed⟩ ∧
    (d.commanded set (.shake cycles amplitude)).brakeRel = true ∧
    (d.commanded set (.shake cycles amplitude)).dir = false := by
  rw [commanded_away d set (.shake cycles amplitude) rfl]
  refine ⟨?_, rfl, rfl⟩
  simp only [DriveIf.sent, halted_count]
  rfl

/-- DRAIN entered with its shake, to the end of the step. -/
theorem drainShake_begun (s : State) (h : Hoist) (p : PassRec) (l : Latched) (idle : s.agenda = Agenda.empty)
    (station : s.stationClear h) (clear : s.driveClear h) (known : (s.drives[h]'h.2).known = true)
    (pass : s.passOf h = some p) :
    ∃ t, ((s.toDrain h l.profile.drain false).startMotion h
        (.shake l.profile.shakes l.profile.amplitude)).settle.transmit = t ∧ ShakeBegun s t h p (s.ctxs[h]'h.2) l := by
  obtain ⟨surfaces, m, withdrawn, span⟩ := reportWithdrawal_eq s h p pass
  have into : s.toDrain h l.profile.drain false =
      (s.withdrawnTo surfaces m).setCtx h
        (((s.withdrawnTo surfaces m).ctxs[h]'h.2).draining l.profile.drain false) := by
    rw [← withdrawn]; rfl
  rw [into, setCtx_startMotion_eq (s.withdrawnTo surfaces m) h _ _ clear (.inr known)]
  obtain ⟨link, finished, _⟩ := finish_site (s.withdrawnTo surfaces m) h _ [] idle
    (moveSite_quiet (s.withdrawnTo surfaces m) (s.withdrawnTo surfaces m) ((s.withdrawnTo surfaces m).site h) h _
      (.shake l.profile.shakes l.profile.amplitude) (unwatched_of_clear _ h _ station) idle)
  rw [owing_nil] at finished
  obtain ⟨motion, brake, dir⟩ :=
    commanded_shake ((s.drives[h]'h.2).permitted s.bench .drain) s.kept.drive l.profile.shakes
    l.profile.amplitude
  refine ⟨_, finished, ⟨rfl, span⟩, ?_, ?_, ?_, ?_, ?_, rfl, finished_others _ h _ link⟩
  · rw [finished_ctx]
    exact draining_inDrain (s.ctxs[h]'h.2) l.profile.drain false
  all_goals rw [finished_drive]
  · exact motion
  · exact brake
  · exact dir
  · exact commanded_count _ _ _

/-! ### The step of a reached report -/

/-- The machine with the oldest motion report of a hoist taken out of its mail. -/
def State.motionTaken (s : State) (h : Hoist) (rest : List MotionReport) : State :=
  s.modMail h fun x => { x with motions := rest }

theorem motionReached_next (s : State) (h : Hoist) (m : Moved) (rest : List MotionReport) (live : s.ready)
    (reported : (s.mail[h]'h.2).motions = ⟨m, none⟩ :: rest) :
    exec (.motionReached h) s = .next ((s.motionTaken h rest).takeReached h m).settle.transmit := by
  refine congrArg Host.Outcome.next ((whileRunning_of_ready s _ live).trans ?_)
  simp only [reported]
  rfl

/-- The step of a reached report that leaves `x` of the hoist's part. -/
theorem motionReached_site (s : State) (h : Hoist) (m : Moved) (rest : List MotionReport) (live : s.ready)
    (reported : (s.mail[h]'h.2).motions = ⟨m, none⟩ :: rest) (u : State) (x : Site)
    (e : (s.motionTaken h rest).takeReached h m = u.putSite h x) (idle : u.agenda = Agenda.empty) (q : x.Quiet u h) :
    ∃ link, exec (.motionReached h) s = .next (u.finished h x link) := by
  obtain ⟨link, finished, _⟩ := finish_site u h x [] idle q
  rw [owing_nil] at finished
  exact ⟨link, by rw [motionReached_next s h m rest live reported, e, finished]⟩

/-! ### What the dip context does with it, by its state -/

/-- The states, by the kind of the report, in which a reached report is discarded. -/
def reportIgnored (m : Moved) (st : DipState) : Prop :=
  st = .parked ∨ st = .staged ∨ st = .aligning ∨ st = .weighIn ∨ st = .dwell ∨ st = .weighOut ∨ st = .rehang ∨
    st = .held ∨ (m = .move ∧ st = .recal) ∨ (m = .shake ∧ st ≠ .drain) ∨ (m = .recal ∧ st ≠ .recal)

theorem takeReached_ignored (s : State) (h : Hoist) (m : Moved) (ignored : reportIgnored m (s.ctxs[h]'h.2).state) :
    s.takeReached h m = s := by
  unfold State.takeReached
  dsimp only
  generalize (s.ctxs[h]'h.2).state = st at ignored
  unfold reportIgnored at ignored
  split
  iterate 6 exact absurd ignored (by simp)
  rfl

theorem takeReached_dwell (s : State) (h : Hoist) (p : PassRec) (l : Latched)
    (lowering : (s.ctxs[h]'h.2).state = .lowering)
    (latched : (s.ctxs[h]'h.2).latched = some l) (pass : s.passOf h = some p)
    (there : (s.drives[h]'h.2).count = p.target) :
    s.takeReached h .move = s.toDwell h := by
  unfold State.takeReached
  simp only [lowering, latched]
  exact if_pos (by rw [pass, there]; rfl)

theorem takeReached_top (s : State) (h : Hoist) (p : PassRec) (l : Latched)
    (lowering : (s.ctxs[h]'h.2).state = .lowering)
    (latched : (s.ctxs[h]'h.2).latched = some l) (pass : s.passOf h = some p) (top : (s.drives[h]'h.2).count = 0)
    (deep : p.target ≠ 0)
    (still : (s.drives[h]'h.2).motion = none) (none_failed : ∀ r ∈ (s.mail[h]'h.2).motions, r.cause = none) :
    s.takeReached h .move = s.drainFromLowering h l := by
  have ended : s.endedAtTop h = true := by
    have calm : ((s.mail[h]'h.2).motions.all fun r => r.cause.isNone) = true :=
      List.all_eq_true.2 fun r hr => by rw [none_failed r hr]; rfl
    unfold State.endedAtTop
    rw [top, still, calm]
    rfl
  unfold State.takeReached
  simp only [lowering, latched]
  refine (if_neg ?_).trans (if_pos ended)
  rw [pass, top]
  exact fun e => deep (Option.some.inj e)

theorem takeReached_lifting (s : State) (h : Hoist) (l : Latched) (lifting : (s.ctxs[h]'h.2).state = .lifting)
    (latched : (s.ctxs[h]'h.2).latched = some l) (up : (s.drives[h]'h.2).count ≤ l.drainPos) :
    s.takeReached h .move = s.drainFromLifting h l := by
  unfold State.takeReached
  simp only [lifting, latched]
  exact if_pos up

theorem takeReached_abortLift (s : State) (h : Hoist) (l : Latched) (lifting : (s.ctxs[h]'h.2).state = .abortLift)
    (latched : (s.ctxs[h]'h.2).latched = some l) (up : (s.drives[h]'h.2).count ≤ l.drainPos) :
    s.takeReached h .move = s.toDrainStill h s.kept.cycle.abortDrain := by
  unfold State.takeReached
  simp only [lifting, latched]
  exact if_pos up

theorem takeReached_shaken (s : State) (h : Hoist) (drain : (s.ctxs[h]'h.2).state = .drain) :
    s.takeReached h .shake = (s.modCtx h fun c => { c with shakeDone := true }).drainCheck h := by
  unfold State.takeReached
  simp only [drain]

theorem takeReached_returned (s : State) (h : Hoist) (drain : (s.ctxs[h]'h.2).state = .drain)
    (still : (s.drives[h]'h.2).motion = none) :
    s.takeReached h .move = (s.modCtx h fun c => { c with returning := false }).drainCheck h := by
  unfold State.takeReached
  simp only [drain, still, Option.isNone_none, if_true]

theorem takeReached_recal (s : State) (h : Hoist) (recal : (s.ctxs[h]'h.2).state = .recal)
    (known : (s.drives[h]'h.2).known = true) :
    s.takeReached h .recal = s.recalDone h := by
  unfold State.takeReached
  simp only [recal, known, if_true]

/-! ### LOWERING: the target reached (R33) -/

/-- A dip context on entry to DWELL. -/
def DipCtx.dwelling (c : DipCtx) (l : Latched) : DipCtx :=
  { c.leaveLowering with
    state := .dwell, clock := if c.leaveLowering.contact then c.leaveLowering.clock else ⟨.running, 0⟩,
    dwellT := some l.profile.dwell }

theorem toDwell_eq (s : State) (h : Hoist) (l : Latched) (latched : (s.ctxs[h]'h.2).latched = some l) :
    s.toDwell h = s.putSite h (s.ctxSite (s.site h) h ((s.ctxs[h]'h.2).dwelling l)) := by
  rw [← putCtx_eq]
  have dwell := latchedOr_of (s.ctxs[h]'h.2).leaveLowering l (fun l => l.profile.dwell) 0
    ((leaveLowering_latched (s.ctxs[h]'h.2)).trans latched)
  unfold State.toDwell
  simp only [dwell]
  rfl

theorem reached_dwell (s : State) (h : Hoist) (rest : List MotionReport) (p : PassRec) (l : Latched) (live : s.ready)
    (station : s.stationClear h) (reported : (s.mail[h]'h.2).motions = ⟨.move, none⟩ :: rest)
    (lowering : (s.ctxs[h]'h.2).state = .lowering) (pass : s.passOf h = some p)
    (there : (s.drives[h]'h.2).count = p.target)
    (latched : (s.ctxs[h]'h.2).latched = some l) : ∃ t, exec (.motionReached h) s = .next t ∧
      t = { s with ctxs := t.ctxs, drives := t.drives, mail := t.mail, entries := t.entries, link := t.link } ∧
      t.ctxs[h]'h.2 = { (s.ctxs[h]'h.2).dwelling l with starved := false } ∧
      ∀ i : Hoist, i ≠ h → t.ctxs[i]'i.2 = s.ctxs[i]'i.2 ∧ t.drives[i]'i.2 = s.drives[i]'i.2 := by
  obtain ⟨link, step⟩ := motionReached_site s h .move rest live reported (s.motionTaken h rest) _
    ((takeReached_dwell (s.motionTaken h rest) h p l lowering latched pass there).trans (toDwell_eq _ h l latched))
      live.2
    (ctxSite_quiet _ _ _ h _ (unwatched_of_clear _ h _ station) live.2)
  refine ⟨_, step, rfl, ?_, finished_others (s.motionTaken h rest) h _ link⟩
  rw [finished_ctx]
  unfold State.ctxSite DipCtx.dwelling
  simp only [DipState.moving, Bool.and_false]
  rfl

/-! ### The load out of the zinc (R34, R47, R50) -/

theorem drainFromLifting_still (s : State) (h : Hoist) (l : Latched) (still : l.profile.shakes = 0) :
    s.drainFromLifting h l = s.toDrainStill h l.profile.drain := if_pos still

theorem drainFromLifting_shakes (s : State) (h : Hoist) (l : Latched) (shakes : 0 < l.profile.shakes) :
    s.drainFromLifting h l =
      (s.toDrain h l.profile.drain false).startMotion h (.shake l.profile.shakes l.profile.amplitude) :=
  if_neg (by omega)

/-- A dip context that differs in its flags from that of `s` leaves a drain begun from `s` as it is. -/
theorem withdrawalReported_flags (s t : State) (h : Hoist) (p : PassRec) (c : DipCtx)
    (entered : c.entered = (s.ctxs[h]'h.2).entered)
    (w : WithdrawalReported { s with ctxs := s.ctxs.set h c } t h p) : WithdrawalReported s t h p := by
  obtain ⟨kept, span⟩ := w
  have same : ((s.ctxs.set h c)[h]'h.2).entered = (s.ctxs[h]'h.2).entered := by rw [hoist_set_same]; exact entered
  refine ⟨kept, fun z => ?_⟩
  rw [span z, same]

theorem others_flags (s t : State) (h : Hoist) (c : DipCtx)
    (others : ∀ i : Hoist, i ≠ h → t.ctxs[i]'i.2 = (s.ctxs.set h c)[i]'i.2 ∧ t.drives[i]'i.2 = s.drives[i]'i.2) :
    ∀ i : Hoist, i ≠ h → t.ctxs[i]'i.2 = s.ctxs[i]'i.2 ∧ t.drives[i]'i.2 = s.drives[i]'i.2 :=
  fun i ne => ⟨(others i ne).1.trans (hoist_set_ne _ h i _ ne), (others i ne).2⟩

theorem weighAsked_flags (s t : State) (h : Hoist) (c : DipCtx) (order : c.order = (s.ctxs[h]'h.2).order)
    (pass : c.pass = (s.ctxs[h]'h.2).pass) (asked : WeighAsked { s with ctxs := s.ctxs.set h c } t h) :
    WeighAsked s t h := by
  obtain ⟨free, taken⟩ := asked
  have here : ({ s with ctxs := s.ctxs.set h c } : State).ctxs[h]'h.2 = c := hoist_set_same _ h c
  rw [here, order, pass] at free
  exact ⟨free, taken⟩

/-- An entry to DRAIN from a dip context that LOWERING has left. -/
theorem drainBegun_flags (s t : State) (h : Hoist) (p : PassRec) (c c' : DipCtx) (timer : Nat)
    (entered : c.entered = (s.ctxs[h]'h.2).entered) (order : c.order = (s.ctxs[h]'h.2).order)
    (pass : c.pass = (s.ctxs[h]'h.2).pass)
    (begun : DrainBegun { s with ctxs := s.ctxs.set h c } t h p c' timer) : DrainBegun s t h p c' timer := by
  obtain ⟨withdrawn, on, ended⟩ := begun
  refine ⟨withdrawalReported_flags s t h p c entered withdrawn, fun n => ?_, fun zero => ?_⟩
  · obtain ⟨ctx, holders, wu, orders, drive, others⟩ := on n
    exact ⟨ctx, holders, wu, orders, drive, others_flags s t h c others⟩
  · obtain ⟨ctx, asked, orders, reserved, free, others⟩ := ended zero
    exact ⟨ctx, weighAsked_flags s t h c order pass asked, orders, reserved, free, others_flags s t h c others⟩

theorem shakeBegun_flags (s t : State) (h : Hoist) (p : PassRec) (c c' : DipCtx) (l : Latched)
    (entered : c.entered = (s.ctxs[h]'h.2).entered)
    (begun : ShakeBegun { s with ctxs := s.ctxs.set h c } t h p c' l) : ShakeBegun s t h p c' l := by
  obtain ⟨withdrawn, ctx, motion, brake, dir, count, holders, others⟩ := begun
  exact ⟨withdrawalReported_flags s t h p c entered withdrawn, ctx, motion, brake, dir, count, holders,
    others_flags s t h c others⟩

/-- The dip context with which a load comes out, by the state in which the report finds it (R34, R147). -/
def State.comesOut (s : State) (h : Hoist) (rest : List MotionReport) (p : PassRec) (l : Latched) (c : DipCtx) : Prop :=
  ((s.ctxs[h]'h.2).state = .lifting ∧ (s.drives[h]'h.2).count ≤ l.drainPos ∧ c = s.ctxs[h]'h.2) ∨
    ((s.ctxs[h]'h.2).state = .lowering ∧ (s.drives[h]'h.2).count = 0 ∧ p.target ≠ 0 ∧ (s.drives[h]'h.2).motion = none ∧
      (∀ r ∈ rest, r.cause = none) ∧ c = { s.ctxs[h]'h.2 with flags := { (s.ctxs[h]'h.2).flags with
        noContact := (s.ctxs[h]'h.2).flags.noContact || !(s.ctxs[h]'h.2).contact } })

/-- The machine whose dip context has been left by LOWERING or LIFTING as `c`. -/
theorem takeReached_comesOut (s : State) (h : Hoist) (rest : List MotionReport) (p : PassRec) (l : Latched) (c : DipCtx)
    (mail : (s.mail[h]'h.2).motions = rest) (pass : s.passOf h = some p) (latched : (s.ctxs[h]'h.2).latched = some l)
    (out : s.comesOut h rest p l c) :
    s.takeReached h .move = State.drainFromLifting { s with ctxs := s.ctxs.set h c } h l ∧
    c.order = (s.ctxs[h]'h.2).order ∧ c.pass = (s.ctxs[h]'h.2).pass ∧ c.entered = (s.ctxs[h]'h.2).entered := by
  rcases out with ⟨lifting, up, rfl⟩ | ⟨lowering, top, deep, still, none_failed, rfl⟩
  · refine ⟨?_, rfl, rfl, rfl⟩
    rw [hoist_set_get, takeReached_lifting s h l lifting latched up]
  · refine ⟨?_, rfl, rfl, rfl⟩
    have effective := (effective_of_not_held (s.ctxs[h]'h.2) (by rw [lowering]; decide)).trans lowering
    rw [takeReached_top s h p l lowering latched pass top deep still (by rw [mail]; exact none_failed),
      State.drainFromLowering,
      State.modCtx, leaveLowering_eq (s.ctxs[h]'h.2) .lowering effective]
    simp only [decide_true, Bool.true_and]

theorem drainFromLifting_begins (s : State) (h : Hoist) (p : PassRec) (l : Latched) (idle : s.agenda = Agenda.empty)
    (station : s.stationClear h) (pass : s.passOf h = some p) :
    (l.profile.shakes = 0 → ∃ t, (s.drainFromLifting h l).settle.transmit = t ∧
      DrainBegun s t h p (s.ctxs[h]'h.2) l.profile.drain) ∧
    (0 < l.profile.shakes → s.driveClear h → (s.drives[h]'h.2).known = true →
      ∃ t, (s.drainFromLifting h l).settle.transmit = t ∧ ShakeBegun s t h p (s.ctxs[h]'h.2) l) := by
  refine ⟨fun still => ?_, fun shakes clear known => ?_⟩
  · rw [drainFromLifting_still s h l still]
    exact drainStill_begun s h p l.profile.drain idle station pass
  · rw [drainFromLifting_shakes s h l shakes]
    exact drainShake_begun s h p l idle station clear known pass

theorem passOf_flags (s : State) (h : Hoist) (c : DipCtx) (order : c.order = (s.ctxs[h]'h.2).order)
    (pass : c.pass = (s.ctxs[h]'h.2).pass) : State.passOf { s with ctxs := s.ctxs.set h c } h = s.passOf h := by
  unfold State.passOf State.orderOf
  have here : ({ s with ctxs := s.ctxs.set h c } : State).ctxs[h]'h.2 = c := hoist_set_same _ h c
  rw [here, order, pass]

/-- A load comes out of the zinc, from LIFTING or from a LOWERING ended by TOP (R34, R147). -/
theorem reached_comesOut (s : State) (h : Hoist) (rest : List MotionReport) (p : PassRec) (l : Latched) (c : DipCtx)
    (live : s.ready) (station : s.stationClear h) (reported : (s.mail[h]'h.2).motions = ⟨.move, none⟩ :: rest)
    (pass : s.passOf h = some p) (latched : (s.ctxs[h]'h.2).latched = some l) (out : s.comesOut h rest p l c) :
    (l.profile.shakes = 0 → ∃ t, exec (.motionReached h) s = .next t ∧ DrainBegun s t h p c l.profile.drain) ∧
    (0 < l.profile.shakes → s.driveClear h → (s.drives[h]'h.2).known = true → ∃ t, exec (.motionReached h) s = .next t ∧
      ShakeBegun s t h p c l) := by
  have mail : ((s.motionTaken h rest).mail[h]'h.2).motions = rest := congrArg Mail.motions (hoist_set_same _ h _)
  obtain ⟨into, order, passed, entered⟩ :=
    takeReached_comesOut (s.motionTaken h rest) h rest p l c mail pass latched out
  have pass' := (passOf_flags (s.motionTaken h rest) h c order passed).trans pass
  have ctx : ({ s.motionTaken h rest with ctxs := (s.motionTaken h rest).ctxs.set h c } : State).ctxs[h]'h.2 = c :=
    hoist_set_same _ h c
  obtain ⟨still, shakes⟩ :=
    drainFromLifting_begins { s.motionTaken h rest with ctxs := (s.motionTaken h rest).ctxs.set h c }
    h p l live.2 station pass'
  rw [ctx] at still shakes
  have next := motionReached_next s h .move rest live reported
  rw [into] at next
  refine ⟨fun none_left => ?_, fun some_left clear known => ?_⟩
  · obtain ⟨t, finished, begun⟩ := still none_left
    rw [finished] at next
    exact ⟨t, next, drainBegun_flags (s.motionTaken h rest) t h p c c _ entered order passed begun⟩
  · obtain ⟨t, finished, begun⟩ := shakes some_left clear known
    rw [finished] at next
    exact ⟨t, next, shakeBegun_flags (s.motionTaken h rest) t h p c c l entered begun⟩

theorem reached_abortDrain (s : State) (h : Hoist) (m : Moved) (rest : List MotionReport) (p : PassRec) (live : s.ready)
    (station : s.stationClear h) (reported : (s.mail[h]'h.2).motions = ⟨m, none⟩ :: rest) (pass : s.passOf h = some p)
    (up : (∃ l, m = .move ∧ (s.ctxs[h]'h.2).state = .abortLift ∧ (s.ctxs[h]'h.2).latched = some l ∧
      (s.drives[h]'h.2).count ≤ l.drainPos) ∨
      (m = .recal ∧ (s.ctxs[h]'h.2).state = .recal ∧ (s.ctxs[h]'h.2).ret = none ∧ (s.drives[h]'h.2).known = true)) :
    ∃ t, exec (.motionReached h) s = .next t ∧ DrainBegun s t h p (s.ctxs[h]'h.2) s.kept.cycle.abortDrain := by
  have into : (s.motionTaken h rest).takeReached h m =
    (s.motionTaken h rest).toDrainStill h s.kept.cycle.abortDrain := by
    rcases up with ⟨l, rfl, lifting, latched, above⟩ | ⟨rfl, recal, ret, known⟩
    · exact takeReached_abortLift (s.motionTaken h rest) h l lifting latched above
    · refine (takeReached_recal (s.motionTaken h rest) h recal known).trans ?_
      have ret' : ((s.motionTaken h rest).ctxs[h]'h.2).ret = none := ret
      unfold State.recalDone
      simp only [ret']
      rfl
  obtain ⟨t, finished, begun⟩ := drainStill_begun (s.motionTaken h rest) h p s.kept.cycle.abortDrain live.2 station pass
  exact ⟨t, by rw [motionReached_next s h m rest live reported, into, finished], begun⟩

end Sys2Proof.Machine
end

section
/-! MOTION_REACHED in DRAIN and in RECAL, and the obligation on it (R35, R45, R49). -/

namespace Sys2Proof.Machine

set_option Elab.async false

/-! ### DRAIN checked for its end (R35) -/

/-- The step of a report that puts a part into DRAIN and checks for its end. -/
theorem reached_checks (s : State) (h : Hoist) (m : Moved) (rest : List MotionReport) (x : Site) (n : Nat)
    (live : s.ready)
    (reported : (s.mail[h]'h.2).motions = ⟨m, none⟩ :: rest)
    (into : (s.motionTaken h rest).takeReached h m = ((s.motionTaken h rest).putSite h x).drainCheck h)
    (drain : x.ctx.state = .drain) (order : x.ctx.order = (s.ctxs[h]'h.2).order)
    (pass : x.ctx.pass = (s.ctxs[h]'h.2).pass)
    (calm : x.Calm (s.motionTaken h rest) n) (few : n ≤ 20) :
    (x.ctx.shakeDone = true → x.ctx.returning = false → x.ctx.drainT = some 0 ∨ x.ctx.drainExpired = true →
      ∃ t, exec (.motionReached h) s = .next t ∧ t.kept = s.kept ∧ DrainEnded s t h x.ctx) ∧
    (x.ctx.shakeDone = false ∨ x.ctx.returning = true ∨ (x.ctx.drainT ≠ some 0 ∧ x.ctx.drainExpired = false) →
      ∃ t, exec (.motionReached h) s = .next t ∧
        t = { s with ctxs := s.ctxs.set h x.ctx, drives := t.drives, mail := t.mail, entries := t.entries,
                     link := t.link } ∧
        ∀ i : Hoist, i ≠ h → t.drives[i]'i.2 = s.drives[i]'i.2) := by
  refine ⟨fun shaken still due => ?_, fun on => ?_⟩
  · obtain ⟨t, finished, _, kept, _, ended⟩ :=
      drainEnd_finish (s.motionTaken h rest) h x n [] live.2 order pass calm few
    rw [owing_nil] at finished
    refine ⟨t, ?_, kept, ended⟩
    rw [motionReached_next s h m rest live reported, into, putSite_drainCheck_ends _ h x ⟨drain, shaken, still, due⟩,
      finished]
  · have goes_on : ¬x.ctx.drained := by
      rintro ⟨_, shaken, still, due⟩
      rcases on with e | e | ⟨running, unexpired⟩
      · rw [e] at shaken; cases shaken
      · rw [e] at still; cases still
      · rcases due with e | e
        · exact running e
        · rw [e] at unexpired; cases unexpired
    obtain ⟨link, step⟩ := motionReached_site s h m rest live reported (s.motionTaken h rest) x
      (into.trans (putSite_drainCheck_stays _ h x goes_on)) live.2 (calm.quiet h (by omega))
    exact ⟨_, step, rfl, fun i ne => (finished_others (s.motionTaken h rest) h x link i ne).2⟩

/-- A dip context back in DRAIN after a recalibration (R45, R49). -/
def DipCtx.drainsAgain (c : DipCtx) (abortDrain : Nat) : DipCtx :=
  { c with
    state := .drain, ret := none, shakeDone := true, returning := false, recalAbort := false,
    drainT := if c.recalAbort then some abortDrain else c.drainT, drainExpired := c.drainExpired && !c.recalAbort }

theorem drainAfterRecal_eq (s : State) (h : Hoist) : s.drainAfterRecal h =
    (s.putSite h (s.ctxSite (s.site h) h ((s.ctxs[h]'h.2).drainsAgain s.kept.cycle.abortDrain))).drainCheck h := by
  rw [← putCtx_eq]
  unfold State.drainAfterRecal DipCtx.drainsAgain
  dsimp only
  cases (s.ctxs[h]'h.2).recalAbort with
  | true => simp only [if_true, Bool.not_true, Bool.and_false]
  | false => simp only [Bool.false_eq_true, if_false, Bool.not_false, Bool.and_true]

theorem recalDone_drains (s : State) (h : Hoist) (ret : (s.ctxs[h]'h.2).ret = some .drain) :
    s.recalDone h = s.drainAfterRecal h := by
  unfold State.recalDone
  simp only [ret]

/-- The dip context of a DRAIN that a report may end. -/
def State.drainsOn (s : State) (h : Hoist) (m : Moved) (c : DipCtx) : Prop :=
  (m = .shake ∧ (s.ctxs[h]'h.2).state = .drain ∧ c = { s.ctxs[h]'h.2 with shakeDone := true }) ∨
    (m = .move ∧ (s.ctxs[h]'h.2).state = .drain ∧ (s.drives[h]'h.2).motion = none ∧
      c = { s.ctxs[h]'h.2 with returning := false }) ∨
    (m = .recal ∧ (s.ctxs[h]'h.2).state = .recal ∧ (s.ctxs[h]'h.2).ret = some .drain ∧ (s.drives[h]'h.2).known = true ∧
      c = { s.ctxs[h]'h.2 with
        state := .drain, ret := none, shakeDone := true, returning := false, recalAbort := false, starved := false,
        drainT := if (s.ctxs[h]'h.2).recalAbort then some s.kept.cycle.abortDrain else (s.ctxs[h]'h.2).drainT,
        drainExpired := (s.ctxs[h]'h.2).drainExpired && !(s.ctxs[h]'h.2).recalAbort })

theorem takeReached_drainsOn (s : State) (h : Hoist) (m : Moved) (c : DipCtx) (idle : s.agenda = Agenda.empty)
    (station : s.stationClear h) (on : s.drainsOn h m c) : ∃ x : Site,
    s.takeReached h m = (s.putSite h x).drainCheck h ∧ x.ctx = c ∧ x.Calm s 2 ∧ c.state = .drain ∧
      c.order = (s.ctxs[h]'h.2).order ∧ c.pass = (s.ctxs[h]'h.2).pass := by
  rcases on with ⟨rfl, drain, rfl⟩ | ⟨rfl, drain, still, rfl⟩ | ⟨rfl, recal, ret, known, rfl⟩
  · refine ⟨s.ctxOnly h { s.ctxs[h]'h.2 with shakeDone := true }, ?_, rfl, Site.calm_of_idle _ _ _ idle,
      drain, rfl, rfl⟩
    rw [takeReached_shaken s h drain, modCtx_eq]
  · refine ⟨s.ctxOnly h { s.ctxs[h]'h.2 with returning := false }, ?_, rfl, Site.calm_of_idle _ _ _ idle,
      drain, rfl, rfl⟩
    rw [takeReached_returned s h drain still, modCtx_eq]
  · refine ⟨_, (takeReached_recal s h recal known).trans ((recalDone_drains s h ret).trans (drainAfterRecal_eq s h)),
      ?_,
      ctxSite_calm s s _ h _ 0 (unwatched_of_clear s h _ station) (Site.calm_of_idle _ _ _ idle), rfl, rfl, rfl⟩
    unfold State.ctxSite DipCtx.drainsAgain
    simp only [DipState.moving, Bool.and_false]

theorem reached_drainsOn (s : State) (h : Hoist) (m : Moved) (rest : List MotionReport) (c : DipCtx) (live : s.ready)
    (station : s.stationClear h) (reported : (s.mail[h]'h.2).motions = ⟨m, none⟩ :: rest) (on : s.drainsOn h m c) :
    (c.shakeDone = true → c.returning = false → c.drainT = some 0 ∨ c.drainExpired = true →
      ∃ t, exec (.motionReached h) s = .next t ∧ t.kept = s.kept ∧ DrainEnded s t h c) ∧
    (c.shakeDone = false ∨ c.returning = true ∨ (c.drainT ≠ some 0 ∧ c.drainExpired = false) →
      ∃ t, exec (.motionReached h) s = .next t ∧
        t = { s with ctxs := s.ctxs.set h c, drives := t.drives, mail := t.mail, entries := t.entries,
                     link := t.link } ∧
        ∀ i : Hoist, i ≠ h → t.drives[i]'i.2 = s.drives[i]'i.2) := by
  obtain ⟨x, into, rfl, calm, drain, order, pass⟩ := takeReached_drainsOn (s.motionTaken h rest) h m c live.2 station on
  exact reached_checks s h m rest x 2 live reported into drain order pass calm (Nat.le_of_ble_eq_true rfl)

/-! ### RECAL (R49) -/

/-- The part of a hoist PARKED at the end of its recalibration. -/
def State.recalParked (s : State) (h : Hoist) : Site :=
  { s.ctxSite (s.site h) h { s.ctxs[h]'h.2 with state := .parked, ret := none } with
    agenda := ⟨(s.ctxSite (s.site h) h { s.ctxs[h]'h.2 with state := .parked, ret := none }).agenda.reports,
      [.take h]⟩ }

theorem recalDone_parks (s : State) (h : Hoist) (idle : s.agenda = Agenda.empty)
    (ret : (s.ctxs[h]'h.2).ret = some .parked) :
    s.recalDone h = s.putSite h (s.recalParked h) := by
  unfold State.recalDone
  simp only [ret]
  rw [putCtx_eq, putSite_followUp]
  have follow : (s.site h).agenda.follow = [] := congrArg Agenda.follow idle
  unfold State.recalParked State.ctxSite
  simp only [follow, List.nil_append]

theorem reached_parks (s : State) (h : Hoist) (rest : List MotionReport) (live : s.ready)
    (reported : (s.mail[h]'h.2).motions = ⟨.recal, none⟩ :: rest) (none_waits : s.noneQueued)
    (recal : (s.ctxs[h]'h.2).state = .recal)
    (ret : (s.ctxs[h]'h.2).ret = some .parked) (known : (s.drives[h]'h.2).known = true) : ∃ t,
    exec (.motionReached h) s = .next t ∧ (t.ctxs[h]'h.2).state = .parked ∧ (t.ctxs[h]'h.2).ret = none ∧
      (t.ctxs[h]'h.2).runEnable = (s.ctxs[h]'h.2).runEnable ∧
      ∀ i : Hoist, i ≠ h → t.ctxs[i]'i.2 = s.ctxs[i]'i.2 ∧ t.drives[i]'i.2 = s.drives[i]'i.2 := by
  have idle : (s.motionTaken h rest).agenda = Agenda.empty := live.2
  have still := ctxSite_calm (s.motionTaken h rest) (s.motionTaken h rest) ((s.motionTaken h rest).site h) h
    { s.ctxs[h]'h.2 with state := .parked, ret := none } 0
    (unwatched_plain _ h _ rfl (fun e => nomatch e) (fun e => nomatch e)) (Site.calm_of_idle _ _ _ idle)
  have calm : ((s.motionTaken h rest).recalParked h).Calm (s.motionTaken h rest) 2 := by
    refine ⟨still.absent, still.short, fun y hy => ?_, Nat.le_of_ble_eq_true rfl⟩
    exact ⟨h, List.mem_singleton.1 hy, offered_of_noneQueued s h none_waits⟩
  obtain ⟨link, step⟩ := motionReached_site s h .recal rest live reported (s.motionTaken h rest) _
    ((takeReached_recal (s.motionTaken h rest) h recal known).trans (recalDone_parks (s.motionTaken h rest)
      h idle ret)) idle
    (calm.quiet h (Nat.le_of_ble_eq_true rfl))
  refine ⟨_, step, ?_, ?_, ?_, finished_others (s.motionTaken h rest) h _ link⟩
  all_goals rw [finished_ctx]; rfl

theorem recalDone_resumes (s : State) (h : Hoist) (st : DipState) (ret : (s.ctxs[h]'h.2).ret = some st)
    (away : st ≠ .parked)
    (undrained : st ≠ .drain) : s.recalDone h = s.resumeInto h st := by
  unfold State.recalDone
  dsimp only
  rw [ret]
  cases st with
  | parked => exact absurd rfl away
  | drain => exact absurd rfl undrained
  | _ => rfl

/-- TOP reached in a recalibration with a return state that is entered as on a resume. -/
structure Returning (s : State) (h : Hoist) (rest : List MotionReport) (st : DipState) : Prop where
  live : s.ready
  reported : (s.mail[h]'h.2).motions = ⟨.recal, none⟩ :: rest
  recal : (s.ctxs[h]'h.2).state = .recal
  ret : (s.ctxs[h]'h.2).ret = some st
  known : (s.drives[h]'h.2).known = true
  away : st ≠ .parked
  undrained : st ≠ .drain

section
variable {s : State} {h : Hoist} {rest : List MotionReport} {st : DipState}

theorem Returning.into (g : Returning s h rest st) :
    (s.motionTaken h rest).takeReached h .recal = (s.motionTaken h rest).resumeInto h st :=
  (takeReached_recal (s.motionTaken h rest) h g.recal g.known).trans
    (recalDone_resumes (s.motionTaken h rest) h st g.ret g.away g.undrained)

/-- A return that changes the part of its hoist alone. -/
theorem Returning.back (g : Returning s h rest st)
    (e : (s.motionTaken h rest).resumeInto h st =
      (s.motionTaken h rest).putSite h ((s.motionTaken h rest).backSite h st))
    (still : st.moving = false) (unwatched : s.unwatched h ((s.ctxs[h]'h.2).resumedAs st)) : ∃ t,
    exec (.motionReached h) s = .next t ∧
      t = { s with
        ctxs := s.ctxs.set h { s.ctxs[h]'h.2 with state := st, heldFrom := none, ret := none, starved := false },
        drives := t.drives, mail := t.mail, entries := t.entries, link := t.link } ∧
      (s.bench = false → (t.drives[h]'h.2).permit = st.permits) ∧ ∀ i : Hoist, i ≠ h →
      t.drives[i]'i.2 = s.drives[i]'i.2 := by
  obtain ⟨link, step⟩ := motionReached_site s h .recal rest g.live g.reported (s.motionTaken h rest) _ (g.into.trans e)
    g.live.2 (ctxSite_quiet _ _ _ h _ unwatched g.live.2)
  have ctx : ((s.motionTaken h rest).backSite h st).ctx =
      { s.ctxs[h]'h.2 with state := st, heldFrom := none, ret := none, starved := false } := by
    unfold State.backSite State.ctxSite DipCtx.resumedAs
    simp only [still, Bool.and_false]
    rfl
  refine ⟨_, step, ?_, fun unbenched => ?_, fun i ne => (finished_others (s.motionTaken h rest) h _ link i ne).2⟩
  · rw [← ctx]
    rfl
  · rw [finished_drive]
    have permitted : ((s.motionTaken h rest).backSite h st).drive = (s.drives[h]'h.2).permitted s.bench st := rfl
    rw [permitted, unbenched]
    rfl

/-- A return that asks for a weighing. -/
theorem Returning.asks (g : Returning s h rest st) (b x : Site)
    (e : (s.motionTaken h rest).resumeInto h st =
      State.putSite { s.motionTaken h rest with wu := s.wu.askedBy h b.ctx } h x)
    (order : b.ctx.order = (s.ctxs[h]'h.2).order) (pass : b.ctx.pass = (s.ctxs[h]'h.2).pass)
    (asked : x.ctx.asked = s.wu.placeOf h b.ctx) (calm : x.Calm s 4) :
    ∃ t, exec (.motionReached h) s = .next t ∧
      t = { s with ctxs := t.ctxs, drives := t.drives, wu := t.wu, mail := t.mail, entries := t.entries,
                   link := t.link } ∧
      t.ctxs[h]'h.2 = x.ctx ∧ t.drives[h]'h.2 = x.drive ∧ WeighAsked s t h ∧
      ∀ i : Hoist, i ≠ h → t.ctxs[i]'i.2 = s.ctxs[i]'i.2 ∧ t.drives[i]'i.2 = s.drives[i]'i.2 := by
  have quiet : x.Quiet { s.motionTaken h rest with wu := s.wu.askedBy h b.ctx } h :=
    (calm.of_orders { s.motionTaken h rest with wu := s.wu.askedBy h b.ctx } rfl).quiet h (Nat.le_of_ble_eq_true rfl)
  obtain ⟨link, step⟩ := motionReached_site s h .recal rest g.live g.reported _ x (g.into.trans e) g.live.2 quiet
  have ctx := finished_ctx { s.motionTaken h rest with wu := s.wu.askedBy h b.ctx } h x link
  exact ⟨_, step, rfl, ctx, finished_drive _ h x link,
    weighAsked_of s _ h b.ctx order pass rfl (by rw [ctx, asked]), finished_others _ h x link⟩

end

theorem returning_weighs (s : State) (h : Hoist) (rest : List MotionReport) (st : DipState) (g : Returning s h rest st)
    (weighs : s.weighsAgain h st) : ∃ t, exec (.motionReached h) s = .next t ∧
      t = { s with ctxs := t.ctxs, drives := t.drives, wu := t.wu, mail := t.mail, entries := t.entries,
                   link := t.link } ∧
      t.ctxs[h]'h.2 = (s.ctxs[h]'h.2).weighsAs st (t.ctxs[h]'h.2).asked ∧ WeighAsked s t h ∧
      (s.bench = false → (t.drives[h]'h.2).permit = false) ∧
      ∀ i : Hoist, i ≠ h → t.ctxs[i]'i.2 = s.ctxs[i]'i.2 ∧ t.drives[i]'i.2 = s.drives[i]'i.2 := by
  obtain ⟨b, x, into, order, pass, placed, calm, here, drive⟩ :=
    resumeInto_asks (s.motionTaken h rest) h st g.live.2 weighs
  obtain ⟨t, step, only, ctx, drive', asked, others⟩ := g.asks b x into order pass placed (calm.of_orders s rfl)
  refine ⟨t, step, only, by rw [ctx]; exact here, asked, fun unbenched => ?_, others⟩
  have permitted : t.drives[h]'h.2 = (s.drives[h]'h.2).permitted s.bench .weighIn := drive'.trans drive
  rw [permitted, unbenched]
  rfl

theorem returning_rehang (s : State) (h : Hoist) (rest : List MotionReport) (o : Order) (g : Returning s h rest .rehang)
    (remembered : (s.ctxs[h]'h.2).rehangKept = true) (free : s.inhibit = false) (own : s.orderOf h = some o) : ∃ t,
    exec (.motionReached h) s = .next t ∧
      PassTwoBegun s t h o ((s.motionTaken h rest).backSite h .rehang).ctx := by
  have into : (s.motionTaken h rest).resumeInto h .rehang =
      ((s.motionTaken h rest).putSite h ((s.motionTaken h rest).backSite h .rehang)).rehangGo h := by
    unfold State.backSite
    rw [← putCtx_eq]
    rfl
  have calm : ((s.motionTaken h rest).backSite h .rehang).Calm (s.motionTaken h rest) 2 :=
    ctxSite_calm (s.motionTaken h rest) _ ((s.motionTaken h rest).site h) h _ 0
      (unwatched_plain _ h _ rfl (fun e => nomatch e) (fun e => nomatch e)) (Site.calm_of_idle _ _ _ g.live.2)
  obtain ⟨t, finished, _, ctx, reserved, kept, inputs, order, claim, others⟩ := rehang_begins (s.motionTaken h rest) h
    ((s.motionTaken h rest).backSite h .rehang) o [] own rfl rfl rfl remembered free calm.absent calm.short
    (congrArg Agenda.follow g.live.2)
  rw [owing_nil] at finished
  refine ⟨t, ?_, ctx, reserved, kept, inputs, order, ?_, others⟩
  · rw [motionReached_next s h .recal rest g.live g.reported, g.into, into, finished]
  · have grants : ((s.motionTaken h rest).mail[h]'h.2).grants = (s.mail[h]'h.2).grants := by
      rw [State.motionTaken, State.modMail, hoist_set_same]
    exact claimArrives_from (s.motionTaken h rest) s t (s.claimOf h o .two) rfl rfl rfl grants claim

theorem reached_ignored (s : State) (h : Hoist) (m : Moved) (rest : List MotionReport) (live : s.ready)
    (reported : (s.mail[h]'h.2).motions = ⟨m, none⟩ :: rest) (ignored : reportIgnored m (s.ctxs[h]'h.2).state) :
    ∃ t, exec (.motionReached h) s = .next t ∧ t = { s with mail := t.mail, link := t.link } ∧
      t.mail = s.mail.set h { s.mail[h]'h.2 with motions := rest } := by
  have taken := takeReached_ignored (s.motionTaken h rest) h m ignored
  obtain ⟨link, finished, _⟩ := finish_quiet (s.motionTaken h rest) [] [] [] live.2 trivial (fun _ hy => nomatch hy)
    (Nat.zero_le 200)
  rw [owing_nil] at finished
  refine ⟨_, (motionReached_next s h m rest live reported).trans
    (congrArg _ ((congrArg (fun u : State => u.settle.transmit)
    taken).trans finished)), ?_, rfl⟩
  have idle : s.agenda = Agenda.empty := live.2
  show _ = { s with mail := _, link := link }
  rw [← idle]
  rfl

/-- Settles O44: each report is the operation of its state on the part of one hoist. -/
theorem motionReachedTaken : Obligations.MotionReachedTaken := by
  unfold Obligations.MotionReachedTaken
  refine ⟨fun s h m rest live station reported => ⟨fun p l e lowering pass there latched => ?_,
      fun p l e lifting pass latched up entered running shakes clear known => ?_,
      fun e none_waits recal ret known => ?_⟩,
    fun s h m rest st live reported e ignored => reached_ignored s h m rest live reported (by rw [e]; exact ignored),
    fun s h rest p l c live station reported pass latched out =>
      reached_comesOut s h rest p l c live station reported pass latched out,
    fun s h m rest p live station reported pass up => reached_abortDrain s h m rest p live station reported pass up,
    fun s h m rest c live station reported on => reached_drainsOn s h m rest c live station reported on,
    fun s h rest st c live reported recal ret known on => ⟨fun plain => ?_, fun weighs => ?_,
      fun o e remembered free own => ?_⟩⟩
  · subst e
    obtain ⟨t, step, only, ctx, others⟩ := reached_dwell s h rest p l live station reported lowering pass there latched
    have effective := (effective_of_not_held (s.ctxs[h]'h.2) (by rw [lowering]; decide)).trans lowering
    have left := leaveLowering_eq (s.ctxs[h]'h.2) .lowering effective
    rw [DipCtx.dwelling, left] at ctx
    refine ⟨t, step, only, by rw [ctx], by rw [ctx], fun untouched => ?_, fun touched => ?_, others⟩
    · rw [ctx, untouched]
      exact ⟨by simp, rfl⟩
    · rw [ctx, touched]
      exact ⟨by simp, rfl⟩
  · subst e
    obtain ⟨t, step, ⟨kept, span⟩, ctx, motion, _, _, _, holders, others⟩ :=
      (reached_comesOut s h rest p l _ live station reported pass latched (.inl ⟨lifting, up,
        rfl⟩)).2 shakes clear known
    refine ⟨t, step, by rw [ctx], by rw [ctx]; exact if_pos running, by rw [ctx], by rw [ctx], by rw [ctx],
      ⟨_, motion⟩, kept,
      fun z => ?_, holders, others⟩
    rw [span z]
    simp only [entered, true_and]
  · subst e
    exact reached_parks s h rest live reported none_waits recal ret known
  · subst on
    have calm : st.moving = false ∧ st ≠ .parked ∧ st ≠ .drain ∧ st.permits = decide (st ≠ .staged) ∧
        st ≠ .held ∧ st ≠ .recal ∧ st.calm = true := by
      rcases plain with rfl | ⟨rfl, _⟩ | ⟨rfl, _⟩ <;> decide
    obtain ⟨still, away, undrained, permits, free, settled, calm⟩ := calm
    have back := Returning.back (s := s) (h := h) (rest := rest) (st := st) ⟨live, reported, recal, ret, known,
      away, undrained⟩
      (by
        rcases plain with e | ⟨rfl, unaligned⟩ | e
        · exact resumeInto_plain (s.motionTaken h rest) h st (.inl e)
        · exact resumeInto_unaligned (s.motionTaken h rest) h unaligned
        · exact resumeInto_plain (s.motionTaken h rest) h st (.inr (.inl e)))
      still (unwatched_plain s h _ calm free settled)
    rw [permits] at back
    exact back
  · have calm : st ≠ .parked ∧ st ≠ .drain := by
      rcases weighs with ⟨rfl, _⟩ | ⟨rfl | rfl, _⟩ <;> decide
    subst on
    exact returning_weighs s h rest st ⟨live, reported, recal, ret, known, calm.1, calm.2⟩ weighs
  · subst e
    obtain ⟨t, step, ctx, reserved, _, _, _, claim, others⟩ := returning_rehang s h rest o
      ⟨live, reported, recal, ret, known, (fun e => nomatch e), (fun e => nomatch e)⟩ remembered free own
    refine ⟨t, step, ?_, ?_, ?_, reserved, claim, others⟩
    all_goals exact (congrArg _ ctx).trans rfl

end Sys2Proof.Machine
end

section
/-! Occurrences: what the Fault Collector makes of its entry, the beacon and the FAULT mark, and which dip context the
reaction then reaches (R175 to R181, R185, R186); and the rest of a step after one. -/

namespace Sys2Proof.Machine

set_option Elab.async false

/-! ### The entry of an occurrence (R179, R181) -/

/-- A CLEAR entry latched by an occurrence (R179). -/
def State.latchedEntry (s : State) (k : FaultKind) (who : Option Hoist) : FaultEntry :=
  { s.entries[k.ix]'k.ix.2 with
    state := if (s.kept.faults[k.ix]'k.ix.2).delay = 0 then .active else .alarm, involved := s.involvedAtLatch k who,
    firstTime := some s.kept.runtime, lastTime := some s.kept.runtime, count := some 1,
    alarmT := if (s.kept.faults[k.ix]'k.ix.2).delay = 0 then none else some ((s.kept.faults[k.ix]'k.ix.2).delay * 10) }

/-- The entry of a kind after an occurrence. -/
def State.struckEntry (s : State) (k : FaultKind) (who : Option Hoist) : FaultEntry :=
  if (s.entries[k.ix]'k.ix.2).state = .clear then s.latchedEntry k who
  else (s.entries[k.ix]'k.ix.2).again s.kept.runtime (s.gained k who)

/-- An occurrence marks the FAULT notice (R179, R181, R186). -/
def State.struckNow (s : State) (k : FaultKind) : Bool :=
  s.reactionOf k != .record &&
    ((s.entries[k.ix]'k.ix.2).state == .active || ((s.entries[k.ix]'k.ix.2).state == .clear &&
      (s.kept.faults[k.ix]'k.ix.2).delay == 0))

/-- The machine after an occurrence, before its reaction reaches a dip context. -/
def State.struck (s : State) (k : FaultKind) (who : Option Hoist) : State :=
  { s with entries := s.entries.set k.ix (s.struckEntry k who),
           beaconT := if (s.kept.faults[k.ix]'k.ix.2).beacon = true then some s.kept.beaconMin else s.beaconT,
           link := { s.link with marks := noted s.kept.notices (s.struckNow k) .fault s.link.marks } }

theorem involved_of_one (h i : Fin 4) : ((Vector.replicate 4 false).set h true)[i]'i.2 = decide (some h = some i) := by
  revert h i; decide

theorem members_of_one (h : Hoist) : members ((Vector.replicate 4 false).set h true) = [h] := by
  revert h; decide

theorem loadBeacon_eq (s : State) (k : FaultKind) : s.loadBeacon k =
    { s with beaconT := if (s.kept.faults[k.ix]'k.ix.2).beacon = true then some s.kept.beaconMin else s.beaconT } := by
  unfold State.loadBeacon
  split <;> rfl

theorem noted_off (enabled : Vector Bool 6) (c : NoticeClass) (marks : Vector Bool 6) :
    noted enabled false c marks = marks :=
  rfl

/-- An occurrence of a CLEAR kind with an alarm delay reaches no dip context (R179). -/
theorem occurrence_delayed (s : State) (k : FaultKind) (who : Option Hoist)
    (clear : (s.entries[k.ix]'k.ix.2).state = .clear)
    (delay : (s.kept.faults[k.ix]'k.ix.2).delay ≠ 0) : s.occurrence k who = s.struck k who := by
  have quiet : s.struckNow k = false := by
    unfold State.struckNow
    rw [clear, beq_false_of_ne delay]
    simp
  rw [occurrence_of_clear s k who clear]
  unfold State.latch State.struck State.struckEntry
  rw [if_pos clear, quiet]
  dsimp only
  rw [if_neg delay, loadBeacon_eq]
  unfold State.latchedEntry
  simp only [if_neg delay]
  rfl

/-- An occurrence of a CLEAR kind without an alarm delay applies its reaction (R179). -/
theorem occurrence_latches (s : State) (k : FaultKind) (who : Option Hoist)
    (clear : (s.entries[k.ix]'k.ix.2).state = .clear)
    (at_once : (s.kept.faults[k.ix]'k.ix.2).delay = 0) : s.occurrence k who =
      if s.reactionOf k = .stopAll then hoists.foldl State.enterHeld (s.struck k who)
      else (members (s.involvedAtLatch k who)).foldl (State.react (s.reactionOf k)) (s.struck k who) := by
  have now : s.struckNow k = (s.reactionOf k).notifies := by
    unfold State.struckNow Reaction.notifies
    rw [clear, at_once]
    simp
  rw [occurrence_of_clear s k who clear]
  unfold State.latch State.struck State.struckEntry
  rw [if_pos clear, now]
  dsimp only
  rw [if_pos at_once, loadBeacon_eq, State.applyReaction, markIf_eq]
  unfold State.latchedEntry
  simp only [if_pos at_once]
  rfl

/-- A second occurrence that finds an ALARM entry reaches no dip context (R181). -/
theorem occurrence_alarm (s : State) (k : FaultKind) (who : Option Hoist)
    (latched : (s.entries[k.ix]'k.ix.2).state ≠ .clear)
    (alarm : (s.entries[k.ix]'k.ix.2).state ≠ .active) : s.occurrence k who = s.struck k who := by
  have quiet : s.struckNow k = false := by
    unfold State.struckNow
    rw [beq_false_of_ne latched, beq_false_of_ne alarm]
    simp
  rw [occurrence_of_latched s k who latched, secondOccurrence_of_alarm s k who alarm]
  unfold State.struck State.struckEntry
  rw [if_neg latched, quiet, loadBeacon_eq]
  rfl

/-- A second occurrence that finds an ACTIVE entry applies its reaction to a hoist that joins (R181). -/
theorem occurrence_active (s : State) (k : FaultKind) (who : Option Hoist)
    (active : (s.entries[k.ix]'k.ix.2).state = .active) :
    s.occurrence k who = (s.gained k who).elim (s.struck k who) ((s.struck k who).react (s.reactionOf k)) := by
  have latched : (s.entries[k.ix]'k.ix.2).state ≠ .clear := by rw [active]; decide
  have now : s.struckNow k = (s.reactionOf k).notifies := by
    unfold State.struckNow Reaction.notifies
    rw [active]
    simp
  have entry : (((s.modEntry k fun e =>
    e.again s.kept.runtime (s.gained k who)).loadBeacon k).entries[k.ix]'k.ix.2).state = .active := by
    rw [loadBeacon_eq]
    unfold State.modEntry
    simp only [Fin.getElem_fin, Vector.getElem_set_self]
    exact active
  have marked : ((s.modEntry k fun e => e.again s.kept.runtime (s.gained k who)).loadBeacon k).markIf
      (s.reactionOf k).notifies .fault = s.struck k who := by
    rw [markIf_eq, loadBeacon_eq]
    unfold State.struck State.struckEntry
    rw [if_neg latched, now]
    rfl
  rw [occurrence_of_latched s k who latched]
  refine (if_pos entry).trans ?_
  have reaction : ((s.modEntry k fun e => e.again s.kept.runtime (s.gained k who)).loadBeacon k).reactionOf k =
      s.reactionOf k := by rw [loadBeacon_eq]; rfl
  have kept : (s.struck k who).reactionOf k = s.reactionOf k := rfl
  unfold State.reactAgain
  dsimp only
  rw [reaction, marked, kept]
  cases s.gained k who with
  | none => rfl
  | some x => rfl

/-! ### Which dip context an occurrence that names a hoist reaches (R177, R181) -/

theorem react_below (r : Reaction) (s : State) (h : Hoist) (below : r.code ≤ 2 ∨ r = .stopAll) : s.react r h = s := by
  rcases below with low | rfl
  · cases r with
    | hold => exact absurd low (by decide)
    | abort => exact absurd low (by decide)
    | _ => rfl
  · rfl

theorem involvedAtLatch_of (s : State) (k : FaultKind) (h : Hoist) (other : k ≠ .drivePowerLoss)
    (installed : s.installed h = true) : s.involvedAtLatch k (some h) = (Vector.replicate 4 false).set h true := by
  have named : s.named (some h) = some h := if_pos installed
  unfold State.involvedAtLatch
  rw [if_neg other, named]

theorem gained_of (s : State) (k : FaultKind) (h : Hoist) (installed : s.installed h = true) :
    s.gained k (some h) = if (s.entries[k.ix]'k.ix.2).involved[h]'h.2 = true then none else some h := by
  have named : s.named (some h) = some h := if_pos installed
  unfold State.gained
  rw [named, Option.filter_some]
  cases (s.entries[k.ix]'k.ix.2).involved[h]'h.2 <;> rfl

/-- An occurrence that reaches no dip context is its entry, its beacon and its mark alone. -/
theorem occurrence_spares (s : State) (k : FaultKind) (h : Hoist)
    (installed : s.installed h = true) (none_reached : s.reachesNone k h) :
    s.occurrence k (some h) = s.struck k (some h) := by
  cases state : (s.entries[k.ix]'k.ix.2).state with
  | clear =>
    by_cases at_once : (s.kept.faults[k.ix]'k.ix.2).delay = 0
    · have low : (s.reactionOf k).code ≤ 2 := by
        rcases none_reached with n | low | ⟨active, _⟩
        · exact absurd (.inl ⟨state, at_once⟩) n
        · exact low
        · rw [state] at active; cases active
      have below : s.reactionOf k ≠ .stopAll := by
        intro e
        rw [e] at low
        exact absurd low (by decide)
      rw [occurrence_latches s k _ state at_once, if_neg below, react_none _ low]
    · exact occurrence_delayed s k _ state at_once
  | alarm => exact occurrence_alarm s k _ (by rw [state]; decide) (by rw [state]; decide)
  | active =>
    rw [occurrence_active s k _ state, gained_of s k h installed]
    cases joined : (s.entries[k.ix]'k.ix.2).involved[h]'h.2 with
    | true => rfl
    | false =>
      refine react_below _ _ h ?_
      rcases none_reached with n | low | ⟨_, stop⟩
      · exact absurd (.inr ⟨state, joined⟩) n
      · exact .inl low
      · exact .inr stop

/-- An occurrence that applies a reaction below STOP_ALL applies it to the hoist it names. -/
theorem occurrence_reacts (s : State) (k : FaultKind) (h : Hoist) (other : k ≠ .drivePowerLoss)
    (installed : s.installed h = true) (applies : s.applies k h) (below : s.reactionOf k ≠ .stopAll) :
    s.occurrence k (some h) = (s.struck k (some h)).react (s.reactionOf k) h := by
  rcases applies with ⟨clear, at_once⟩ | ⟨active, apart⟩
  · rw [occurrence_latches s k _ clear at_once, if_neg below, involvedAtLatch_of s k h other installed, members_of_one]
    rfl
  · rw [occurrence_active s k _ active, gained_of s k h installed, apart]
    rfl

/-- An occurrence that a CLEAR entry takes alone (R179). -/
theorem occurrence_alone (s : State) (k : FaultKind) (h : Hoist)
    (installed : s.installed h = true) (alone : s.latchesAlone k) : s.occurrence k (some h) = s.struck k (some h) := by
  obtain ⟨clear, low | delay⟩ := alone
  · exact occurrence_spares s k h installed (.inr (.inl low))
  · exact occurrence_delayed s k _ clear delay

/-! ### What a statement asks of the entry (R179, R181) -/

theorem struckEntry_clear (s : State) (k : FaultKind) (who : Option Hoist)
    (clear : (s.entries[k.ix]'k.ix.2).state = .clear) :
    s.struckEntry k who = s.latchedEntry k who := if_pos clear

theorem struckEntry_latched (s : State) (k : FaultKind) (who : Option Hoist)
    (latched : (s.entries[k.ix]'k.ix.2).state ≠ .clear) :
    s.struckEntry k who = (s.entries[k.ix]'k.ix.2).again s.kept.runtime (s.gained k who) := if_neg latched

theorem struckEntry_latchedOnce (s t : State) (k : FaultKind) (h : Hoist) (other : k ≠ .drivePowerLoss)
    (installed : s.installed h = true) (clear : (s.entries[k.ix]'k.ix.2).state = .clear) (present : Vector Bool 4)
    (entry : t.entries[k.ix]'k.ix.2 = { s.struckEntry k (some h) with present := present }) :
    t.latchedOnce k (some h) := by
  rw [struckEntry_clear s k _ clear] at entry
  refine ⟨?_, ?_, fun i => ?_⟩
  all_goals rw [entry]
  · unfold State.latchedEntry
    dsimp only
    split <;> decide
  · rfl
  · have involved : (s.latchedEntry k (some h)).involved = (Vector.replicate 4 false).set h true :=
      involvedAtLatch_of s k h other installed
    rw [involved]
    exact involved_of_one h i

theorem occurred_of (s t : State) (k : FaultKind) (h : Hoist) (other : k ≠ .drivePowerLoss)
    (installed : s.installed h = true) (present : Vector Bool 4)
    (entry : t.entries[k.ix]'k.ix.2 = { s.struckEntry k (some h) with present := present })
    (beacon : t.beaconT = (s.struck k (some h)).beaconT) (notice : NoticeMarked s t .fault (s.struckNow k)) :
    Occurred s t k h := by
  refine ⟨fun clear => struckEntry_latchedOnce s t k h other installed clear present entry, fun latched => ?_,
    beacon, notice⟩
  rw [struckEntry_latched s k _ latched, gained_of s k h installed] at entry
  refine ⟨?_, fun n counted => ?_, fun i => ?_⟩
  all_goals rw [entry]
  · rfl
  · unfold FaultEntry.again
    rw [counted]
    rfl
  · unfold FaultEntry.again
    dsimp only
    cases joined : (s.entries[k.ix]'k.ix.2).involved[h]'h.2 with
    | true =>
      simp only [if_true]
      by_cases e : i = h
      · subst e; rw [joined]; rfl
      · rw [decide_eq_false e, Bool.or_false]
    | false =>
      simp only [Bool.false_eq_true, if_false]
      by_cases e : i = h
      · subst e
        rw [decide_eq_true rfl, Bool.or_true]
        exact Vector.getElem_set_self i.isLt
      · rw [decide_eq_false e, Bool.or_false]
        exact Vector.getElem_set_ne _ _ fun n => e (Fin.ext n.symm)

end Sys2Proof.Machine
end

section
/-! The end of a step in which one report brings an occurrence. -/

namespace Sys2Proof.Machine

set_option Elab.async false

/-! ### Reports worked off before and after an occurrence -/

/-- Quiet reports ahead of others leave their values. -/
theorem settleFor_prefix (n : Nat) (s : State) (qs rest : List FaultReport) (follow : List Follow)
    (a : s.agenda = ⟨qs ++ rest, follow⟩) (q : quietReports s.entries qs) : settleFor (n + qs.length) s =
      settleFor n { s with entries := keepReports s.entries qs, agenda := ⟨rest, follow⟩ } := by
  induction qs generalizing s with
  | nil =>
    have same : s.agenda = ⟨rest, follow⟩ := a
    rw [← same]
    rfl
  | cons r qs ih =>
    cases r with
    | occur k h => exact q.elim
    | cond k h present =>
      obtain ⟨known, later⟩ := q
      rw [List.length_cons, ← Nat.add_assoc, settleFor_report _ s _ (qs ++ rest) follow a,
        takeReport_quiet { s with agenda := ⟨qs ++ rest, follow⟩ } k h present known]
      exact ih _ rfl later

/-- A step whose agenda holds quiet reports, then `r`, from which the machine `u` is left with a quiet agenda. -/
theorem finish_report (s u : State) (qs : List FaultReport) (r : FaultReport) (rest reports : List FaultReport)
    (follow follows : List Follow) (a : s.agenda = ⟨qs ++ r :: rest, follow⟩) (q : quietReports s.entries qs)
    (e : State.takeReport { s with entries := keepReports s.entries qs, agenda := ⟨rest, follow⟩ } r = u)
    (left : u.agenda = ⟨reports, follows⟩) (quiet : quietReports u.entries reports) (rests : ∀ y ∈ follows, y.resting u)
    (short : qs.length + reports.length + follows.length ≤ 150) : ∃ link,
    s.settle.transmit =
      { u with entries := keepReports u.entries reports, link := link, agenda := Agenda.empty } ∧
        Sent u.link [] link := by
  have bound : Config.agendaBound = 199 - qs.length + 1 + qs.length := by
    have e : Config.agendaBound = 200 := rfl
    omega
  have settled : s.settle = { u with entries := keepReports u.entries reports, agenda := Agenda.empty } := by
    unfold State.settle
    rw [bound, settleFor_prefix _ s qs (r :: rest) follow a q, settleFor_report _ _ r rest follow rfl, e]
    exact settleFor_resting _ u reports follows left quiet rests (by omega)
  obtain ⟨link, sent, link_sent⟩ := transmit_sent s.settle []
  rw [owing_nil, settled] at sent
  rw [settled] at link_sent
  exact ⟨link, by rw [settled, sent], link_sent⟩

/-- The report of a condition of a hoist. -/
def FaultReport.ofHoist : FaultReport → Bool
  | .cond _ (some _) _ => true
  | _ => false

/-- Values of hoists' conditions leave everything else of an entry. -/
theorem keepReports_present (entries : Vector FaultEntry 14) (rs : List FaultReport) (j : Fin 14)
    (own : rs.all FaultReport.ofHoist = true) : ∃ present,
    (keepReports entries rs)[j]'j.2 = { entries[j]'j.2 with present := present } := by
  induction rs generalizing entries with
  | nil => exact ⟨(entries[j]'j.2).present, rfl⟩
  | cons r rs ih =>
    simp only [List.all_cons, Bool.and_eq_true] at own
    obtain ⟨here, later⟩ := own
    cases r with
    | occur k h => cases here
    | cond k h on =>
      cases h with
      | none => cases here
      | some h =>
        obtain ⟨present, e⟩ := ih (entries.set k.ix ((entries[k.ix]'k.ix.2).keepValue (some h) on)) later
        by_cases same : k.ix = j
        · subst same
          refine ⟨present, e.trans ?_⟩
          rw [show (entries.set k.ix ((entries[k.ix]'k.ix.2).keepValue (some h) on))[k.ix]'k.ix.2 =
            _ from Vector.getElem_set_self _]
          rfl
        · refine ⟨present, e.trans ?_⟩
          rw [show (entries.set k.ix ((entries[k.ix]'k.ix.2).keepValue (some h) on))[j]'j.2 = entries[j]'j.2 from
            Vector.getElem_set_ne _ _ fun n => same (Fin.ext n)]

theorem conds_ofHoist (s : State) (h : Hoist) (c : DipCtx) (d : DriveIf) :
    (s.conds h c d).all FaultReport.ofHoist = true := rfl

theorem haltConds_ofHoist (s : State) (h : Hoist) (c : DipCtx) (d : DriveIf) :
    (s.haltConds h c d).all FaultReport.ofHoist = true := by
  unfold State.haltConds
  split
  · exact conds_ofHoist s h c _
  · rfl

/-- The entry of a kind in a machine after an occurrence of it. -/
theorem struck_entry (s : State) (k : FaultKind) (who : Option Hoist) :
    (s.struck k who).entries[k.ix]'k.ix.2 = s.struckEntry k who := Vector.getElem_set_self k.ix.isLt

theorem struck_other (s : State) (k j : FaultKind) (who : Option Hoist) (other : j.ix ≠ k.ix) :
    (s.struck k who).entries[j.ix]'j.ix.2 = s.entries[j.ix]'j.ix.2 :=
  Vector.getElem_set_ne k.ix.isLt j.ix.isLt fun e => other (Fin.ext e.symm)

/-- A step that ends with an occurrence that a CLEAR entry takes alone, before reports of absent conditions (R179). -/
theorem finish_alone (s : State) (k : FaultKind) (h i : Hoist) (follow : List Follow) (other : k ≠ .drivePowerLoss)
    (installed : s.installed h = true) (alone : s.latchesAlone k)
    (a : s.agenda = ⟨.occur k (some h) :: absentConds i, follow⟩) (rests : ∀ y ∈ follow, y.resting s)
    (few : follow.length ≤ 50) : ∃ link entries beacon,
    s.settle.transmit = { s with entries := entries, beaconT := beacon, link := link, agenda := Agenda.empty } ∧
      State.latchedOnce { s with entries := entries } k (some h) := by
  have taken := occurrence_alone { s with agenda := ⟨absentConds i, follow⟩ } k h installed alone
  obtain ⟨link, finished, _⟩ := finish_report s (State.struck { s with agenda := ⟨absentConds i, follow⟩ } k (some h))
    []
    (.occur k (some h)) (absentConds i) (absentConds i) follow follow a trivial taken rfl
    (quietReports_of_absent _ _ (absentConds_absent i)) (fun y hy => by
      have here := rests y hy
      cases y with
      | take j => exact here
      | rehang j => exact here)
    (by simp only [absentConds, List.length_cons, List.length_nil]; omega)
  obtain ⟨present, entry⟩ := keepReports_present
    (State.struck { s with agenda := ⟨absentConds i, follow⟩ } k (some h)).entries (absentConds i) k.ix rfl
  rw [struck_entry] at entry
  exact ⟨link, _, _, finished,
    struckEntry_latchedOnce { s with agenda := ⟨absentConds i, follow⟩ } _ k h other installed
    alone.1 present entry⟩

/-! ### What a statement asks of an occurrence, over the step it comes in (R179, R181, R185, R186) -/

/-- `w` agrees with `s` in all that an occurrence of a kind reads and a statement about it compares, but for the values
of conditions. -/
structure Agrees (s w : State) (k : FaultKind) : Prop where
  entry : ∃ present, w.entries[k.ix]'k.ix.2 = { s.entries[k.ix]'k.ix.2 with present := present }
  kept : w.kept = s.kept
  straps : w.link.straps = s.link.straps
  beacon : w.beaconT = s.beaconT
  mark : w.link.marks[NoticeClass.fault.ix]'NoticeClass.fault.ix.2 =
    s.link.marks[NoticeClass.fault.ix]'NoticeClass.fault.ix.2
  tx : w.link.tx = s.link.tx
  replies : w.link.replies = s.link.replies

section
variable {s w : State} {k : FaultKind}

theorem Agrees.state (a : Agrees s w k) : (w.entries[k.ix]'k.ix.2).state = (s.entries[k.ix]'k.ix.2).state := by
  obtain ⟨present, e⟩ := a.entry
  rw [e]

theorem Agrees.involved (a : Agrees s w k) : (w.entries[k.ix]'k.ix.2).involved = (s.entries[k.ix]'k.ix.2).involved := by
  obtain ⟨present, e⟩ := a.entry
  rw [e]

theorem Agrees.reaction (a : Agrees s w k) : w.reactionOf k = s.reactionOf k := by
  unfold State.reactionOf
  rw [a.kept]

theorem Agrees.installed (a : Agrees s w k) (h : Hoist) : w.installed h = s.installed h := by
  unfold State.installed
  rw [a.straps]

theorem Agrees.reachesNone (a : Agrees s w k) (h : Hoist) (n : s.reachesNone k h) : w.reachesNone k h := by
  unfold State.reachesNone State.applies at n ⊢
  rwa [a.state, a.involved, a.reaction, a.kept]

theorem Agrees.applies (a : Agrees s w k) (h : Hoist) (n : s.applies k h) : w.applies k h := by
  unfold State.applies at n ⊢
  rwa [a.state, a.involved, a.kept]

theorem Agrees.struckNow (a : Agrees s w k) : w.struckNow k = s.struckNow k := by
  unfold State.struckNow
  rw [a.state, a.reaction, a.kept]

theorem Agrees.struckEntry (a : Agrees s w k) (h : Hoist) : ∃ present,
    w.struckEntry k (some h) = { s.struckEntry k (some h) with present := present } := by
  have state := a.state
  have involved := a.involved
  have named : ∀ x, w.named x = s.named x := fun x => by
    unfold State.named
    cases x with
    | none => rfl
    | some i => simp only [a.installed i]
  have gained : w.gained k (some h) = s.gained k (some h) := by
    unfold State.gained
    rw [involved, named]
  obtain ⟨present, e⟩ := a.entry
  unfold State.struckEntry
  rw [state, gained]
  split
  · unfold State.latchedEntry State.involvedAtLatch
    rw [a.kept, a.straps, named, e]
    exact ⟨present, rfl⟩
  · unfold FaultEntry.again
    rw [a.kept, e]
    exact ⟨present, rfl⟩

/-- After an occurrence in a machine that agrees with `s`, a step that only puts values of hoists' conditions into the
entries, and sends, has taken the occurrence from `s`. -/
theorem Agrees.occurred (a : Agrees s w k) (h : Hoist) (other : k ≠ .drivePowerLoss) (installed : s.installed h = true)
    (u t : State) (reports : List FaultReport) (own : reports.all FaultReport.ofHoist = true)
    (entries : u.entries = (w.struck k (some h)).entries) (beacon : u.beaconT = (w.struck k (some h)).beaconT)
    (mark : u.link.marks[NoticeClass.fault.ix]'NoticeClass.fault.ix.2 =
      (w.struck k (some h)).link.marks[NoticeClass.fault.ix]'NoticeClass.fault.ix.2)
    (tx : u.link.tx = w.link.tx) (replies : u.link.replies = w.link.replies)
    (entries' : t.entries = keepReports u.entries reports) (beacon' : t.beaconT = u.beaconT)
    (sent : Sent u.link [] t.link) :
    Occurred s t k h := by
  obtain ⟨present, kept_entry⟩ := keepReports_present u.entries reports k.ix own
  obtain ⟨_, struck⟩ := a.struckEntry h
  rw [entries, struck_entry, struck] at kept_entry
  refine occurred_of s t k h other installed present (by rw [entries', entries]; exact kept_entry) ?_ ?_
  · rw [beacon', beacon]
    unfold State.struck
    dsimp only
    rw [a.kept, a.beacon]
  · refine noticeMarked_of_sent s t .fault (s.struckNow k) u.link ?_ (tx.trans a.tx) (replies.trans a.replies) sent
    rw [mark]
    unfold State.struck
    dsimp only
    rw [noted_same, a.struckNow, a.mark, a.kept]

end

end Sys2Proof.Machine
end

section
/-! The weigh-out, and the weigh-in that fails: the entry finalised, the order closed or its pass 2 waited for (R31, R35,
R36, R61, R70). -/

namespace Sys2Proof.Machine

set_option Elab.async false

/-! ### The entry finalised (R61, R70) -/

/-- The flags of a pass after its weigh-out (R35, R60). -/
def DipCtx.weighedOutFlags (c : DipCtx) (value : Option Int) (i : Int) : EntryFlags :=
  { c.flags with
    negative := c.flags.negative || (value.map fun w => decide (w < i)).getD false,
    unweighed := c.flags.unweighed || value.isNone }

/-- The PICKUP entry of a pass as its weigh-out finalises it. -/
def Entry.weighedOut (e : Entry) (now : Nat) (value : Option Int) (immersion : Nat) (flags : EntryFlags) : Entry :=
  { e with final := true, finalised := some now, weighOut := value, immersion := some immersion,
           amount := pickupAmount e.weighIn value, flags := flags }

/-- What is retained after an entry has been finalised. -/
def Retained.finalised (r : Retained) (seq : Nat) (value : Option Int) (immersion : Nat)
    (flags : EntryFlags) : Retained :=
  r.revise .pickup seq fun e => e.weighedOut r.runtime value immersion flags

theorem finalised_at (r : Retained) (value : Option Int) (immersion : Nat) (flags : EntryFlags) (pre post : List Entry)
    (e : Entry) (journal : r.journal = pre ++ e :: post) (first : ∀ x ∈ pre, x.seq ≠ e.seq) (kind : e.kind = .pickup)
    (open_ : e.final = false) (unbooked : e.amount = 0) :
    r.finalised e.seq value immersion flags = { r with
      journal := pre ++ e.weighedOut r.runtime value immersion flags :: post,
      inventory := r.inventory + pickupAmount e.weighIn value,
      totals := (r.finalised e.seq value immersion flags).totals } := by
  have found := reviseFirst_at (fun x : Entry => x.seq == e.seq && !x.final && x.kind == .pickup)
    (fun x => x.weighedOut r.runtime value immersion flags) pre post e
    (fun x hx => by rw [beq_false_of_ne (first x hx)]; rfl) (by rw [kind, open_, beq_self_eq_true]; rfl)
  unfold Retained.finalised Retained.revise
  rw [journal, found]
  have amount : (e.weighedOut r.runtime value immersion flags).amount - e.amount = pickupAmount e.weighIn value := by
    rw [unbooked, Int.sub_zero]; rfl
  simp only [amount]
  rfl

/-! ### WEIGH_OUT to its end (R35, R36) -/

/-- The report that an UNSTABLE weighing makes. -/
def unstableReports (h : Hoist) (value : Option Int) : List FaultReport :=
  if value.isNone then [.occur .weighUnstable (some h)] else []

/-- The machine with the entry of a weigh-out finalised. -/
def State.bookedOut (s : State) (seq : Nat) (value : Option Int) (immersion : Nat) (flags : EntryFlags) : State :=
  { s with kept := s.kept.finalised seq value immersion flags }

/-- The part of a hoist whose weigh-out is booked. -/
def State.bookedSite (s : State) (h : Hoist) (x : Site) (seq : Nat) (value : Option Int) (flags : EntryFlags) : Site :=
  { x with ctx := { x.ctx with flags := flags, asked := .none },
           marks := noted s.kept.notices (s.kept.hasProvisional .pickup seq) .book x.marks,
           agenda := ⟨x.agenda.reports ++ unstableReports h value, x.agenda.follow⟩ }

theorem putSite_finalisePickup (s : State) (h : Hoist) (x : Site) (seq : Nat) (value : Option Int) (immersion : Nat)
    (flags : EntryFlags) : (s.putSite h x).finalisePickup seq value immersion flags =
      (s.bookedOut seq value immersion flags).putSite h
        { x with marks := noted s.kept.notices (s.kept.hasProvisional .pickup seq) .book x.marks } := by
  unfold State.finalisePickup
  rw [markIf_eq]
  rfl

theorem putSite_weighedOut (s : State) (h : Hoist) (x : Site) (value : Option Int) (i : Int) (seq : Nat)
    (f : EntryFlags)
    (weighed : x.ctx.weighIn = some i) (entry : x.ctx.entrySeq = some seq) (flags : f = x.ctx.weighedOutFlags value i) :
    (s.putSite h x).weighedOut h value =
      ((s.bookedOut seq value x.ctx.clock.tenths f).putSite h (s.bookedSite h x seq value f)).endPass h := by
  unfold State.weighedOut
  cases value with
  | some w =>
    have same : f = { x.ctx.flags with negative := x.ctx.flags.negative || decide (w < i) } := by
      rw [flags, DipCtx.weighedOutFlags]
      simp
    simp only [putSite_ctx, weighed, entry, Option.isNone_some, Bool.false_eq_true, if_false, putSite_finalisePickup,
      putSite_modCtx, ← same]
    rw [← weighed, ← entry]
    unfold State.bookedSite unstableReports
    simp only [Option.isNone_some, Bool.false_eq_true, if_false, List.append_nil]
  | none =>
    have same : f = { x.ctx.flags with unweighed := true } := by
      rw [flags, DipCtx.weighedOutFlags]
      simp
    simp only [putSite_ctx, weighed, entry, Option.isNone_none, if_true, putSite_raise, putSite_finalisePickup,
      putSite_modCtx, ← same]
    rw [← weighed, ← entry]
    rfl

/-- Pass 1 of a two-pass order waits for the second hanging (R36, R37). -/
theorem endPass_rehangs (s : State) (h : Hoist) (o : Order) (r : OrderRef) (own : s.orderOf h = some o)
    (ordered : (s.ctxs[h]'h.2).order = some r) (pass : (s.ctxs[h]'h.2).pass = some .one) (two : o.pass2.isSome = true)
    (open_ : o.closePending = false) : s.endPass h =
      State.putCtx { s with orders := s.orders.map fun x => if x.slot = r.slot then { x with state := .rehang } else
                            x } h
        { s.ctxs[h]'h.2 with
          state := .rehang, latched := none, weighIn := none, entrySeq := none, rehangKept := false,
            asked := .none } := by
  unfold State.endPass
  simp only [own]
  refine (if_pos ⟨pass, two, open_⟩).trans ?_
  unfold State.modOrder
  simp only [ordered]

theorem endPass_closes (s : State) (h : Hoist) (o : Order) (own : s.orderOf h = some o)
    (last : (s.ctxs[h]'h.2).pass ≠ some .one ∨ o.pass2 = none ∨ o.closePending = true) : s.endPass h =
      s.closeOrder h (if o.closePending then .aborted else .done)
      (if o.closePending then (s.ctxs[h]'h.2).closeReason else none) := by
  unfold State.endPass
  simp only [own]
  rw [if_neg]
  · cases o.closePending <;> rfl
  · rintro ⟨one, two, open_⟩
    rcases last with n | n | n
    · exact n one
    · rw [n] at two; cases two
    · rw [open_] at n; cases n

/-- What a weighing result leaves to work off: an UNSTABLE one's occurrence, absent conditions, idle takes. -/
theorem finish_weighing (s : State) (h : Hoist) (value : Option Int) (follow : List Follow)
    (a : s.agenda = ⟨unstableReports h value ++ absentConds h, follow⟩) (rests : ∀ y ∈ follow, y.resting s)
    (few : follow.length ≤ 50)
    (alone : value = none → s.installed h = true ∧ s.latchesAlone .weighUnstable) : ∃ link entries beacon,
    s.settle.transmit = { s with entries := entries, beaconT := beacon, link := link, agenda := Agenda.empty } ∧
      (value = none → State.latchedOnce { s with entries := entries } .weighUnstable (some h)) := by
  cases value with
  | none =>
    obtain ⟨installed, alone⟩ := alone rfl
    obtain ⟨link, entries, beacon, finished, once⟩ :=
      finish_alone s .weighUnstable h h follow (by decide) installed alone a
      rests few
    exact ⟨link, entries, beacon, finished, fun _ => once⟩
  | some w =>
    obtain ⟨link, finished, _⟩ := finish_quiet s (absentConds h) follow [] a
      (quietReports_of_absent _ _ (absentConds_absent h)) rests
      (by simp only [absentConds, List.length_cons, List.length_nil]; omega)
    rw [owing_nil] at finished
    exact ⟨link, _, s.beaconT, finished, fun n => nomatch n⟩

theorem takeResult_weighsOut (s : State) (h : Hoist) (a : WeighAnswer) (takes : (s.ctxs[h]'h.2).takes a)
    (weighing : (s.ctxs[h]'h.2).state = .weighOut) : s.takeResult h a = s.weighedOut h a.value := by
  unfold State.takeResult
  refine (if_pos takes).trans ?_
  simp only [weighing]

theorem weighResult_next (s : State) (h : Hoist) (a : WeighAnswer) (rest : List WeighAnswer) (live : s.ready)
    (handed : (s.mail[h]'h.2).results = a :: rest) :
    exec (.weighResult h) s = .next ((s.putSite h (s.resultTaken h rest)).takeResult h a).settle.transmit := by
  refine congrArg Host.Outcome.next ((whileRunning_of_ready s _ live).trans ?_)
  simp only [handed]
  rw [modMail_results]

/-- A weigh result that a dip context takes in WEIGH_OUT, its entry provisional in the journal. -/
structure WeighingOut (s : State) (h : Hoist) (o : Order) (p : Pass) (v : Option Int) (n : Nat) (d : Option Nat)
    (rest : List WeighAnswer) (i : Int) (pre post : List Entry) (e : Entry) : Prop where
  live : s.ready
  none_waits : s.noneQueued
  handed : (s.mail[h]'h.2).results = ⟨o.tag, p, v, n, d⟩ :: rest
  asked : (s.ctxs[h]'h.2).asked = .placed
  ordered : (s.ctxs[h]'h.2).order = some ⟨o.slot, o.tag⟩
  pass : (s.ctxs[h]'h.2).pass = some p
  own : s.orderOf h = some o
  alone : v = none → s.installed h = true ∧ s.latchesAlone .weighUnstable
  state : (s.ctxs[h]'h.2).state = .weighOut
  weighed : (s.ctxs[h]'h.2).weighIn = some i
  entry : (s.ctxs[h]'h.2).entrySeq = some e.seq
  journal : s.kept.journal = pre ++ e :: post
  first : ∀ x ∈ pre, x.seq ≠ e.seq
  kind : e.kind = .pickup
  open_ : e.final = false
  unbooked : e.amount = 0
  weighIn : e.weighIn = some i

/-- What a weigh-out leaves of the book and of the other hoists, whatever its order does next. -/
def BookedOut (s t : State) (h : Hoist) (v : Option Int) (amount : Int) (f : EntryFlags) (pre post : List Entry)
    (e : Entry) : Prop :=
  t.kept = { s.kept with journal := t.kept.journal, inventory := s.kept.inventory + amount, totals := t.kept.totals } ∧
  t.kept.journal = pre ++ { e with final := true, finalised := some s.kept.runtime, weighOut := v,
                                   immersion := some (s.ctxs[h]'h.2).clock.tenths, amount := amount,
                                   flags := f } :: post ∧
  (v = none → t.latchedOnce .weighUnstable (some h)) ∧ t.reserved = s.reserved ∧ t.holders = s.holders ∧
  ∀ j : Hoist, j ≠ h → t.ctxs[j]'j.2 = s.ctxs[j]'j.2 ∧ t.drives[j]'j.2 = s.drives[j]'j.2

section
variable {s : State} {h : Hoist} {o : Order} {p : Pass} {v : Option Int} {n : Nat} {d : Option Nat}
  {rest : List WeighAnswer}
  {i : Int} {pre post : List Entry} {e : Entry}

/-- The machine with the weigh-out booked and its report made, before the end of the pass. -/
def State.weighOutBooked (s : State) (h : Hoist) (rest : List WeighAnswer) (seq : Nat) (v : Option Int)
    (f : EntryFlags) :
    State :=
  (s.bookedOut seq v (s.ctxs[h]'h.2).clock.tenths f).putSite h (s.bookedSite h (s.resultTaken h rest) seq v f)

theorem WeighingOut.next (g : WeighingOut s h o p v n d rest i pre post e) (f : EntryFlags)
    (flags : f = (s.ctxs[h]'h.2).weighedOutFlags v i) :
    exec (.weighResult h) s = .next ((s.weighOutBooked h rest e.seq v f).endPass h).settle.transmit := by
  rw [weighResult_next s h _ rest g.live g.handed, takeResult_weighsOut _ h _ (by
    rw [putSite_ctx]; exact ⟨g.asked, congrArg (Option.map OrderRef.tag) g.ordered, g.pass⟩)
      (by rw [putSite_ctx]; exact g.state)]
  rw [putSite_weighedOut s h (s.resultTaken h rest) v i e.seq f g.weighed g.entry flags]
  rfl

theorem WeighingOut.agenda (g : WeighingOut s h o p v n d rest i pre post e) (f : EntryFlags) :
    (s.weighOutBooked h rest e.seq v f).agenda = ⟨unstableReports h v, []⟩ := by
  have idle : (s.resultTaken h rest).agenda = Agenda.empty := g.live.2
  unfold State.weighOutBooked
  rw [putSite_agenda, State.bookedSite, idle]
  rfl

theorem WeighingOut.ctx (f : EntryFlags) : (s.weighOutBooked h rest e.seq v f).ctxs[h]'h.2 =
    { s.ctxs[h]'h.2 with flags := f, asked := .none } := by
  unfold State.weighOutBooked
  rw [putSite_ctx]
  rfl

theorem WeighingOut.own' (g : WeighingOut s h o p v n d rest i pre post e) (f : EntryFlags) :
    (s.weighOutBooked h rest e.seq v f).orderOf h = some o :=
  (putSite_orderOf (s.bookedOut e.seq v (s.ctxs[h]'h.2).clock.tenths f) h (s.bookedSite h (s.resultTaken h rest)
    e.seq v f) rfl).trans
    g.own

/-- What the book holds after the weigh-out, from a machine that keeps what is retained. -/
theorem WeighingOut.booked (g : WeighingOut s h o p v n d rest i pre post e) (f : EntryFlags) (amount : Int)
    (weighs : amount = pickupAmount (some i) v) (t : State)
    (kept : t.kept = (s.weighOutBooked h rest e.seq v f).kept)
    (once : v = none → t.latchedOnce .weighUnstable (some h)) (reserved : t.reserved = s.reserved)
    (holders : t.holders = s.holders)
    (others : ∀ j : Hoist, j ≠ h → t.ctxs[j]'j.2 = s.ctxs[j]'j.2 ∧ t.drives[j]'j.2 = s.drives[j]'j.2) :
    BookedOut s t h v amount f pre post e := by
  have book := finalised_at s.kept v
    (s.ctxs[h]'h.2).clock.tenths f pre post e g.journal g.first g.kind g.open_ g.unbooked
  have kept' : t.kept = s.kept.finalised e.seq v (s.ctxs[h]'h.2).clock.tenths f := kept
  rw [g.weighIn, ← weighs] at book
  refine ⟨?_, ?_, once, reserved, holders, others⟩
  · rw [kept', book]
  · rw [kept', book, weighs]
    unfold Entry.weighedOut
    rw [g.weighIn]

theorem WeighingOut.rehangs (g : WeighingOut s h o p v n d rest i pre post e) (f : EntryFlags) (amount : Int)
    (flags : f = (s.ctxs[h]'h.2).weighedOutFlags v i) (weighs : amount = pickupAmount (some i) v) (one : p = .one)
    (two : o.pass2.isSome = true) (unclosed : o.closePending = false) : ∃ t, exec (.weighResult h) s = .next t ∧
      BookedOut s t h v amount f pre post e ∧
      t.ctxs[h]'h.2 = { s.ctxs[h]'h.2 with
        state := .rehang, latched := none, weighIn := none, entrySeq := none, rehangKept := false, asked := .none,
        flags := f, starved := false } ∧
      t.orders = s.orders.map (fun x => if x.slot = o.slot then { x with state := .rehang } else x) ∧
      (s.bench = false → t.drives[h]'h.2 = { s.drives[h]'h.2 with permit := true }) := by
  have next := g.next f flags
  have ctx := WeighingOut.ctx (s := s) (h := h) (v := v) (rest := rest) (e := e) f
  rw [endPass_rehangs _ h o ⟨o.slot, o.tag⟩ (g.own' f) (by rw [ctx]; exact g.ordered)
    (by rw [ctx, ← one]; exact g.pass) two
    unclosed, putCtx_eq] at next
  generalize hc : ({ (s.weighOutBooked h rest e.seq v f).ctxs[h]'h.2 with
    state := .rehang, latched := none, weighIn := none, entrySeq := none, rehangKept := false,
      asked := .none } : DipCtx) = c
    at next
  have here : c = { s.ctxs[h]'h.2 with
      state := .rehang, latched := none, weighIn := none, entrySeq := none, rehangKept := false, asked := .none,
      flags := f } := by rw [← hc, ctx]
  generalize hu : ({ s.weighOutBooked h rest e.seq v f with
    orders := (s.weighOutBooked h rest e.seq v f).orders.map fun x =>
      if x.slot = o.slot then { x with state := .rehang } else x } : State) = u at next
  have calm := conds_of_unwatched u h c (u.drives[h]'h.2)
    (unwatched_plain u h c (by rw [here]; rfl) (by rw [here]; exact fun e => nomatch e)
      (by rw [here]; exact fun e => nomatch e))
  have agenda : (u.putSite h (u.ctxSite (u.site h) h c)).agenda = ⟨unstableReports h v ++ absentConds h, []⟩ := by
    have left : u.agenda = ⟨unstableReports h v, []⟩ := by rw [← hu]; exact g.agenda f
    rw [putSite_agenda]
    unfold State.ctxSite State.site
    rw [calm, left]
  obtain ⟨link, entries, beacon, finished, once⟩ := finish_weighing _ h v [] agenda (fun _ hy => nomatch hy)
    (Nat.zero_le 50) (by rw [← hu]; exact g.alone)
  rw [finished] at next
  have others : ∀ j : Hoist, j ≠ h → (u.putSite h (u.ctxSite (u.site h) h c)).ctxs[j]'j.2 = s.ctxs[j]'j.2 ∧
      (u.putSite h (u.ctxSite (u.site h) h c)).drives[j]'j.2 = s.drives[j]'j.2 := by
    intro j ne
    rw [← hu]
    exact ⟨(hoist_set_ne _ h j _ ne).trans (hoist_set_ne _ h j _ ne),
      (hoist_set_ne _ h j _ ne).trans (hoist_set_ne _ h j _ ne)⟩
  refine ⟨_, next, g.booked f amount weighs _ (by rw [← hu]; rfl) once (by rw [← hu]; rfl) (by rw [← hu]; rfl) others,
    ?_, ?_,
    fun unbenched => ?_⟩
  · refine (putSite_ctx u h _).trans ?_
    unfold State.ctxSite
    rw [here]
    simp only [DipState.moving, Bool.and_false]
  · rw [← hu]; rfl
  · refine (putSite_drive u h _).trans ?_
    unfold State.ctxSite DriveIf.permitted
    rw [here, ← hu]
    have open_ : ({ s.weighOutBooked h rest e.seq v f with
      orders := (s.weighOutBooked h rest e.seq v f).orders.map fun x =>
        if x.slot = o.slot then { x with state := .rehang } else x } : State).bench = false := unbenched
    rw [open_]
    have drive : (s.weighOutBooked h rest e.seq v f).drives[h]'h.2 = s.drives[h]'h.2 := hoist_set_same _ h _
    simp only [State.site, drive]
    rfl

theorem WeighingOut.closes (g : WeighingOut s h o p v n d rest i pre post e) (f : EntryFlags) (amount : Int)
    (flags : f = (s.ctxs[h]'h.2).weighedOutFlags v i) (weighs : amount = pickupAmount (some i) v)
    (last : p = .two ∨ o.pass2 = none ∨ o.closePending = true) : ∃ t, exec (.weighResult h) s = .next t ∧
      BookedOut s t h v amount f pre post e ∧
      t.ctxs[h]'h.2 = { DipCtx.parked with
        runEnable := (s.ctxs[h]'h.2).runEnable,
        last := some (if o.closePending then ⟨o.tag, .aborted, (s.ctxs[h]'h.2).closeReason⟩ else
          ⟨o.tag, .done, none⟩) } ∧
      t.orders = s.orders.filter (fun x => x.slot != o.slot) := by
  have next := g.next f flags
  have ctx := WeighingOut.ctx (s := s) (h := h) (v := v) (rest := rest) (e := e) f
  have ending : ((s.weighOutBooked h rest e.seq v f).ctxs[h]'h.2).pass ≠ some .one ∨ o.pass2 = none ∨
    o.closePending = true := by
    rcases last with two | n | n
    · rw [ctx]
      refine .inl fun one => ?_
      have here : some p = some .one := g.pass.symm.trans one
      rw [two] at here
      cases here
    · exact .inr (.inl n)
    · exact .inr (.inr n)
  rw [endPass_closes _ h o (g.own' f) ending] at next
  obtain ⟨drives, mail, m, closed, far⟩ := closeOrder_only (s.weighOutBooked h rest e.seq v f) h
    (if o.closePending then .aborted else .done)
    (if o.closePending then ((s.weighOutBooked h rest e.seq v f).ctxs[h]'h.2).closeReason else none) ⟨o.slot, o.tag⟩
    (by rw [ctx]; exact g.ordered)
  generalize State.closeOrder _ h _ _ = z at closed next
  have orders : z.orders = s.orders.filter fun x => x.slot != o.slot := by rw [closed]; rfl
  obtain ⟨link, entries, beacon, finished, once⟩ := finish_weighing z h v [.take h]
    (by rw [closed, g.agenda f]; rfl)
    (fun y hy => by
      rw [List.mem_singleton.1 hy]
      exact .inl (offered_of_noneQueued z h (noneQueued_of_filter s z _ g.none_waits orders)))
    (Nat.le_of_ble_eq_true rfl) (by rw [closed]; exact g.alone)
  rw [finished] at next
  subst closed
  refine ⟨_, next, g.booked f amount weighs _ rfl once rfl rfl fun j ne => ⟨?_, ?_⟩, ?_, rfl⟩
  · exact (hoist_set_ne _ h j _ ne).trans (hoist_set_ne _ h j _ ne)
  · exact (far j ne).trans (hoist_set_ne _ h j _ ne)
  · refine (hoist_set_same _ h _).trans ?_
    rw [ctx]
    cases o.closePending <;> rfl

end

/-! ### The weigh-in that fails (R31) -/

theorem takeResult_fails (s : State) (h : Hoist) (a : WeighAnswer) (takes : (s.ctxs[h]'h.2).takes a)
    (weighing : (s.ctxs[h]'h.2).state = .weighIn) (value : a.value = none) :
    s.takeResult h a = (s.raise .weighUnstable h).closeUnlowered h .aborted .weighInFailed := by
  unfold State.takeResult
  refine (if_pos takes).trans ?_
  simp only [weighing, value]

/-- An UNSTABLE weigh-in closes the order with nothing booked. -/
theorem weighIn_fails (s : State) (h : Hoist) (o : Order) (p : Pass) (n : Nat) (d : Option Nat)
    (rest : List WeighAnswer)
    (live : s.ready) (none_waits : s.noneQueued) (handed : (s.mail[h]'h.2).results = ⟨o.tag, p, none, n, d⟩ :: rest)
    (asked : (s.ctxs[h]'h.2).asked = .placed) (ordered : (s.ctxs[h]'h.2).order = some ⟨o.slot, o.tag⟩)
    (pass : (s.ctxs[h]'h.2).pass = some p)
    (installed : s.installed h = true) (alone : s.latchesAlone .weighUnstable)
    (state : (s.ctxs[h]'h.2).state = .weighIn) :
    ∃ t, exec (.weighResult h) s = .next t ∧
      ClosedBy s t h ⟨o.slot, o.tag⟩ .aborted .weighInFailed ∧ t.latchedOnce .weighUnstable (some h) ∧
      ((∀ c ∈ s.waits, c.hoist ≠ h) → ∀ z : Fin 12, t.holders[z]'z.2 ≠ some h) := by
  have next := weighResult_next s h _ rest live handed
  rw [takeResult_fails _ h _ (by
    rw [putSite_ctx]; exact ⟨asked, congrArg (Option.map OrderRef.tag) ordered, pass⟩)
      (by rw [putSite_ctx]; exact state) rfl,
    putSite_raise] at next
  generalize hv : s.putSite h { s.resultTaken h rest with
    agenda := ⟨(s.resultTaken h rest).agenda.reports ++ [.occur .weighUnstable (some h)],
      (s.resultTaken h rest).agenda.follow⟩ } = v at next
  have idle : (s.resultTaken h rest).agenda = Agenda.empty := live.2
  have ctx : v.ctxs[h]'h.2 = s.ctxs[h]'h.2 := by rw [← hv, putSite_ctx]; rfl
  have agenda : v.agenda = ⟨[.occur .weighUnstable (some h)], []⟩ := by rw [← hv, putSite_agenda, idle]; rfl
  obtain ⟨wu, drives, mail, holders, waits, full, m, closed, far, _, _, released⟩ :=
    closeUnlowered_only v h .aborted .weighInFailed ⟨o.slot, o.tag⟩ (by rw [ctx]; exact ordered)
  generalize State.closeUnlowered _ h _ _ = z at closed next
  have four := takesAfterReturn_length v (v.ctxs[h]'h.2).resv
  have orders : z.orders = s.orders.filter fun x => x.slot != o.slot := by rw [closed, ← hv]; rfl
  have none_left : z.noneQueued := noneQueued_of_filter s z _ none_waits orders
  obtain ⟨link, entries, beacon, finished, once⟩ := finish_weighing z h none
    (v.takesAfterReturn (v.ctxs[h]'h.2).resv ++ [.take h]) (by rw [closed, agenda]; rfl) (fun y hy => by
      have idle_take := takes_idle v z none_left (v.ctxs[h]'h.2).resv h y hy
      cases y with
      | take j => exact .inl idle_take
      | rehang j => exact idle_take.elim)
    (by simp only [List.length_append, List.length_cons, List.length_nil]; omega)
    (fun _ => by rw [closed, ← hv]; exact ⟨installed, alone⟩)
  rw [finished] at next
  subst closed
  refine ⟨_, next, ⟨?_, by rw [← hv]; rfl, by rw [ctx, ← hv]; rfl, by rw [← hv]; rfl, fun j ne => ⟨?_, ?_⟩⟩, once rfl,
    fun unclaimed => ?_⟩
  · exact (hoist_set_same _ h _).trans (by rw [ctx])
  · exact (hoist_set_ne _ h j _ ne).trans (by rw [← hv]; exact hoist_set_ne _ h j _ ne)
  · exact (far j ne).trans (by rw [← hv]; exact hoist_set_ne _ h j _ ne)
  · refine released ?_ (by rw [← hv]; exact unclaimed)
    have effective := (effective_of_not_held (s.ctxs[h]'h.2) (by rw [state]; decide)).trans state
    rw [ctx, effective]
    decide

/-- Settles O36: the entry is finalised, then the pass ends by its order; a weigh-in that fails closes. -/
theorem weighOutBooks : Obligations.WeighOutBooks := by
  unfold Obligations.WeighOutBooks
  refine ⟨fun s h o w i n d rest pre post e live none_waits handed state asked ordered pass own single unclosed weighed
      entry
      journal first kind open_ unbooked weighIn => ?_,
    fun s h o p v n d rest live none_waits handed asked ordered pass own alone => ⟨fun state failed => ?_,
      fun i amount f pre post e state weighed entry journal first kind open_ unbooked weighIn weighs flags => ?_⟩⟩
  · have g : WeighingOut s h o .one (some w) n d rest i pre post e :=
      ⟨live, none_waits, handed, asked, ordered, pass, own,
      (fun n => nomatch n), state, weighed, entry, journal, first, kind, open_, unbooked, weighIn⟩
    obtain ⟨t, step, ⟨kept, booked, _, _, _, others⟩, ctx, orders⟩ := g.closes _ (i - w) rfl rfl (.inr (.inl single))
    refine ⟨t, step, kept, ?_, ?_, orders, others⟩
    · rw [booked]
      have flags : (s.ctxs[h]'h.2).weighedOutFlags (some w) i = { (s.ctxs[h]'h.2).flags with
          negative := (s.ctxs[h]'h.2).flags.negative || decide (w < i) } := by
        rw [DipCtx.weighedOutFlags]
        simp
      rw [flags]
    · rw [ctx, unclosed]
      rfl
  · subst failed
    obtain ⟨installed, alone⟩ := alone rfl
    obtain ⟨t, step, ⟨ctx, orders, reserved, kept, others⟩, once, free⟩ :=
      weighIn_fails s h o p n d rest live none_waits
      handed asked ordered pass installed alone state
    exact ⟨t, step, ctx, orders, reserved, kept, once, free, others⟩
  · have g : WeighingOut s h o p v n d rest i pre post e := ⟨live, none_waits, handed, asked, ordered, pass, own,
      alone, state, weighed, entry, journal, first, kind, open_, unbooked, weighIn⟩
    have weighs' : amount = pickupAmount (some i) v := by
      rw [weighs]
      cases v <;> rfl
    by_cases on : p = .one ∧ o.pass2.isSome = true ∧ o.closePending = false
    · obtain ⟨one, two, unclosed⟩ := on
      obtain ⟨t, step, ⟨kept, booked, once, reserved, holders, others⟩, ctx, orders, drive⟩ :=
        g.rehangs f amount flags weighs' one two unclosed
      refine ⟨t, step, kept, booked, once, reserved, holders, fun _ _ _ => ⟨ctx, orders, drive⟩, fun n => ?_, others⟩
      rcases n with n | n | n
      · rw [one] at n; cases n
      · rw [n] at two; cases two
      · rw [unclosed] at n; cases n
    · have last : p = .two ∨ o.pass2 = none ∨ o.closePending = true := by
        cases p with
        | two => exact .inl rfl
        | one =>
          cases second : o.pass2 with
          | none => exact .inr (.inl rfl)
          | some q =>
            cases closing : o.closePending with
            | true => exact .inr (.inr rfl)
            | false => exact absurd ⟨rfl, by rw [second]; rfl, closing⟩ on
      obtain ⟨t, step, ⟨kept, booked, once, reserved, holders, others⟩, ctx, orders⟩ :=
        g.closes f amount flags weighs' last
      exact ⟨t, step, kept, booked, once, reserved, holders, fun one two unclosed => absurd ⟨one, two, unclosed⟩ on,
        fun _ => ⟨ctx, orders⟩, others⟩

end Sys2Proof.Machine
end

section
/-! DWELL_OVERRUN: raised once a pass from HELD, and what its reaction does (R43, R45, R46, R177). -/

namespace Sys2Proof.Machine

set_option Elab.async false

/-! ### The FAULT mark over an order turned onto the abort path -/

theorem judgeNearly_marks (s : State) (c : NoticeClass) (other : c ≠ .book) :
    s.judgeNearly.link.marks[c.ix]'c.ix.2 = s.link.marks[c.ix]'c.ix.2 := by
  unfold State.judgeNearly
  split
  · split
    · rfl
    · rw [mark_eq]
      exact noted_other _ _ _ _ _ other
  · rfl

theorem returnReserve_marks (s : State) (n : Nat) (c : NoticeClass) (other : c ≠ .book) :
    (s.returnReserve n).link.marks[c.ix]'c.ix.2 = s.link.marks[c.ix]'c.ix.2 := by
  unfold State.returnReserve
  split
  · rfl
  · rw [takeAll_eq]
    exact judgeNearly_marks _ c other

theorem turnAborted_marks (s : State) (h : Hoist) (why : CloseReason) (c : NoticeClass) (other : c ≠ .book) :
    (s.turnAborted h why).link.marks[c.ix]'c.ix.2 = s.link.marks[c.ix]'c.ix.2 := by
  unfold State.turnAborted State.returnHeld
  dsimp only
  refine (returnReserve_marks _ _ c other).trans ?_
  unfold State.modOrder
  split <;> rfl

/-- An order turned onto the abort path, with the marks of every class but BOOK as they were. -/
theorem turnAborted_marked (s : State) (h : Hoist) (why : CloseReason) (r : OrderRef)
    (ordered : (s.ctxs[h]'h.2).order = some r) :
    ∃ full m, s.turnAborted h why = (s.turnedFor h r full).putSite h (s.turnedSite (s.site h) why m) ∧
      ∀ c : NoticeClass, c ≠ .book → m[c.ix]'c.ix.2 = s.link.marks[c.ix]'c.ix.2 := by
  obtain ⟨full, m, turned⟩ := turnAborted_eq s h why r ordered
  refine ⟨full, m, turned, fun c other => ?_⟩
  have marks := turnAborted_marks s h why c other
  rw [turned] at marks
  exact marks

theorem hoistMarks_other (s : State) (old new : DipCtx) (marks : Vector Bool 6) (c : NoticeClass) (other : c ≠ .hoist) :
    (s.hoistMarks old new marks)[c.ix]'c.ix.2 = marks[c.ix]'c.ix.2 := noted_other _ _ _ _ _ other

/-! ### The overrun (R43) -/

/-- A held dip context whose pass R43 watches. -/
structure Overrunning (s : State) (h : Hoist) (l : Latched) : Prop where
  live : s.ready
  held : (s.ctxs[h]'h.2).state = .held
  latched : (s.ctxs[h]'h.2).latched = some l
  watched : (s.ctxs[h]'h.2).heldFrom = some .dwell ∨ (s.ctxs[h]'h.2).heldFrom = some .lifting ∨
    ((s.ctxs[h]'h.2).heldFrom = some .lowering ∧ (s.ctxs[h]'h.2).contact = true)

/-- A dip context whose immersion clock has passed the limit of its pass, the fault raised. -/
def DipCtx.overrun (c : DipCtx) (l : Latched) : DipCtx :=
  { c with clock := ⟨c.clock.run, max c.clock.tenths (l.profile.dwell + l.overrun + 1)⟩, overrunRaised := true,
           flags := { c.flags with overdwell := true } }

/-- The part of a hoist whose pass has overrun. -/
def State.overrunSite (s : State) (h : Hoist) (l : Latched) : Site :=
  { s.ctxOnly h ((s.ctxs[h]'h.2).overrun l) with agenda := ⟨[.occur .dwellOverrun (some h)], []⟩ }

section
variable {s : State} {h : Hoist} {l : Latched}

theorem Overrunning.overrunWatched (g : Overrunning s h l) : (s.ctxs[h]'h.2).overrunWatched = true := by
  unfold DipCtx.overrunWatched
  rw [g.held]
  rcases g.watched with e | e | ⟨e, contact⟩
  · rw [e]; rfl
  · rw [e]; rfl
  · rw [e, contact]; rfl

/-- An overrun already raised changes nothing. -/
theorem dwellOverrun_again (g : Overrunning s h l) (raised : (s.ctxs[h]'h.2).overrunRaised = true) :
    ∃ t, exec (.dwellOverrun h) s = .next t ∧ t = { s with link := t.link } := by
  have stays : (s.ctxs[h]'h.2).passLimit = s.ctxs[h]'h.2 := by
    unfold DipCtx.passLimit
    rw [g.latched, raised]
    simp
  have spent : (s.ctxs[h]'h.2).overrunDue = false := by
    unfold DipCtx.overrunDue
    rw [raised]
    simp
  have same : (s.modCtx h DipCtx.passLimit).checkOverrun h = s := by
    have modified : s.modCtx h DipCtx.passLimit = s := by
      rw [modCtx_eq, stays]
      exact putSite_site s h
    rw [modified]
    exact if_neg (by rw [spent]; decide)
  obtain ⟨link, finished, _⟩ := finish_quiet s [] [] [] g.live.2 trivial (fun _ hy => nomatch hy) (Nat.zero_le 200)
  rw [owing_nil] at finished
  have idle : s.agenda = Agenda.empty := g.live.2
  refine ⟨{ s with link := link }, congrArg Host.Outcome.next ((whileRunning_of_ready s _ g.live).trans ?_), rfl⟩
  rw [same, finished]
  show _ = { s with link := link }
  rw [← idle]
  rfl

theorem Overrunning.raises (g : Overrunning s h l) (fresh : (s.ctxs[h]'h.2).overrunRaised = false) :
    (s.modCtx h DipCtx.passLimit).checkOverrun h = s.putSite h (s.overrunSite h l) := by
  have passed : (s.ctxs[h]'h.2).passLimit =
      { s.ctxs[h]'h.2 with
        clock := { (s.ctxs[h]'h.2).clock with tenths := max (s.ctxs[h]'h.2).clock.tenths (l.limit + 1) } } := by
    unfold DipCtx.passLimit
    split
    · rename_i l' latched
      have same : l' = l := Option.some.inj (latched.symm.trans g.latched)
      subst same
      exact if_pos (by rw [g.overrunWatched, fresh]; rfl)
    · rename_i none_latched
      exact absurd (none_latched.symm.trans g.latched) (fun e => nomatch e)
  have due : (s.ctxs[h]'h.2).passLimit.overrunDue = true := by
    have watched : (s.ctxs[h]'h.2).passLimit.overrunWatched = true := by
      rw [passed]; exact g.overrunWatched
    unfold DipCtx.overrunDue
    rw [watched, passed]
    simp only [fresh, g.latched, Bool.not_false, Bool.and_self, Bool.true_and, decide_eq_true_eq]
    omega
  rw [modCtx_eq]
  unfold State.checkOverrun
  rw [putSite_ctx]
  refine (if_pos due).trans ?_
  have idle : s.agenda = Agenda.empty := g.live.2
  have ctx : (s.ctxOnly h (s.ctxs[h]'h.2).passLimit).ctx = (s.ctxs[h]'h.2).passLimit := rfl
  rw [putSite_modCtx, putSite_raise, ctx, passed]
  have agenda : (s.ctxOnly h (s.ctxs[h]'h.2).passLimit).agenda = Agenda.empty := idle
  rw [passed] at agenda
  rw [agenda]
  rfl

/-- The machine in which the occurrence of an overrun is taken. -/
def State.overrunTaken (s : State) (h : Hoist) (l : Latched) : State :=
  s.putSite h { s.overrunSite h l with agenda := Agenda.empty }

theorem overrunTaken_agrees (s : State) (h : Hoist) (l : Latched) (k : FaultKind) : Agrees s (s.overrunTaken h l) k :=
  ⟨⟨(s.entries[k.ix]'k.ix.2).present, rfl⟩, rfl, rfl, rfl, rfl, rfl, rfl⟩

/-- The step of an overrun, from what its occurrence makes of the machine. -/
theorem Overrunning.next (g : Overrunning s h l) (fresh : (s.ctxs[h]'h.2).overrunRaised = false) (u : State)
    (reports : List FaultReport) (follow : List Follow)
    (e : (s.overrunTaken h l).occurrence .dwellOverrun (some h) = u) (left : u.agenda = ⟨reports, follow⟩)
    (quiet : quietReports u.entries reports) (rests : ∀ y ∈ follow, y.resting u)
    (short : reports.length + follow.length ≤ 150) : ∃ link,
    exec (.dwellOverrun h) s = .next
      { u with entries := keepReports u.entries reports, link := link, agenda := Agenda.empty } ∧
      Sent u.link [] link := by
  obtain ⟨link, finished, sent⟩ := finish_report (s.putSite h (s.overrunSite h l)) u [] (.occur .dwellOverrun (some h))
    []
    reports [] follow rfl trivial e left quiet rests (by simpa using short)
  refine ⟨link, congrArg Host.Outcome.next ((whileRunning_of_ready s _ g.live).trans ?_), sent⟩
  rw [g.raises fresh]
  exact finished

/-- An overrun whose occurrence reaches no dip context, or holds the one that is held. -/
theorem dwellOverrun_counts (g : Overrunning s h l) (fresh : (s.ctxs[h]'h.2).overrunRaised = false)
    (installed : s.installed h = true) (spared : s.reachesNone .dwellOverrun h ∨ s.reactionOf .dwellOverrun = .hold) :
    ∃ t, exec (.dwellOverrun h) s = .next t ∧
      t = { s with ctxs := s.ctxs.set h ((s.ctxs[h]'h.2).overrun l), entries := t.entries, beaconT := t.beaconT,
                   link := t.link } ∧
      Occurred s t .dwellOverrun h := by
  have agrees := overrunTaken_agrees s h l .dwellOverrun
  have installed' : (s.overrunTaken h l).installed h = true := (agrees.installed h).trans installed
  have taken : (s.overrunTaken h l).occurrence .dwellOverrun (some h) =
      (s.overrunTaken h l).struck .dwellOverrun (some h) := by
    by_cases none_reached : s.reachesNone .dwellOverrun h
    · exact occurrence_spares _ _ h installed' (agrees.reachesNone h none_reached)
    · have hold := spared.resolve_left none_reached
      have applies : s.applies .dwellOverrun h := by
        by_contra n
        exact none_reached (.inl n)
      rw [occurrence_reacts _ _ h (by decide) installed' (agrees.applies h applies) (by
        rw [agrees.reaction, hold]; decide), agrees.reaction, hold]
      refine if_pos (.inr ?_)
      exact (congrArg DipCtx.state (putSite_ctx s h _)).trans g.held
  obtain ⟨link, step, sent⟩ := g.next fresh _ [] [] taken rfl trivial (fun _ hy => nomatch hy) (Nat.zero_le 150)
  have idle : s.agenda = Agenda.empty := g.live.2
  refine ⟨_, step, ?_, agrees.occurred h (by decide) installed _ _ [] rfl rfl rfl rfl rfl rfl rfl rfl sent⟩
  rw [← idle]
  unfold State.struck State.overrunTaken State.putSite State.overrunSite State.ctxOnly State.site
  simp only [hoist_set_get]

/-- The states from which an overrun is watched have a load in the zinc. -/
theorem Overrunning.loaded (g : Overrunning s h l) : ∃ st, (s.ctxs[h]'h.2).heldFrom = some st ∧
    (st = .lowering ∨ st = .dwell ∨ st = .lifting) ∧ (st ≠ .lowering ∨ (s.ctxs[h]'h.2).contact = true) := by
  rcases g.watched with e | e | ⟨e, contact⟩
  · exact ⟨.dwell, e, .inr (.inl rfl), .inl (by decide)⟩
  · exact ⟨.lifting, e, .inr (.inr rfl), .inl (by decide)⟩
  · exact ⟨.lowering, e, .inl rfl, .inr contact⟩

/-- A held dip context whose overrun has turned its order onto the abort path (R43, R45). -/
def DipCtx.overrunAborted (c : DipCtx) (l : Latched) : DipCtx :=
  { (c.overrun l).turned .fault with heldFrom := some .abortLift, dwellT := none }

theorem holdFailed_held (s : State) (h : Hoist) (held : (s.ctxs[h]'h.2).state = .held) : s.holdFailed h = s := by
  unfold State.holdFailed State.enterHeld
  split
  · exact if_pos (.inr held)
  · rfl

theorem orderOf_same (s t : State) (h : Hoist) (order : (t.ctxs[h]'h.2).order = (s.ctxs[h]'h.2).order)
    (orders : t.orders = s.orders) :
    t.orderOf h = s.orderOf h := by
  unfold State.orderOf
  rw [order, orders]

/-- What the ABORT of an overrun makes of the machine in which it is taken. -/
theorem Overrunning.aborts (g : Overrunning s h l) (o : Order) (r : OrderRef) (applies : s.applies .dwellOverrun h)
    (installed : s.installed h = true) (abort : s.reactionOf .dwellOverrun = .abort) (own : s.orderOf h = some o)
    (ordered : (s.ctxs[h]'h.2).order = some r) (open_ : o.closePending = false) (v : State)
    (hv : v = (s.overrunTaken h l).struck .dwellOverrun (some h)) : ∃ full m,
    (s.overrunTaken h l).occurrence .dwellOverrun (some h) = (v.turnedFor h r full).putSite h
      ((v.turnedFor h r full).ctxSite (v.turnedSite (v.site h) .fault m) h ((s.ctxs[h]'h.2).overrunAborted l)) ∧
    ∀ c : NoticeClass, c ≠ .book → m[c.ix]'c.ix.2 = v.link.marks[c.ix]'c.ix.2 := by
  have agrees := overrunTaken_agrees s h l .dwellOverrun
  have ctx : v.ctxs[h]'h.2 = (s.ctxs[h]'h.2).overrun l := by rw [hv]; exact putSite_ctx s h _
  obtain ⟨st, from_, loaded, touched⟩ := g.loaded
  have effective : ((s.ctxs[h]'h.2).overrun l).effective = st := effective_of_held (s.ctxs[h]'h.2) st g.held from_
  have reacts := occurrence_reacts (s.overrunTaken h l) .dwellOverrun h (by decide)
    ((agrees.installed h).trans installed)
    (agrees.applies h applies) (by rw [agrees.reaction, abort]; decide)
  rw [agrees.reaction, abort, ← hv] at reacts
  obtain ⟨full, m, turned, marks⟩ := turnAborted_marked v h .fault r (by rw [ctx]; exact ordered)
  refine ⟨full, m, reacts.trans ?_, marks⟩
  have held : (v.ctxs[h]'h.2).state = .held := by rw [ctx]; exact g.held
  have own' : v.orderOf h = some o := (orderOf_same s v h (by rw [ctx]; rfl) (by rw [hv]; rfl)).trans own
  show (v.holdFailed h).abort h .fault = _
  have turned_ctx : (v.turnedSite (v.site h) .fault m).ctx = ((s.ctxs[h]'h.2).overrun l).turned .fault :=
    congrArg (DipCtx.turned · .fault) ctx
  rw [holdFailed_held v h held, abort_turns v h o r .fault (by rw [ctx]; exact ordered) own' open_, turned,
    abortBy_heldLoaded _ h _ (by rw [putSite_ctx, turned_ctx]; exact g.held) st
      (by rw [putSite_ctx, turned_ctx]; exact effective)
      loaded, putSite_ctx, putSite_putCtx_site, turned_ctx, leaveLowering_stays _ (by
        rcases touched with n | contact
        · exact .inl (fun e => n (effective.symm.trans e))
        · exact .inr contact)]
  rfl

/-- An overrun whose ABORT turns its order onto the abort path and leaves it HELD from ABORT_LIFT. -/
theorem dwellOverrun_aborts (g : Overrunning s h l) (fresh : (s.ctxs[h]'h.2).overrunRaised = false)
    (installed : s.installed h = true) (o : Order) (applies : s.applies .dwellOverrun h)
    (abort : s.reactionOf .dwellOverrun = .abort) (none_waits : s.noneQueued) (own : s.orderOf h = some o)
    (level : (s.inputs[h]'h.2).aligned = true ∨
      (s.entries[FaultKind.alignLost.ix]'FaultKind.alignLost.ix.2).present[h]'h.2 = true)
    (open_ : o.closePending = false) : ∃ t, exec (.dwellOverrun h) s = .next t ∧
      t = { s with ctxs := t.ctxs, orders := t.orders, reserved := s.reserved - (s.ctxs[h]'h.2).resv,
                   nearlyFull := t.nearlyFull, drives := t.drives, mail := t.mail, entries := t.entries,
                   beaconT := t.beaconT, link := t.link } ∧
      t.ctxs = s.ctxs.set h { (s.ctxs[h]'h.2).overrunAborted l with starved := false } ∧
      t.orders = closingAt o.slot s.orders ∧ Occurred s t .dwellOverrun h ∧ ∀ i : Hoist, i ≠ h →
      t.drives[i]'i.2 = s.drives[i]'i.2 := by
  have agrees := overrunTaken_agrees s h l .dwellOverrun
  obtain ⟨_, r, ordered, slot⟩ := orderOf_slot s h o own
  obtain ⟨full, m, taken, marks⟩ := g.aborts o r applies installed abort own ordered open_ _ rfl
  generalize hv : (s.overrunTaken h l).struck .dwellOverrun (some h) = v at taken marks
  generalize hx : (v.turnedFor h r full).ctxSite (v.turnedSite (v.site h) .fault m) h
    ((s.ctxs[h]'h.2).overrunAborted l) = x at taken
  have ctx : v.ctxs[h]'h.2 = (s.ctxs[h]'h.2).overrun l := by rw [← hv]; exact putSite_ctx s h _
  have idle : (v.site h).agenda = Agenda.empty := by rw [← hv]; rfl
  have held : ((s.ctxs[h]'h.2).overrunAborted l).state = .held := g.held
  have calm := turnedSite_calm v (v.site h) .fault m r.slot (v.ctxs[h]'h.2).resv full
    (by rw [← hv]; exact none_waits) idle
  have reports : x.agenda.reports =
      (v.turnedFor h r full).conds h ((s.ctxs[h]'h.2).overrunAborted l) (v.turnedSite (v.site h) .fault m).drive := by
    rw [← hx]
    unfold State.ctxSite State.turnedSite
    rw [idle]
    rfl
  have follow : x.agenda.follow = (v.turnedSite (v.site h) .fault m).agenda.follow := by rw [← hx]; rfl
  have known : (v.inputs[h]'h.2).aligned = true ∨
    (v.entries[FaultKind.alignLost.ix]'FaultKind.alignLost.ix.2).present[h]'h.2 = true := by
    rw [← hv]
    refine level.imp id fun there => ?_
    rw [struck_other _ .dwellOverrun .alignLost _ (by decide)]
    exact there
  have quiet : quietReports v.entries x.agenda.reports := by
    rw [reports]
    refine ⟨fun present => ?_, fun present => ?_, trivial⟩
    · rcases known with aligned | there
      · have lost : ((v.turnedFor h r full).holds h && !(v.inputs[h]'h.2).aligned &&
            ((s.ctxs[h]'h.2).overrunAborted l).standsIn.any DipState.needsAligned) = true := present
        rw [aligned] at lost
        simp at lost
      · exact there
    · rw [held] at present
      have none_there : (((v.turnedFor h r full).installed h && !((v.turnedFor h r full).inputs[h]'h.2).areaClear) &&
        false) = true :=
        present
      simp at none_there
  obtain ⟨link, step, sent⟩ := g.next fresh _ x.agenda.reports x.agenda.follow taken rfl quiet (fun y hy => by
      rw [follow] at hy
      obtain ⟨i, rfl, none_there⟩ := calm.takes y hy
      exact .inl none_there)
    (by rw [reports, conds_length, follow]; have few := calm.few; omega)
  have starved : x.ctx = { (s.ctxs[h]'h.2).overrunAborted l with starved := false } := by
    have still : (((s.ctxs[h]'h.2).overrunAborted l).starved && ((s.ctxs[h]'h.2).overrunAborted l).state.moving) =
      false := by
      rw [held]; exact Bool.and_false _
    rw [← hx]
    exact congrArg (fun b => { (s.ctxs[h]'h.2).overrunAborted l with starved := b }) still
  refine ⟨_, step, ?_, ?_, ?_, agrees.occurred h (by decide)
    installed _ _ x.agenda.reports ?_ ?_ ?_ ?_ ?_ ?_ rfl rfl sent,
    fun i ne => ?_⟩
  · have resv : (v.ctxs[h]'h.2).resv = (s.ctxs[h]'h.2).resv := by rw [ctx]; rfl
    have empty : s.agenda = Agenda.empty := g.live.2
    rw [← empty, ← resv, ← hv]
    rfl
  · show v.ctxs.set h x.ctx = _
    rw [starved, ← hv]
    unfold State.struck State.overrunTaken State.putSite
    simp only [Vector.set_set]
  · show closingAt r.slot v.orders = _
    rw [slot, ← hv]
    rfl
  · rw [reports]
    exact conds_ofHoist _ h _ _
  · rw [hv]; rfl
  · rw [hv]; rfl
  · rw [hv]
    show x.marks[NoticeClass.fault.ix]'NoticeClass.fault.ix.2 = _
    rw [← hx]
    unfold State.ctxSite
    rw [hoistMarks_other _ _ _ _ _ (by decide)]
    exact marks .fault (by decide)
  · rw [← hv]; rfl
  · rw [← hv]; rfl
  · rw [← hv]
    exact (hoist_set_ne _ h i _ ne).trans (hoist_set_ne _ h i _ ne)

end

/-- Settles O46: the fault is raised once, and its occurrence counts, holds or aborts. -/
theorem dwellOverrunRaised : Obligations.DwellOverrunRaised := by
  unfold Obligations.DwellOverrunRaised
  refine fun s h l live held latched watched => ⟨fun raised => ?_, fun c fresh installed on => ⟨fun spared => ?_,
    fun o applies abort none_waits own level open_ => ?_⟩⟩
  · exact dwellOverrun_again ⟨live, held, latched, watched⟩ raised
  · subst on
    exact dwellOverrun_counts ⟨live, held, latched, watched⟩ fresh installed spared
  · subst on
    exact dwellOverrun_aborts ⟨live, held, latched, watched⟩ fresh installed o applies abort none_waits own level open_

end Sys2Proof.Machine
end

section
/-! The alarm timer and the beacon timer at zero, and the loss of DRIVE_POWER that holds every dip context (R41, R176, R177,
R180, R185). -/

namespace Sys2Proof.Machine

set_option Elab.async false

/-! ### The alarm timer (R180) -/

theorem involved_one (v : Vector Bool 4) (h : Hoist) (one : ∀ i : Fin 4, v[i]'i.2 = decide (i = h)) :
    v = (Vector.replicate 4 false).set h true := by
  refine Vector.ext fun i hi => ?_
  have here := one ⟨i, hi⟩
  have there := involved_of_one h ⟨i, hi⟩
  refine here.trans (Eq.trans ?_ there.symm)
  simp only [Option.some.injEq]
  exact decide_eq_decide.2 eq_comm

/-- The machine with an alarm timer run out, before the reaction reaches a dip context. -/
def State.alarmed (s : State) (k : FaultKind) : State :=
  { s with entries := s.entries.set k.ix { s.entries[k.ix]'k.ix.2 with state := .active, alarmT := none },
           link := { s.link with marks := noted s.kept.notices (s.reactionOf k).notifies .fault s.link.marks } }

theorem alarmed_entry (s : State) (k : FaultKind) :
    (s.alarmed k).entries[k.ix]'k.ix.2 = { s.entries[k.ix]'k.ix.2 with state := .active, alarmT := none } :=
  Vector.getElem_set_self k.ix.isLt

theorem alarmExpires_eq (s : State) (k : FaultKind) : s.alarmExpires k =
    if s.reactionOf k = .stopAll then hoists.foldl State.enterHeld (s.alarmed k)
    else (members (s.entries[k.ix]'k.ix.2).involved).foldl (State.react (s.reactionOf k)) (s.alarmed k) := by
  unfold State.alarmExpires State.applyReaction
  dsimp only
  rw [markIf_eq]
  rfl

/-- What the alarm timer of a kind does at zero. -/
def State.alarmEnds (k : FaultKind) (s : State) : State :=
  if (s.entries[k.ix]'k.ix.2).state = .alarm then s.alarmExpires k else s

theorem exec_alarmTimerExpiry (s : State) (k : FaultKind) :
    exec (.alarmTimerExpiry k.ix) s = .next (s.whileRunning (State.alarmEnds k)) := by
  have same : FaultKind.ofIx k.ix = k := FaultKind.ofIx_ix k
  show Host.Outcome.next (s.whileRunning (State.alarmEnds (FaultKind.ofIx k.ix))) = _
  rw [same]

/-- A step that answers nothing and leaves nothing to do. -/
theorem whileRunning_idle (s u : State) (f : State → State) (live : s.ready) (e : f s = u)
    (idle : u.agenda = Agenda.empty) :
    ∃ link, (.next (s.whileRunning f) : Effect) = .next { u with link := link } ∧ Sent u.link [] link := by
  obtain ⟨link, finished, sent⟩ := finish_quiet u [] [] [] idle trivial (fun _ hy => nomatch hy) (Nat.zero_le 200)
  rw [owing_nil] at finished
  refine ⟨link, congrArg Host.Outcome.next ((whileRunning_of_ready s f live).trans ?_), sent⟩
  rw [e, finished, ← idle]
  rfl

theorem alarm_marks (s : State) (k : FaultKind) (live : s.ready) (alarm : (s.entries[k.ix]'k.ix.2).state = .alarm)
    (low : (s.reactionOf k).code ≤ 2) : ∃ t, exec (.alarmTimerExpiry k.ix) s = .next t ∧
      t = { s with entries := t.entries, link := t.link } ∧
      t.entries[k.ix]'k.ix.2 = { s.entries[k.ix]'k.ix.2 with state := .active, alarmT := none } ∧
      ∀ j : FaultKind, j ≠ k → t.entries[j.ix]'j.ix.2 = s.entries[j.ix]'j.ix.2 := by
  have below : s.reactionOf k ≠ .stopAll := by
    intro e
    rw [e] at low
    exact absurd low (by decide)
  obtain ⟨link, step, _⟩ := whileRunning_idle s (s.alarmed k) (State.alarmEnds k) live ((if_pos alarm).trans (by
    rw [alarmExpires_eq, if_neg below, react_none _ low])) live.2
  refine ⟨_, (exec_alarmTimerExpiry s k).trans step, rfl, alarmed_entry s k, fun j other => ?_⟩
  refine Vector.getElem_set_ne k.ix.isLt j.ix.isLt fun e => other ?_
  rw [← FaultKind.ofIx_ix j, ← FaultKind.ofIx_ix k]
  exact congrArg FaultKind.ofIx (Fin.ext e.symm)

theorem alarm_holds (s : State) (k : FaultKind) (h : Hoist) (live : s.ready)
    (alarm : (s.entries[k.ix]'k.ix.2).state = .alarm)
    (hold : s.reactionOf k = .hold) (one : ∀ i : Fin 4, (s.entries[k.ix]'k.ix.2).involved[i]'i.2 = decide (i = h))
    (busy : (s.ctxs[h]'h.2).state ≠ .parked) (free : (s.ctxs[h]'h.2).state ≠ .held) (station : s.stationClear h)
    (i : (s.ctxs[h]'h.2).inLimit) : ∃ t, exec (.alarmTimerExpiry k.ix) s = .next t ∧
    (t.entries[k.ix]'k.ix.2).state = .active ∧
      (t.ctxs[h]'h.2).state = .held ∧ (t.ctxs[h]'h.2).heldFrom = some (s.ctxs[h]'h.2).state ∧
      (t.drives[h]'h.2).motion = none ∧
      t.kept = s.kept ∧ t.orders = s.orders ∧
      ∀ i : Hoist, i ≠ h → t.ctxs[i]'i.2 = s.ctxs[i]'i.2 ∧ t.drives[i]'i.2 = s.drives[i]'i.2 := by
  have expires : s.alarmExpires k = State.putSite { s.alarmed k with wu := s.wu.without h } h
      ((s.alarmed k).heldSite h ((s.alarmed k).site h)) := by
    rw [alarmExpires_eq, hold, if_neg (by decide), involved_one _ h one, members_of_one]
    exact enterHeld_eq (s.alarmed k) h busy free i
  have quiet := heldSite_quiet (s.alarmed k) { s.alarmed k with wu := s.wu.without h } h ((s.alarmed k).site h)
    station live.2
  obtain ⟨link, step, _⟩ := whileRunning_site s { s.alarmed k with wu := s.wu.without h } h _ (State.alarmEnds k) live
    ((if_pos alarm).trans expires) live.2 quiet
  refine ⟨_, (exec_alarmTimerExpiry s k).trans step, ?_, ?_, ?_, ?_, rfl, rfl,
    finished_others { s.alarmed k with wu := s.wu.without h } h _ link⟩
  · obtain ⟨present, e⟩ := keepReports_present (s.alarmed k).entries
      ((s.alarmed k).heldSite h ((s.alarmed k).site h)).agenda.reports k.ix (by
        have idle : ((s.alarmed k).site h).agenda = Agenda.empty := live.2
        unfold State.heldSite
        rw [idle]
        simp only [Agenda.empty, List.nil_append, List.all_append, haltConds_ofHoist, conds_ofHoist, Bool.and_self])
    refine (congrArg FaultEntry.state e).trans ?_
    rw [alarmed_entry]
  all_goals simp only [finished_ctx, finished_drive, State.heldSite, DipCtx.holding, DriveIf.permitted, halted_motion]
  rfl

/-- Settles O54: the alarm timer makes the entry ACTIVE and applies its reaction; the beacon timer stops at zero. -/
theorem alarmAndBeaconTimersEnd : Obligations.AlarmAndBeaconTimersEnd := by
  unfold Obligations.AlarmAndBeaconTimersEnd
  refine fun s live => ⟨fun k alarm low => alarm_marks s k live alarm low,
    fun k h alarm hold one busy free station i => alarm_holds s k h live alarm hold one busy free station i,
    fun zero => ?_, fun away => ?_⟩
  · obtain ⟨link, step, _⟩ := whileRunning_idle s { s with beaconT := none }
      (fun s => if s.beaconT = some 0 then { s with beaconT := none } else s) live (if_pos zero) live.2
    exact ⟨_, step, rfl⟩
  · obtain ⟨link, step, _⟩ := whileRunning_idle s s
      (fun s => if s.beaconT = some 0 then { s with beaconT := none } else s) live (if_neg away) live.2
    exact ⟨_, step, rfl⟩

/-! ### Every dip context held (R41, R177) -/

theorem mem_hoists (h : Hoist) : h ∈ hoists := by
  revert h
  decide

/-- From `t` to `u` the dip contexts of the hoists listed have been put into HELD where they run. -/
structure HeldAll (t u : State) (l : List Hoist) : Prop where
  state : ∀ h ∈ l, (u.ctxs[h]'h.2).state = if (t.ctxs[h]'h.2).state = .parked then .parked else .held
  from_ : ∀ h ∈ l, (t.ctxs[h]'h.2).state ≠ .parked → (t.ctxs[h]'h.2).state ≠ .held →
    (u.ctxs[h]'h.2).heldFrom = some (t.ctxs[h]'h.2).state ∧ (u.drives[h]'h.2).motion = none
  count : ∀ h : Hoist, (u.drives[h]'h.2).count = (t.drives[h]'h.2).count
  others : ∀ h : Hoist, h ∉ l → u.ctxs[h]'h.2 = t.ctxs[h]'h.2 ∧ u.drives[h]'h.2 = t.drives[h]'h.2
  inputs : u.inputs = t.inputs
  power : u.drivePower = t.drivePower
  entries : u.entries = t.entries
  link : u.link = { t.link with marks := u.link.marks }
  marks : ∀ c : NoticeClass, c ≠ .hoist → u.link.marks[c.ix]'c.ix.2 = t.link.marks[c.ix]'c.ix.2
  agenda : ∃ more, u.agenda = ⟨t.agenda.reports ++ more, t.agenda.follow⟩ ∧ more.all FaultReport.absent = true ∧
    more.all FaultReport.ofHoist = true ∧ more.length ≤ 4 * l.length

theorem HeldAll.refl (t : State) : HeldAll t t [] :=
  ⟨(fun _ n => nomatch n), (fun _ n => nomatch n), fun _ => rfl, fun _ _ => ⟨rfl, rfl⟩, rfl, rfl, rfl, rfl,
    fun _ _ => rfl,
    ⟨[], by rw [List.append_nil], rfl, rfl, Nat.zero_le _⟩⟩

theorem enterHeld_heldAll (t : State) (h : Hoist) (station : t.stationClear h) (i : (t.ctxs[h]'h.2).inLimit) :
    HeldAll t (t.enterHeld h) [h] := by
  by_cases stays : (t.ctxs[h]'h.2).state = .parked ∨ (t.ctxs[h]'h.2).state = .held
  · have same : t.enterHeld h = t := if_pos stays
    rw [same]
    refine ⟨fun j hj => ?_, fun j hj busy free => ?_, fun _ => rfl, fun _ _ => ⟨rfl, rfl⟩, rfl, rfl, rfl, rfl,
      fun _ _ => rfl,
      ⟨[], by rw [List.append_nil], rfl, rfl, Nat.zero_le _⟩⟩
    · rw [List.mem_singleton.1 hj]
      rcases stays with e | e <;> rw [e] <;> rfl
    · rw [List.mem_singleton.1 hj] at busy free
      rcases stays with e | e
      · exact absurd e busy
      · exact absurd e free
  · obtain ⟨busy, free⟩ := not_or.1 stays
    rw [enterHeld_eq t h busy free i]
    have two := haltConds_length t h (t.ctxs[h]'h.2) (t.drives[h]'h.2)
    refine ⟨fun j hj => ?_, fun j hj _ _ => ?_, fun j => ?_, fun j hj => ?_, rfl, rfl, rfl, rfl, fun c other => ?_,
      ⟨t.haltConds h (t.ctxs[h]'h.2) (t.drives[h]'h.2) ++ t.conds h (t.ctxs[h]'h.2).holding (t.drives[h]'h.2).halted,
        ?_, ?_, ?_, ?_⟩⟩
    · rw [List.mem_singleton.1 hj, if_neg busy, putSite_ctx]
      rfl
    · rw [List.mem_singleton.1 hj, putSite_ctx, putSite_drive]
      exact ⟨rfl, halted_motion _⟩
    · by_cases e : j = h
      · subst e
        rw [putSite_drive]
        exact halted_count (t.drives[j]'j.2)
      · exact congrArg DriveIf.count (hoist_set_ne _ h j _ e)
    · have e : j ≠ h := fun e => hj (List.mem_singleton.2 e)
      exact ⟨hoist_set_ne _ h j _ e, hoist_set_ne _ h j _ e⟩
    · exact hoistMarks_other t _ _ _ c other
    · rw [putSite_agenda]
      unfold State.heldSite
      rw [List.append_assoc]
      rfl
    · rw [List.all_append, haltConds_absent t h _ _ (unwatched_of_clear t h _ station),
        conds_absent t h _ _ (unwatched_of_clear t h _ station)]
      rfl
    · rw [List.all_append, haltConds_ofHoist, conds_ofHoist]
      rfl
    · rw [List.length_append, conds_length, List.length_cons, List.length_nil]
      omega

theorem HeldAll.cons {t u v : State} {h : Hoist} {l : List Hoist} (one : HeldAll t u [h]) (rest : HeldAll u v l)
    (fresh : h ∉ l) : HeldAll t v (h :: l) := by
  have apart : ∀ j ∈ l, u.ctxs[j]'j.2 = t.ctxs[j]'j.2 ∧ u.drives[j]'j.2 = t.drives[j]'j.2 := fun j hj =>
    one.others j fun n => fresh (List.mem_singleton.1 n ▸ hj)
  refine ⟨fun j hj => ?_, fun j hj busy free => ?_, fun j => (rest.count j).trans (one.count j), fun j hj => ?_,
    rest.inputs.trans one.inputs, rest.power.trans one.power, rest.entries.trans one.entries, ?_,
    fun c other => (rest.marks c other).trans (one.marks c other), ?_⟩
  · rcases List.mem_cons.1 hj with e | hj
    · subst e
      rw [(rest.others j fresh).1]
      exact one.state j (List.mem_singleton.2 rfl)
    · rw [← (apart j hj).1]
      exact rest.state j hj
  · rcases List.mem_cons.1 hj with e | hj
    · subst e
      rw [(rest.others j fresh).1, (rest.others j fresh).2]
      exact one.from_ j (List.mem_singleton.2 rfl) busy free
    · rw [← (apart j hj).1] at busy free ⊢
      exact rest.from_ j hj busy free
  · obtain ⟨away, later⟩ := not_or.1 fun n => hj (List.mem_cons.2 n)
    obtain ⟨ctx, drive⟩ := rest.others j later
    obtain ⟨ctx', drive'⟩ := one.others j fun n => away (List.mem_singleton.1 n)
    exact ⟨ctx.trans ctx', drive.trans drive'⟩
  · have mid := rest.link
    rw [one.link] at mid
    exact mid
  · obtain ⟨more, agenda, absent, own, few⟩ := one.agenda
    obtain ⟨more', agenda', absent', own', few'⟩ := rest.agenda
    refine ⟨more ++ more', ?_, ?_, ?_, ?_⟩
    · rw [agenda', agenda, List.append_assoc]
    · rw [List.all_append, absent, absent']; rfl
    · rw [List.all_append, own, own']; rfl
    · simp only [List.length_append, List.length_cons, List.length_nil] at few ⊢
      omega

theorem foldl_enterHeld (l : List Hoist) (fresh : l.Nodup) (t : State) (station : ∀ h : Hoist, t.stationClear h)
    (inLimit : ∀ h : Hoist, h ∈ l → (t.ctxs[h]'h.2).inLimit) : HeldAll t (l.foldl State.enterHeld t) l := by
  induction l generalizing t with
  | nil => exact .refl t
  | cons h l ih =>
    obtain ⟨alone, rest⟩ := List.nodup_cons.1 fresh
    have one := enterHeld_heldAll t h (station h) (inLimit h (List.mem_cons_self ..))
    refine one.cons (ih rest (t.enterHeld h) (fun j => ?_) fun j hj => ?_) alone
    · have same := one.inputs
      unfold State.stationClear at station ⊢
      rw [same]
      exact station j
    · have away : j ≠ h := fun e => alone (e ▸ hj)
      rw [(one.others j fun n => away (List.mem_singleton.1 n)).1]
      exact inLimit j (List.mem_cons_of_mem _ hj)

/-! ### The loss of DRIVE_POWER (R176, R177, R179) -/

/-- The machine after a change of DRIVE_POWER, its latch and its mark set, before its report is taken (R198). -/
def State.powered (s : State) (level : Bool) : State :=
  { s with drivePower := level,
           link := { s.link with powerLatch := true,
                                 marks := noted s.kept.notices (!s.link.powerLatch) .input s.link.marks } }

theorem drivePowerChange_reports (s : State) (level : Bool) (changed : s.drivePower ≠ level) :
    (if s.drivePower = level then s
    else
      let fresh := !s.link.powerLatch
      let s := { s with drivePower := level }.modLink fun l => { l with powerLatch := true }
      (s.markIf fresh .input).report (.cond .drivePowerLoss none !level)) =
      (s.powered level).report (.cond .drivePowerLoss none !level) := by
  rw [if_neg changed]
  dsimp only
  rw [markIf_eq]
  rfl

/-- The machine in which the loss of DRIVE_POWER is taken, its value kept. -/
def State.unpowered (s : State) : State :=
  { s.powered false with
    entries := s.entries.set FaultKind.drivePowerLoss.ix
      ((s.entries[FaultKind.drivePowerLoss.ix]'FaultKind.drivePowerLoss.ix.2).keepValue none true) }

theorem unpowered_entry (s : State) : s.unpowered.entries[FaultKind.drivePowerLoss.ix]'FaultKind.drivePowerLoss.ix.2 =
    { s.entries[FaultKind.drivePowerLoss.ix]'FaultKind.drivePowerLoss.ix.2 with presentLine := true } :=
    Vector.getElem_set_self (by decide)

theorem installed_set (s : State) (h : Hoist) :
    ((Vector.replicate 4 false).mapIdx fun i _ => decide (i ≤ s.link.straps.hoists.val))[h]'h.2 = s.installed h := by
  unfold State.installed
  simp only [Fin.getElem_fin, Vector.getElem_mapIdx]

/-- Settles O55: the loss is an occurrence whose STOP_ALL holds the dip contexts one after the other. -/
theorem drivePowerLossHoldsAll : Obligations.DrivePowerLossHoldsAll := by
  unfold Obligations.DrivePowerLossHoldsAll
  intro s live power clear unreported stop at_once station inLimit
  have changed : s.drivePower ≠ false := by rw [power]; decide
  have clear' : (s.unpowered.entries[FaultKind.drivePowerLoss.ix]'FaultKind.drivePowerLoss.ix.2).state = .clear :=
    by rw [unpowered_entry]; exact clear
  have held := foldl_enterHeld hoists (by decide) (s.unpowered.struck .drivePowerLoss none) station fun h _ => inLimit h
  have taken : State.takeReport (s.powered false) (.cond .drivePowerLoss none true) =
      hoists.foldl State.enterHeld (s.unpowered.struck .drivePowerLoss none) := by
    have fresh : (true && !(s.entries[FaultKind.drivePowerLoss.ix]'FaultKind.drivePowerLoss.ix.2).reported none &&
      FaultKind.drivePowerLoss != .driveFault) =
        true := by
      have before : (s.entries[FaultKind.drivePowerLoss.ix]'FaultKind.drivePowerLoss.ix.2).reported none = false :=
        unreported
      rw [before]; rfl
    refine (if_pos fresh).trans ?_
    exact (occurrence_latches s.unpowered .drivePowerLoss none clear' at_once).trans (if_pos stop)
  generalize hoists.foldl State.enterHeld (s.unpowered.struck .drivePowerLoss none) = u at held taken
  obtain ⟨more, agenda, absent, own, few⟩ := held.agenda
  have idle : (s.unpowered.struck .drivePowerLoss none).agenda = Agenda.empty := live.2
  rw [idle] at agenda
  have few' : more.length ≤ 16 := few
  obtain ⟨link, finished, sent⟩ :=
    finish_report ((s.powered false).report (.cond .drivePowerLoss none true)) u [] _ [] more []
    [] (by
      have start : (s.powered false).agenda = Agenda.empty := live.2
      simp only [State.report, start]
      rfl) trivial (by
      refine Eq.trans ?_ taken
      have start : s.agenda = Agenda.empty := live.2
      unfold State.report State.powered
      rw [start]
      rfl) agenda (quietReports_of_absent _ _ absent) (fun _ hy => nomatch hy) (by
      simp only [List.length_nil]
      omega)
  have entry : ∃ present, (keepReports u.entries more)[FaultKind.drivePowerLoss.ix]'FaultKind.drivePowerLoss.ix.2 =
      { s.unpowered.latchedEntry .drivePowerLoss none with present := present } := by
    obtain ⟨present, e⟩ := keepReports_present u.entries more FaultKind.drivePowerLoss.ix own
    refine ⟨present, e.trans ?_⟩
    rw [held.entries, struck_entry, struckEntry_clear _ _ _ clear']
  obtain ⟨present, entry⟩ := entry
  refine ⟨_, congrArg Host.Outcome.next ((whileRunning_of_ready s _ live).trans
      ((congrArg (fun v : State => v.settle.transmit) (drivePowerChange_reports s false changed)).trans finished)),
    held.power, ?_, fun busy => ?_, ?_, fun h => ?_, fun h => ⟨held.state h (mem_hoists h), fun running free =>
      held.from_ h (mem_hoists h) running free, held.count h⟩⟩
  · refine sent.powerLatch.trans ?_
    rw [held.link]
    rfl
  · have sending : u.link.tx.isSome = true := by rw [held.link]; exact busy
    refine (sent.marks .input (.inl sending)).trans ((held.marks .input (by decide)).trans ?_)
    unfold State.struck
    refine (noted_other _ _ _ _ _ (by decide)).trans ?_
    exact noted_same _ _ _ _
  · refine (congrArg FaultEntry.state entry).trans ?_
    exact if_pos at_once
  · refine (congrArg (fun e : FaultEntry => e.involved[h]'h.2) entry).trans ?_
    exact installed_set s h

end Sys2Proof.Machine
end

section
/-! The station inputs and DRIVE_POWER: their levels and latches, what a change asks of the blocks, and the occurrences of
ALIGN_LOST and AREA_BREACH that a loss of ALIGNED or of AREA_CLEAR brings (R28, R37, R38, R140, R176, R198). -/

namespace Sys2Proof.Machine

set_option Elab.async false

/-! ### The change of a station input (R140, R198) -/

/-- What the blocks do with a change of a station input. -/
def InputLine.acts (line : InputLine) (h : Hoist) (level : Bool) (s : State) : State :=
  match line with
  | .ready =>
    if (s.drives[h]'h.2).running then
      if level then s.modDrive h fun d => { d with readyT := none } else s.loadReady h
    else s
  | .driveFault => (if level then s.driveFaulted h else s).report (.cond .driveFault (some h) level)
  | .top => if level then s.topPresent h else s
  | .aligned => (s.checkAligned h).reportConds h
  | .areaClear => s.reportConds h
  | .rehang => if level then s.rehangDone h else s

/-- The machine after a change of a station input, its latch and its mark set, before the blocks act. -/
def State.lined (s : State) (h : Hoist) (line : InputLine) (level : Bool) : State :=
  { s with inputs := s.inputs.set h (line.put (s.inputs[h]'h.2) level),
           link := { s.link with latches := s.link.latches.set h (line.put (s.link.latches[h]'h.2) true),
                                 marks := noted s.kept.notices (!line.of (s.link.latches[h]'h.2)) .input s.link.marks } }

/-- A level of a station input taken: one that is there already is no change (R140). -/
def InputLine.taken (line : InputLine) (h : Hoist) (level : Bool) (s : State) : State :=
  if line.of (s.inputs[h]'h.2) = level then s else line.acts h level (s.lined h line level)

theorem inputChange_eq (s : State) (h : Hoist) (line : InputLine) (level : Bool) (act : State → State) :
    s.inputChange h line level act =
      s.whileRunning fun s => if line.of (s.inputs[h]'h.2) = level then s else act (s.lined h line level) := by
  unfold State.inputChange
  simp only [markIf_eq]
  rfl

theorem exec_change (s : State) (h : Hoist) (line : InputLine) (level : Bool) :
    exec (line.change h level) s = .next (s.whileRunning (line.taken h level)) := by
  cases line <;> exact congrArg Host.Outcome.next (inputChange_eq s h _ level _)

/-- The step of an input's change. -/
theorem change_next (s : State) (h : Hoist) (line : InputLine) (level : Bool) (live : s.ready)
    (changes : line.of (s.inputs[h]'h.2) ≠ level) :
    exec (line.change h level) s = .next (line.acts h level (s.lined h line level)).settle.transmit := by
  refine (exec_change s h line level).trans (congrArg Host.Outcome.next ((whileRunning_of_ready s _ live).trans ?_))
  exact congrArg (fun v : State => v.settle.transmit) (if_neg changes)

theorem InputLine.of_put (line : InputLine) (i : StationInputs) (level : Bool) :
    line.of (line.put i level) = level := by
  cases line <;> rfl

theorem lined_inputs (s : State) (h : Hoist) (line : InputLine) (level : Bool) :
    (s.lined h line level).inputs[h]'h.2 = line.put (s.inputs[h]'h.2) level := hoist_set_same _ _ _

theorem lined_mark (s : State) (h : Hoist) (line : InputLine) (level : Bool) :
    (s.lined h line level).link.marks[NoticeClass.input.ix]'NoticeClass.input.ix.2 =
      (s.link.marks[NoticeClass.input.ix]'NoticeClass.input.ix.2 || (!line.of (s.link.latches[h]'h.2) &&
        s.kept.notices[NoticeClass.input.ix]'NoticeClass.input.ix.2)) :=
  noted_same _ _ _ _

/-! ### What every change keeps -/

theorem driveFaulted_steady (s : State) (h : Hoist) : Steady s (s.driveFaulted h) := by
  unfold State.driveFaulted
  split
  · exact (modDrive_steady _ _ _).trans (motionFails_steady _ _ _ _ _)
  · exact modDrive_steady _ _ _
  · exact .refl s

theorem topPresent_steady (s : State) (h : Hoist) : Steady s (s.topPresent h) := by
  unfold State.topPresent
  split
  · exact topRule_steady s h
  · exact .ite (modDrive_steady _ _ _) (.refl s)
  · exact .refl s

theorem acts_steady (line : InputLine) (h : Hoist) (level : Bool) (s : State) : Steady s (line.acts h level s) := by
  cases line with
  | ready => exact .ite (.ite (modDrive_steady _ _ _) (loadReady_steady _ _)) (.refl s)
  | driveFault => exact Steady.trans (.ite (driveFaulted_steady s h) (.refl s)) (report_steady _ _)
  | top => exact .ite (topPresent_steady s h) (.refl s)
  | aligned => exact (checkAligned_steady s h).trans (reportConds_steady _ h)
  | areaClear => exact reportConds_steady s h
  | rehang => exact .ite (rehangDone_steady s h) (.refl s)

/-- The end of a step of steady operations leaves the lines and their marks as the machine `w` had them. -/
theorem steady_ends (w u : State) (steady : Steady w u) : ∃ link, u.settle.transmit = { u.settle with link := link } ∧
    u.settle.inputs = w.inputs ∧ u.settle.drivePower = w.drivePower ∧ link.latches = w.link.latches ∧
    link.powerLatch = w.link.powerLatch ∧ ∃ l, l.marks[NoticeClass.input.ix]'NoticeClass.input.ix.2 =
    w.link.marks[NoticeClass.input.ix]'NoticeClass.input.ix.2 ∧
      l.tx = w.link.tx ∧ l.replies = w.link.replies ∧ Sent l [] link := by
  have whole := steady.trans (settle_steady u)
  obtain ⟨link, sent, link_sent⟩ := transmit_sent u.settle []
  rw [owing_nil] at sent
  exact ⟨link, sent, whole.lines.inputs, whole.lines.power, link_sent.latches.trans whole.lines.latches,
    link_sent.powerLatch.trans whole.lines.powerLatch, _, whole.lines.mark, whole.lines.tx, whole.replies, link_sent⟩

/-- Nobody at a station is concerned with its inputs: the drive is still, the dip context PARKED, and no zone is held. -/
structure Idle (s : State) (h : Hoist) : Prop where
  still : (s.drives[h]'h.2).motion = none
  burst : (s.drives[h]'h.2).burst = none
  parked : (s.ctxs[h]'h.2).state = .parked
  zoneless : ∀ z : Fin 12, s.holders[z]'z.2 ≠ some h

theorem holds_eq_true (s : State) (h : Hoist) : s.holds h = true ↔ ∃ z : Fin 12, s.holders[z]'z.2 = some h := by
  unfold State.holds
  rw [List.any_eq_true]
  exact ⟨fun ⟨z, _, held⟩ => ⟨z, eq_of_beq held⟩, fun ⟨z, held⟩ => ⟨z, List.mem_finRange z, beq_iff_eq.2 held⟩⟩

section
variable {s : State} {h : Hoist}

theorem Idle.conds (i : Idle s h) : (s.conds h (s.ctxs[h]'h.2) (s.drives[h]'h.2)).all FaultReport.absent = true := by
  have zoneless : s.holds h = false := by
    cases e : s.holds h with
    | false => rfl
    | true =>
      obtain ⟨z, held⟩ := (holds_eq_true s h).1 e
      exact absurd held (i.zoneless z)
  unfold State.conds
  rw [zoneless, i.parked]
  simp [FaultReport.absent, DipState.moving]

theorem Idle.reportConds (i : Idle s h) (idle : s.agenda = Agenda.empty) :
    ∃ reports, s.reportConds h = { s with agenda := ⟨reports, []⟩ } ∧ reports.all FaultReport.absent = true ∧
      reports.length ≤ 2 := by
  refine ⟨_, (reportConds_eq s h).trans ?_, i.conds, Nat.le_of_eq (conds_length s h _ _)⟩
  rw [idle]
  rfl

/-- At an idle station a change asks for no more than a report of the level of the drive's fault, or of conditions that
are absent. -/
theorem Idle.acts (i : Idle s h) (idle : s.agenda = Agenda.empty) (line : InputLine) (level : Bool) :
    ∃ reports, line.acts h level s = { s with agenda := ⟨reports, []⟩ } ∧
      (reports = [.cond .driveFault (some h) level] ∨ (reports.all FaultReport.absent = true ∧
        reports.length ≤ 2)) := by
  have same : s = { s with agenda := ⟨[], []⟩ } := by
    have e : Agenda.mk [] [] = s.agenda := idle.symm
    rw [e]
  have nothing : ∀ u : State, u = s → ∃ reports, u = { s with agenda := ⟨reports, []⟩ } ∧
      (reports = [.cond .driveFault (some h) level] ∨ (reports.all FaultReport.absent = true ∧ reports.length ≤ 2)) :=
    fun u e => ⟨[], e.trans same, .inr ⟨rfl, Nat.zero_le 2⟩⟩
  have conditions : ∃ reports, s.reportConds h = { s with agenda := ⟨reports, []⟩ } ∧
      (reports = [.cond .driveFault (some h) level] ∨ (reports.all FaultReport.absent = true ∧
        reports.length ≤ 2)) := by
    obtain ⟨reports, e, absent, short⟩ := i.reportConds idle
    exact ⟨reports, e, .inr ⟨absent, short⟩⟩
  cases line with
  | ready =>
    refine nothing _ (if_neg ?_)
    unfold DriveIf.running
    rw [i.still, i.burst]
    decide
  | driveFault =>
    have spared : (if level then s.driveFaulted h else s) = s := by
      unfold State.driveFaulted
      rw [i.still, i.burst]
      exact ite_self s
    refine ⟨_, ?_, .inl rfl⟩
    show State.report (if level then s.driveFaulted h else s) _ = _
    rw [spared]
    unfold State.report
    rw [idle]
    rfl
  | top =>
    refine nothing _ ?_
    show (if level then s.topPresent h else s) = s
    unfold State.topPresent
    rw [i.still, i.burst]
    exact ite_self s
  | aligned =>
    have stays : s.checkAligned h = s := if_neg fun ⟨aligning, _⟩ => by rw [i.parked] at aligning; cases aligning
    have e : InputLine.aligned.acts h level s = s.reportConds h := congrArg (fun u : State => u.reportConds h) stays
    rw [e]
    exact conditions
  | areaClear => exact conditions
  | rehang =>
    have stays : s.rehangDone h = s := if_neg (by
      rw [effective_of_not_held (s.ctxs[h]'h.2) (by rw [i.parked]; decide), i.parked]; decide)
    refine nothing _ ?_
    show (if level then s.rehangDone h else s) = s
    rw [stays]
    exact ite_self s

end

/-- The machine with the reported value of a condition kept (R176). -/
def State.valued (s : State) (k : FaultKind) (who : Option Hoist) (present : Bool) : State :=
  { s with entries := s.entries.set k.ix ((s.entries[k.ix]'k.ix.2).keepValue who present) }

/-- The value of DRIVE_FAULT is kept at each report and latches nothing (R176). -/
theorem takeReport_driveFault (s : State) (h : Hoist) (level : Bool) :
    s.takeReport (.cond .driveFault (some h) level) = s.valued .driveFault (some h) level := by
  refine if_neg ?_
  simp

/-- A condition newly present is an occurrence (R176). -/
theorem takeReport_raises (s : State) (k : FaultKind) (who : Option Hoist)
    (fresh : (s.entries[k.ix]'k.ix.2).reported who = false)
    (other : k ≠ .driveFault) : s.takeReport (.cond k who true) = (s.valued k who true).occurrence k who := by
  refine if_pos ?_
  rw [fresh, bne_iff_ne.2 other]
  rfl

/-- The end of a step at whose station nobody is concerned. -/
theorem idle_ends (w : State) (h : Hoist) (i : Idle w h) (idle : w.agenda = Agenda.empty) (line : InputLine)
    (level : Bool) :
    ∃ entries link, (line.acts h level w).settle.transmit = { w with entries := entries, link := link } := by
  obtain ⟨reports, e, what⟩ := i.acts idle line level
  rw [e]
  rcases what with fault | ⟨absent, short⟩
  · obtain ⟨link, finished, _⟩ := finish_report { w with agenda := ⟨reports, []⟩ }
      (State.valued { w with agenda := ⟨[], []⟩ } .driveFault (some h) level) [] (.cond .driveFault (some h) level)
        [] []
      [] [] (by rw [fault]; rfl) trivial (takeReport_driveFault _ h level) rfl trivial (fun _ hy => nomatch hy)
      (Nat.zero_le 150)
    refine ⟨(w.valued .driveFault (some h) level).entries, link, finished.trans ?_⟩
    rw [← idle]
    rfl
  · obtain ⟨link, finished, _⟩ := finish_quiet { w with agenda := ⟨reports, []⟩ } reports [] [] rfl
      (quietReports_of_absent _ _ absent) (fun _ hy => nomatch hy) (by rw [List.length_nil]; omega)
    rw [owing_nil] at finished
    refine ⟨keepReports w.entries reports, link, finished.trans ?_⟩
    rw [← idle]

/-- A level that is there already changes nothing (R140). -/
theorem unchanged_next (s : State) (f : State → State) (live : s.ready) (stays : f s = s) :
    ∃ t, (.next (s.whileRunning f) : Effect) = .next t ∧ t = { s with link := t.link } ∧
      t.link.latches = s.link.latches ∧ t.link.powerLatch = s.link.powerLatch ∧ (s.link.tx.isSome = true → t = s) := by
  obtain ⟨link, step, sent⟩ := whileRunning_idle s s f live stays live.2
  refine ⟨_, step, rfl, sent.latches, sent.powerLatch, fun busy => ?_⟩
  have same : link = s.link := by rw [sent.busy busy, List.append_nil]
  rw [same]

/-- A change of a station input (R140, R198). -/
theorem change_latches (s : State) (h : Hoist) (line : InputLine) (b : Bool) (live : s.ready)
    (changes : line.of (s.inputs[h]'h.2) ≠ b) : ∃ t, exec (line.change h b) s = .next t ∧
      t.inputs = s.inputs.set h (line.put (s.inputs[h]'h.2) b) ∧
      t.link.latches = s.link.latches.set h (line.put (s.link.latches[h]'h.2) true) ∧
      t.link.powerLatch = s.link.powerLatch ∧ InputMarked s t (line.of (s.link.latches[h]'h.2)) ∧
      (Idle s h → t = { s with inputs := t.inputs, entries := t.entries, link := t.link }) := by
  obtain ⟨link, ended, inputs, _, latches, powerLatch, l, mark, tx, replies, sent⟩ :=
    steady_ends (s.lined h line b) _ (acts_steady line h b (s.lined h line b))
  refine ⟨_, change_next s h line b live changes, ?_, ?_, ?_, ?_, fun i => ?_⟩
  · rw [ended]; exact inputs
  · rw [ended]; exact latches
  · rw [ended]; exact powerLatch
  · rw [ended]
    exact noticeMarked_of_sent s _ .input _ l (mark.trans (lined_mark s h line b)) tx replies sent
  · obtain ⟨entries, link, e⟩ := idle_ends (s.lined h line b) h ⟨i.still, i.burst, i.parked, i.zoneless⟩ live.2 line b
    rw [e]
    rfl

/-! ### DRIVE_POWER (R140, R176, R198) -/

theorem powerChange_next (s : State) (b : Bool) (live : s.ready) (changes : s.drivePower ≠ b) :
    exec (.drivePowerChange b) s =
      .next ((s.powered b).report (.cond .drivePowerLoss none !b)).settle.transmit :=
  congrArg Host.Outcome.next ((whileRunning_of_ready s _ live).trans
    (congrArg (fun v : State => v.settle.transmit) (drivePowerChange_reports s b changes)))

theorem powerChange_latches (s : State) (b : Bool) (live : s.ready) (changes : s.drivePower ≠ b) :
    ∃ t, exec (.drivePowerChange b) s = .next t ∧ t.drivePower = b ∧ t.inputs = s.inputs ∧ t.link.powerLatch = true ∧
      t.link.latches = s.link.latches ∧ InputMarked s t s.link.powerLatch ∧
      (b = true → t = { s with drivePower := true, entries := t.entries, link := t.link } ∧
        t.entries[FaultKind.drivePowerLoss.ix]'FaultKind.drivePowerLoss.ix.2 =
          { s.entries[FaultKind.drivePowerLoss.ix]'FaultKind.drivePowerLoss.ix.2 with presentLine := false }) := by
  obtain ⟨link, ended, inputs, power, latches, powerLatch, l, mark, tx, replies, sent⟩ :=
    steady_ends (s.powered b) _ (report_steady (s.powered b) (.cond .drivePowerLoss none !b))
  refine ⟨_, powerChange_next s b live changes, ?_, ?_, ?_, ?_, ?_, fun on => ?_⟩
  · rw [ended]; exact power
  · rw [ended]; exact inputs
  · rw [ended]; exact powerLatch
  · rw [ended]; exact latches
  · rw [ended]
    exact noticeMarked_of_sent s _ .input _ l (mark.trans (noted_same _ _ _ _)) tx replies sent
  · subst on
    have idle : s.agenda = Agenda.empty := live.2
    obtain ⟨link, finished, _⟩ := finish_quiet ((s.powered true).report (.cond .drivePowerLoss none false))
      [.cond .drivePowerLoss none false] [] [] (by
        have start : (s.powered true).agenda = Agenda.empty := idle
        simp only [State.report, start]
        rfl) (quietReports_of_absent _ _ rfl) (fun _ hy => nomatch hy) (by decide)
    rw [owing_nil] at finished
    show (State.settle _).transmit = _ ∧ _
    rw [Bool.not_true, finished]
    refine ⟨?_, Vector.getElem_set_self (by decide)⟩
    rw [← idle]
    rfl

/-! ### ALIGNED in ALIGNING, REHANG in REHANG (R28, R37) -/

/-- The part of a hoist that ALIGNED has sent from ALIGNING into WEIGH_IN, with the conditions afresh. -/
def State.alignedSite (w : State) (h : Hoist) : Site :=
  { w.weighInSite h (w.site h) with
    agenda := ⟨(w.weighInSite h (w.site h)).agenda.reports ++
      w.conds h (w.weighInSite h (w.site h)).ctx (w.weighInSite h (w.site h)).drive, w.agenda.follow⟩ }

theorem alignedChange_weighs (w : State) (h : Hoist) (aligning : (w.ctxs[h]'h.2).state = .aligning)
    (there : (w.inputs[h]'h.2).aligned = true) : InputLine.aligned.acts h true w =
      State.putSite { w with wu := w.wu.askedBy h (w.ctxs[h]'h.2) } h (w.alignedSite h) := by
  have weighs := putSite_checkAligned_present w h (w.site h) aligning there
  rw [putSite_site] at weighs
  show (w.checkAligned h).reportConds h = _
  rw [weighs, putSite_reportConds]
  rfl

theorem alignedSite_quiet (w u : State) (h : Hoist) (there : (w.inputs[h]'h.2).aligned = true)
    (idle : w.agenda = Agenda.empty) :
    (w.alignedSite h).Quiet u h := by
  refine Site.quiet_of_absent _ _ h ?_ (congrArg Agenda.follow idle) ?_
  all_goals
    have none_made : (w.site h).agenda.reports = [] := congrArg Agenda.reports idle
    simp only [State.alignedSite, State.weighInSite, none_made, List.nil_append, List.all_append, List.length_append,
      conds_length, Bool.and_eq_true]
  · exact ⟨conds_absent w h _ _ (unwatched_weighing w h _ there), conds_absent w h _ _ (unwatched_weighing w h _ there)⟩
  · omega

theorem alignedChange_ends (w : State) (h : Hoist) (aligning : (w.ctxs[h]'h.2).state = .aligning)
    (there : (w.inputs[h]'h.2).aligned = true) (idle : w.agenda = Agenda.empty) : ∃ link,
    (InputLine.aligned.acts h true w).settle.transmit =
      State.finished { w with wu := w.wu.askedBy h (w.ctxs[h]'h.2) } h (w.alignedSite h) link := by
  obtain ⟨link, finished, _⟩ := finish_site { w with wu := w.wu.askedBy h (w.ctxs[h]'h.2) } h (w.alignedSite h) [] idle
    (alignedSite_quiet w _ h there idle)
  rw [owing_nil, ← alignedChange_weighs w h aligning there] at finished
  exact ⟨link, finished⟩

theorem aligned_weighs (s : State) (h : Hoist) (live : s.ready) (aligning : (s.ctxs[h]'h.2).state = .aligning)
    (away : (s.inputs[h]'h.2).aligned = false) : ∃ t, exec (.alignedChange h true) s = .next t ∧
      (t.ctxs[h]'h.2).state = .weighIn ∧ (t.ctxs[h]'h.2).alignT = none ∧ (t.inputs[h]'h.2).aligned = true ∧
      ∀ i : Hoist, i ≠ h → t.ctxs[i]'i.2 = s.ctxs[i]'i.2 ∧ t.drives[i]'i.2 = s.drives[i]'i.2 := by
  have changes : InputLine.aligned.of (s.inputs[h]'h.2) ≠ true := by
    show (s.inputs[h]'h.2).aligned ≠ true
    rw [away]; decide
  have step := change_next s h .aligned true live changes
  have there : ((s.lined h .aligned true).inputs[h]'h.2).aligned = true := by rw [lined_inputs]; rfl
  obtain ⟨link, finished⟩ := alignedChange_ends (s.lined h .aligned true) h aligning there live.2
  refine ⟨_, step.trans (congrArg Host.Outcome.next finished), ?_, ?_, there, finished_others _ h _ link⟩
  · rw [finished_ctx]; rfl
  · rw [finished_ctx]; rfl

/-- The rehang input becoming present is a REHANG_DONE (R37). -/
theorem rehangInput_stages (s : State) (h : Hoist) (o : Order) (live : s.ready)
    (rehang : (s.ctxs[h]'h.2).state = .rehang)
    (away : (s.inputs[h]'h.2).rehang = false) (free : s.inhibit = false) (own : s.orderOf h = some o) :
    ∃ t, exec (.rehangInputChange h true) s = .next t ∧ (t.ctxs[h]'h.2).state = .staged ∧
    (t.ctxs[h]'h.2).pass = some .two ∧
      (t.inputs[h]'h.2).rehang = true ∧ t.reserved = s.reserved ∧
      ∀ i : Hoist, i ≠ h → t.ctxs[i]'i.2 = s.ctxs[i]'i.2 ∧ t.drives[i]'i.2 = s.drives[i]'i.2 := by
  have changes : InputLine.rehang.of (s.inputs[h]'h.2) ≠ true := by
    show (s.inputs[h]'h.2).rehang ≠ true
    rw [away]; decide
  obtain ⟨t, finished, _, ctx, reserved, _, inputs, _, _, others⟩ := rehangDone_begins (s.lined h .rehang true) h o []
    live.2 rehang free own
  rw [owing_nil] at finished
  refine ⟨t, (change_next s h .rehang true live changes).trans (congrArg Host.Outcome.next finished), ?_, ?_,
    ?_, reserved,
    others⟩
  · rw [ctx]; rfl
  · rw [ctx]; rfl
  · rw [inputs, lined_inputs]; rfl

end Sys2Proof.Machine
end

section
/-! ALIGN_LOST and AREA_BREACH, brought by the loss of a station's input and made absent by its return: the entry, and
what a HOLD or an ABORT makes of the dip context (R38, R41, R45, R176, R177, R179, R181). -/

namespace Sys2Proof.Machine

set_option Elab.async false

/-! ### Reports of one condition among others (R176) -/

/-- The report of another condition of a hoist, absent. -/
def FaultReport.spares (k : FaultKind) : FaultReport → Bool
  | .cond j (some _) present => !present && j != k
  | _ => false

theorem absent_of_spares (k : FaultKind) (rs : List FaultReport) (others : rs.all (FaultReport.spares k) = true) :
    rs.all FaultReport.absent = true := by
  refine List.all_eq_true.2 fun r hr => ?_
  have other := List.all_eq_true.1 others r hr
  cases r with
  | occur j h => cases other
  | cond j h present =>
    cases h with
    | none => cases other
    | some h => exact (Bool.and_eq_true _ _ ▸ other).1

theorem ofHoist_of_spares (k : FaultKind) (rs : List FaultReport) (others : rs.all (FaultReport.spares k) = true) :
    rs.all FaultReport.ofHoist = true := by
  refine List.all_eq_true.2 fun r hr => ?_
  have other := List.all_eq_true.1 others r hr
  cases r with
  | occur j h => cases other
  | cond j h present =>
    cases h with
    | none => cases other
    | some h => rfl

theorem FaultKind.ix_ne {j k : FaultKind} (other : j ≠ k) : j.ix ≠ k.ix := fun e => other (by
  rw [← FaultKind.ofIx_ix j, e, FaultKind.ofIx_ix])

/-- Reports that spare a kind leave its entry. -/
theorem keepReports_spares (k : FaultKind) (entries : Vector FaultEntry 14) (rs : List FaultReport)
    (others : rs.all (FaultReport.spares k) = true) : (keepReports entries rs)[k.ix]'k.ix.2 = entries[k.ix]'k.ix.2 := by
  induction rs generalizing entries with
  | nil => rfl
  | cons r rs ih =>
    simp only [List.all_cons, Bool.and_eq_true] at others
    obtain ⟨here, later⟩ := others
    cases r with
    | occur j h => cases here
    | cond j h present =>
      cases h with
      | none => cases here
      | some h =>
        have other : j ≠ k := bne_iff_ne.1 (Bool.and_eq_true _ _ ▸ here).2
        exact (ih _ later).trans (Vector.getElem_set_ne _ _ fun e => FaultKind.ix_ne other (Fin.ext e))

theorem keepReports_append (entries : Vector FaultEntry 14) (rs rs' : List FaultReport) :
    keepReports entries (rs ++ rs') = keepReports (keepReports entries rs) rs' := by
  induction rs generalizing entries with
  | nil => rfl
  | cons r rs ih =>
    cases r with
    | occur j h => exact ih entries
    | cond j h present => exact ih _

/-- Reports among which no condition is present but one of a hoist, which `was` present and once absent stays so. -/
def Fading (k : FaultKind) (h : Hoist) : Bool → List FaultReport → Prop
  | _, [] => True
  | was, .cond j x present :: rs =>
    (present = true → was = true ∧ j = k ∧ x = some h) ∧ Fading k h (if j = k then present else was) rs
  | _, .occur _ _ :: _ => False

theorem quietReports_of_fading (k : FaultKind) (h : Hoist) (was : Bool) (entries : Vector FaultEntry 14)
    (rs : List FaultReport) (before : was = true → (entries[k.ix]'k.ix.2).present[h]'h.2 = true)
    (own : rs.all FaultReport.ofHoist = true)
    (fading : Fading k h was rs) : quietReports entries rs := by
  induction rs generalizing was entries with
  | nil => exact trivial
  | cons r rs ih =>
    simp only [List.all_cons, Bool.and_eq_true] at own
    obtain ⟨here, later⟩ := own
    cases r with
    | occur j h => exact fading.elim
    | cond j x present =>
      obtain ⟨only, rest⟩ := fading
      refine ⟨fun on => ?_, ih _ _ (fun now => ?_) later rest⟩
      · obtain ⟨there, rfl, rfl⟩ := only on
        exact before there
      · by_cases same : j = k
        · rw [if_pos same] at now
          obtain ⟨there, rfl, rfl⟩ := only now
          rw [show (entries.set j.ix ((entries[j.ix]'j.ix.2).keepValue (some h) present))[j.ix]'j.ix.2 = _ from
            Vector.getElem_set_self j.ix.isLt, now]
          exact hoist_set_same _ h true
        · rw [if_neg same] at now
          rw [show (entries.set j.ix ((entries[j.ix]'j.ix.2).keepValue x present))[k.ix]'k.ix.2 =
            entries[k.ix]'k.ix.2 from
            Vector.getElem_set_ne _ _ fun e => FaultKind.ix_ne same (Fin.ext e)]
          exact before now

theorem fading_of_spares (k : FaultKind) (h : Hoist) (was : Bool) (rs more : List FaultReport)
    (others : rs.all (FaultReport.spares k) = true) (fading : Fading k h was more) : Fading k h was (rs ++ more) := by
  induction rs with
  | nil => exact fading
  | cons r rs ih =>
    simp only [List.all_cons, Bool.and_eq_true] at others
    obtain ⟨here, later⟩ := others
    cases r with
    | occur j x => cases here
    | cond j x present =>
      cases x with
      | none => cases here
      | some x =>
        obtain ⟨off, other⟩ := Bool.and_eq_true _ _ ▸ here
        refine ⟨fun on => ?_, ?_⟩
        · rw [on] at off
          cases off
        · rw [if_neg (bne_iff_ne.1 other)]
          exact ih later

/-! ### The two conditions that a station's inputs bring (R38) -/

/-- A station at which the loss of a line brings a condition of R38, and its return makes the condition absent. -/
inductive Watched (s : State) (h : Hoist) : InputLine → FaultKind → Prop
  | aligned (area : (s.inputs[h]'h.2).areaClear = true) (zone : ∃ z : Fin 12, s.holders[z]'z.2 = some h)
      (needs : ∃ st ∈ (s.ctxs[h]'h.2).standsIn, st.needsAligned = true) : Watched s h .aligned .alignLost
  | areaClear (aligned : (s.inputs[h]'h.2).aligned = true)
      (moves : (s.ctxs[h]'h.2).state.moving = true ∨ ((s.ctxs[h]'h.2).state = .drain ∧
        (s.drives[h]'h.2).motion.isSome = true)) :
      Watched s h .areaClear .areaBreach

/-- A line put to a level at a watched station leaves the drive's lines. -/
theorem Watched.driveClear {s : State} {h : Hoist} {line : InputLine} {k : FaultKind} (g : Watched s h line k)
    (clear : s.driveClear h) (level : Bool) : (s.lined h line level).driveClear h := by
  unfold State.driveClear
  rw [lined_inputs]
  cases g <;> exact clear

/-- With AREA_CLEAR there the only condition of R38 that can be present is ALIGN_LOST. -/
theorem conds_of_areaClear (w : State) (h : Hoist) (c : DipCtx) (d : DriveIf)
    (area : (w.inputs[h]'h.2).areaClear = true) :
    w.conds h c d = [.cond .alignLost (some h) (w.holds h && !(w.inputs[h]'h.2).aligned &&
      c.standsIn.any DipState.needsAligned),
      .cond .areaBreach (some h) false] := by
  unfold State.conds
  rw [area]
  simp

/-- With ALIGNED there the only condition of R38 that can be present is AREA_BREACH. -/
theorem conds_of_aligned (w : State) (h : Hoist) (c : DipCtx) (d : DriveIf)
    (aligned : (w.inputs[h]'h.2).aligned = true) :
    w.conds h c d = [.cond .alignLost (some h) false,
      .cond .areaBreach (some h) (w.installed h && !(w.inputs[h]'h.2).areaClear &&
      (c.state.moving || (c.state == .drain && d.motion.isSome)))] := by
  unfold State.conds
  rw [aligned]
  simp

section
variable {s : State} {h : Hoist} {line : InputLine} {k : FaultKind}

theorem Watched.other (g : Watched s h line k) : k ≠ .driveFault ∧ k ≠ .drivePowerLoss := by
  cases g <;> decide

/-- The reports of a change of the line: the condition's own among reports of others, absent. -/
theorem Watched.acts (g : Watched s h line k) (live : s.ready) (installed : s.installed h = true) (level : Bool) :
    ∃ qs rest, line.acts h level (s.lined h line level) =
        { s.lined h line level with agenda := ⟨qs ++ .cond k (some h) (!level) :: rest, []⟩ } ∧
      qs.all (FaultReport.spares k) = true ∧ rest.all (FaultReport.spares k) = true ∧ qs.length ≤ 1 ∧
      rest.length ≤ 1 := by
  have idle : (s.lined h line level).agenda = Agenda.empty := live.2
  cases g with
  | aligned area zone needs =>
    have stays : (s.lined h .aligned level).checkAligned h = s.lined h .aligned level := by
      refine if_neg fun ⟨aligning, _⟩ => ?_
      have here : (s.ctxs[h]'h.2).state = .aligning := aligning
      obtain ⟨st, stands, need⟩ := needs
      rw [standsIn_plain (s.ctxs[h]'h.2) (by rw [here]; decide) (by rw [here]; decide), List.mem_singleton] at stands
      rw [stands, here] at need
      cases need
    refine ⟨[], [.cond .areaBreach (some h) false], ?_, rfl, rfl, Nat.zero_le 1, Nat.le_refl 1⟩
    show ((s.lined h .aligned level).checkAligned h).reportConds h = _
    rw [stays, reportConds_eq, idle, conds_of_areaClear _ h _ _ (by rw [lined_inputs]; exact area), lined_inputs]
    have holds : (s.lined h .aligned level).holds h = true := (holds_eq_true s h).2 zone
    have need : ((s.lined h .aligned level).ctxs[h]'h.2).standsIn.any DipState.needsAligned = true :=
      List.any_eq_true.2 needs
    rw [holds, need]
    simp only [InputLine.put, Bool.true_and, Bool.and_true]
    rfl
  | areaClear aligned moves =>
    refine ⟨[.cond .alignLost (some h) false], [], ?_, rfl, rfl, Nat.le_refl 1, Nat.zero_le 1⟩
    show (s.lined h .areaClear level).reportConds h = _
    rw [reportConds_eq, idle, conds_of_aligned _ h _ _ (by rw [lined_inputs]; exact aligned), lined_inputs]
    have there : (s.lined h .areaClear level).installed h = true := installed
    have moving : (((s.lined h .areaClear level).ctxs[h]'h.2).state.moving ||
      (((s.lined h .areaClear level).ctxs[h]'h.2).state == .drain &&
        ((s.lined h .areaClear level).drives[h]'h.2).motion.isSome)) = true := by
      have e : ((s.ctxs[h]'h.2).state.moving || ((s.ctxs[h]'h.2).state == .drain && (s.drives[h]'h.2).motion.isSome)) =
        true := by
        rcases moves with m | ⟨drain, runs⟩
        · rw [m]; rfl
        · rw [drain, runs]; rfl
      exact e
    rw [there, moving]
    simp only [InputLine.put, Bool.true_and, Bool.and_true]
    rfl

/-- The return of the line makes the condition absent and leaves the entry latched. -/
theorem Watched.returns (g : Watched s h line k) (live : s.ready) (installed : s.installed h = true)
    (away : line.of (s.inputs[h]'h.2) = false) : ∃ t, exec (line.change h true) s = .next t ∧
      t = { s with inputs := t.inputs, entries := t.entries, link := t.link } ∧
      t.inputs = s.inputs.set h (line.put (s.inputs[h]'h.2) true) ∧
      t.entries[k.ix]'k.ix.2 =
        { s.entries[k.ix]'k.ix.2 with present := (s.entries[k.ix]'k.ix.2).present.set h false } := by
  obtain ⟨qs, rest, acts, before, after, short, short'⟩ := g.acts live installed true
  have step := change_next s h line true live (by rw [away]; decide)
  rw [acts] at step
  obtain ⟨link, finished, _⟩ :=
    finish_quiet { s.lined h line true with agenda := ⟨qs ++ .cond k (some h) false :: rest, []⟩ }
    (qs ++ .cond k (some h) false :: rest) [] [] rfl (quietReports_of_absent _ _ (by
      rw [List.all_append, absent_of_spares k qs before, List.all_cons, absent_of_spares k rest after]; rfl))
    (fun _ hy => nomatch hy) (by simp only [List.length_append, List.length_cons, List.length_nil]; omega)
  rw [owing_nil] at finished
  have idle : s.agenda = Agenda.empty := live.2
  refine ⟨_, step.trans (congrArg Host.Outcome.next finished), ?_, rfl, ?_⟩
  · rw [← idle]
    rfl
  · show (keepReports s.entries (qs ++ .cond k (some h) false :: rest))[k.ix]'k.ix.2 = _
    rw [keepReports_append]
    refine (keepReports_spares k _ rest after).trans ?_
    refine (Vector.getElem_set_self k.ix.isLt).trans ?_
    rw [keepReports_spares k _ qs before]
    rfl

/-- The machine in which the occurrence that the loss of a line brings is taken, `rest` left to be reported. -/
structure Told (s : State) (h : Hoist) (line : InputLine) (k : FaultKind) (v : State) (rest : List FaultReport) :
    Prop where
  from_ : ∃ entries : Vector FaultEntry 14, entries[k.ix]'k.ix.2 = s.entries[k.ix]'k.ix.2 ∧
    v = State.valued { s.lined h line false with entries := entries, agenda := ⟨rest, []⟩ } k (some h) true
  spares : rest.all (FaultReport.spares k) = true
  short : rest.length ≤ 1

/-- The step of a loss that brings an occurrence, from what the occurrence makes of the machine. -/
theorem Watched.occurs (g : Watched s h line k) (live : s.ready) (installed : s.installed h = true)
    (there : line.of (s.inputs[h]'h.2) = true) (fresh : (s.entries[k.ix]'k.ix.2).present[h]'h.2 = false) :
    ∃ v rest, Told s h line k v rest ∧
      ∀ (u : State) (reports : List FaultReport) (follow : List Follow), v.occurrence k (some h) = u →
        u.agenda = ⟨reports, follow⟩ → quietReports u.entries reports → (∀ y ∈ follow, y.resting u) →
        reports.length + follow.length ≤ 100 → ∃ link, exec (line.change h false) s = .next
          { u with entries := keepReports u.entries reports, link := link, agenda := Agenda.empty } ∧
          Sent u.link [] link := by
  obtain ⟨qs, rest, acts, before, after, short, short'⟩ := g.acts live installed false
  have step := change_next s h line false live (by rw [there]; decide)
  rw [acts] at step
  have same := keepReports_spares k s.entries qs before
  refine ⟨_, rest, ⟨⟨keepReports s.entries qs, same, rfl⟩, after, short'⟩,
    fun u reports follow e left quiet rests few => ?_⟩
  obtain ⟨link, finished, sent⟩ := finish_report
    { s.lined h line false with agenda := ⟨qs ++ .cond k (some h) true :: rest, []⟩ } u qs (.cond k (some h) true)
      rest reports []
    follow rfl (quietReports_of_absent _ _ (absent_of_spares k qs before)) ((takeReport_raises _ k (some h) (by
      show ((keepReports s.entries qs)[k.ix]'k.ix.2).present[h]'h.2 = false
      rw [same]; exact fresh) g.other.1).trans e) left quiet rests (by omega)
  exact ⟨link, step.trans (congrArg Host.Outcome.next finished), sent⟩

variable {v : State} {rest : List FaultReport}

theorem Told.agrees (g : Told s h line k v rest) : Agrees s v k := by
  obtain ⟨entries, same, rfl⟩ := g.from_
  refine ⟨⟨(s.entries[k.ix]'k.ix.2).present.set h true, ?_⟩, rfl, rfl, rfl, noted_other _ _ _ _ _ (by decide), rfl, rfl⟩
  refine (Vector.getElem_set_self k.ix.isLt).trans ?_
  rw [same]
  rfl

theorem Told.present (g : Told s h line k v rest) : (v.entries[k.ix]'k.ix.2).present =
    (s.entries[k.ix]'k.ix.2).present.set h true := by
  obtain ⟨entries, same, rfl⟩ := g.from_
  refine (congrArg FaultEntry.present (Vector.getElem_set_self k.ix.isLt)).trans ?_
  rw [same]
  rfl

theorem struckEntry_present (u : State) (j : FaultKind) (who : Option Hoist) :
    (u.struckEntry j who).present = (u.entries[j.ix]'j.ix.2).present := by
  unfold State.struckEntry
  split <;> rfl

/-- An occurrence that reaches no dip context. -/
theorem Watched.spared (g : Watched s h line k) (live : s.ready) (installed : s.installed h = true)
    (there : line.of (s.inputs[h]'h.2) = true) (fresh : (s.entries[k.ix]'k.ix.2).present[h]'h.2 = false)
    (none_reached : s.reachesNone k h) :
    ∃ t, exec (line.change h false) s = .next t ∧
      t = { s with inputs := t.inputs, entries := t.entries, beaconT := t.beaconT, link := t.link } ∧
      t.inputs = s.inputs.set h (line.put (s.inputs[h]'h.2) false) ∧ Occurred s t k h ∧
      (t.entries[k.ix]'k.ix.2).present = (s.entries[k.ix]'k.ix.2).present.set h true := by
  obtain ⟨v, rest, told, next⟩ := g.occurs live installed there fresh
  have agrees := told.agrees
  have own := ofHoist_of_spares k rest told.spares
  have agenda : (v.struck k (some h)).agenda = ⟨rest, []⟩ := by
    obtain ⟨entries, _, rfl⟩ := told.from_
    rfl
  obtain ⟨link, step, sent⟩ := next _ rest []
    (occurrence_spares v k h ((agrees.installed h).trans installed) (agrees.reachesNone h none_reached)) agenda
    (quietReports_of_absent _ _ (absent_of_spares k rest told.spares)) (fun _ hy => nomatch hy) (by
      have few := told.short
      rw [List.length_nil]; omega)
  refine ⟨_, step, ?_, ?_, agrees.occurred h g.other.2 installed _ _ rest own rfl rfl rfl rfl rfl rfl rfl sent, ?_⟩
  · have idle : s.agenda = Agenda.empty := live.2
    obtain ⟨entries, _, rfl⟩ := told.from_
    rw [← idle]
    rfl
  · obtain ⟨entries, _, rfl⟩ := told.from_
    rfl
  · refine (congrArg FaultEntry.present (keepReports_spares k _ rest told.spares)).trans ?_
    rw [struck_entry, struckEntry_present]
    exact told.present

/-! ### HOLD (R41, R177) -/

/-- The reports of the conditions that a hold makes repeat the one that is present. -/
theorem Watched.held_fading (g : Watched s h line k) (w : State)
    (inputs : w.inputs = s.inputs.set h (line.put (s.inputs[h]'h.2) false))
    (holders : w.holders = s.holders) (ctx : w.ctxs[h]'h.2 = s.ctxs[h]'h.2) :
    Fading k h true (w.haltConds h (w.ctxs[h]'h.2) (w.drives[h]'h.2) ++
      w.conds h (w.ctxs[h]'h.2).holding (w.drives[h]'h.2).halted) := by
  have line' : w.inputs[h]'h.2 = line.put (s.inputs[h]'h.2) false := by rw [inputs]; exact hoist_set_same _ _ _
  cases g with
  | aligned area zone needs =>
    have area' : (w.inputs[h]'h.2).areaClear = true := by rw [line']; exact area
    have holds : w.holds h = true := (holds_eq_true w h).2 (holders ▸ zone)
    have away : (w.inputs[h]'h.2).aligned = false := by rw [line']; rfl
    have need : (w.ctxs[h]'h.2).standsIn.any DipState.needsAligned = true := by rw [ctx]; exact List.any_eq_true.2 needs
    unfold State.haltConds
    rw [conds_of_areaClear w h (w.ctxs[h]'h.2) _ area', conds_of_areaClear w h (w.ctxs[h]'h.2).holding _ area',
      holds, away, need]
    split <;> simp [Fading]
  | areaClear aligned moves =>
    have aligned' : (w.inputs[h]'h.2).aligned = true := by rw [line']; exact aligned
    unfold State.haltConds
    rw [conds_of_aligned w h (w.ctxs[h]'h.2) _ aligned', conds_of_aligned w h (w.ctxs[h]'h.2).holding _ aligned']
    split <;> simp [Fading, DipCtx.holding, DipState.moving]

theorem Watched.holds (g : Watched s h line k) (live : s.ready) (installed : s.installed h = true)
    (there : line.of (s.inputs[h]'h.2) = true) (fresh : (s.entries[k.ix]'k.ix.2).present[h]'h.2 = false)
    (applies : s.applies k h)
    (hold : s.reactionOf k = .hold) (free : (s.ctxs[h]'h.2).state ≠ .held) (busy : (s.ctxs[h]'h.2).state ≠ .parked)
    (inLimit : (s.ctxs[h]'h.2).inLimit) : ∃ t, exec (line.change h false) s = .next t ∧ Occurred s t k h ∧
      (t.ctxs[h]'h.2).state = .held ∧ (t.ctxs[h]'h.2).heldFrom = some (s.ctxs[h]'h.2).state ∧
      (t.drives[h]'h.2).motion = none ∧
      (t.drives[h]'h.2).count = (s.drives[h]'h.2).count ∧ t.kept = s.kept ∧ t.orders = s.orders ∧
      t.holders = s.holders ∧
      ∀ i : Hoist, i ≠ h → t.ctxs[i]'i.2 = s.ctxs[i]'i.2 ∧ t.drives[i]'i.2 = s.drives[i]'i.2 := by
  obtain ⟨v, rest, told, next⟩ := g.occurs live installed there fresh
  have agrees := told.agrees
  have reacts := occurrence_reacts v k h g.other.2 ((agrees.installed h).trans installed) (agrees.applies h applies)
    (by rw [agrees.reaction, hold]; decide)
  rw [agrees.reaction, hold] at reacts
  have agenda : (v.struck k (some h)).agenda = ⟨rest, []⟩ := by
    obtain ⟨entries, _, rfl⟩ := told.from_
    rfl
  have part : (v.struck k (some h)).inputs = s.inputs.set h (line.put (s.inputs[h]'h.2) false) ∧
      (v.struck k (some h)).holders = s.holders ∧ (v.struck k (some h)).ctxs = s.ctxs ∧
      (v.struck k (some h)).drives = s.drives ∧ (v.struck k (some h)).kept = s.kept ∧
      (v.struck k (some h)).orders = s.orders := by
    obtain ⟨entries, _, rfl⟩ := told.from_
    exact ⟨rfl, rfl, rfl, rfl, rfl, rfl⟩
  have entry : ((v.struck k (some h)).entries[k.ix]'k.ix.2).present[h]'h.2 = true := by
    rw [struck_entry, struckEntry_present, told.present]
    exact hoist_set_same _ _ _
  generalize hu : v.struck k (some h) = u at *
  obtain ⟨inputs, holders, ctxs, drives, kept, orders⟩ := part
  have ctx : u.ctxs[h]'h.2 = s.ctxs[h]'h.2 := by rw [ctxs]
  have taken : v.occurrence k (some h) = State.putSite { u with wu := u.wu.without h } h (u.heldSite h (u.site h)) :=
    reacts.trans (enterHeld_eq u h (by rw [ctx]; exact busy) (by rw [ctx]; exact free) (by rw [ctx]; exact inLimit))
  have reports : (u.heldSite h (u.site h)).agenda =
      ⟨rest ++ (u.haltConds h (u.ctxs[h]'h.2) (u.drives[h]'h.2) ++
        u.conds h (u.ctxs[h]'h.2).holding (u.drives[h]'h.2).halted), []⟩ := by
    unfold State.heldSite State.site
    rw [agenda, List.append_assoc]
  have own : (rest ++ (u.haltConds h (u.ctxs[h]'h.2) (u.drives[h]'h.2) ++
    u.conds h (u.ctxs[h]'h.2).holding (u.drives[h]'h.2).halted)).all
      FaultReport.ofHoist = true := by
    rw [List.all_append, List.all_append, ofHoist_of_spares k rest told.spares, haltConds_ofHoist, conds_ofHoist]
    rfl
  obtain ⟨link, step, sent⟩ := next _ _ [] taken reports
    (quietReports_of_fading k h true _ _ (fun _ => entry) own
      (fading_of_spares k h true rest _ told.spares (g.held_fading u inputs holders ctx)))
    (fun _ hy => nomatch hy) (by
      have few := told.short
      have two := haltConds_length u h (u.ctxs[h]'h.2) (u.drives[h]'h.2)
      simp only [List.length_append, conds_length, List.length_nil]
      omega)
  refine ⟨_, step, agrees.occurred h g.other.2 installed _ _ _ own ?_ ?_ ?_ ?_ ?_ rfl rfl sent, ?_, ?_, ?_, ?_,
    kept, orders,
    holders, fun i ne => ⟨?_, ?_⟩⟩
  · rw [hu]; rfl
  · rw [hu]; rfl
  · rw [hu]
    exact hoistMarks_other u _ _ _ .fault (by decide)
  · rw [← hu]; rfl
  · rw [← hu]; rfl
  · exact (congrArg DipCtx.state (putSite_ctx _ h _)).trans rfl
  · refine (congrArg DipCtx.heldFrom (putSite_ctx _ h _)).trans ?_
    exact congrArg (fun c : DipCtx => some c.state) ctx
  · refine (congrArg DriveIf.motion (putSite_drive _ h _)).trans ?_
    exact halted_motion _
  · refine (congrArg DriveIf.count (putSite_drive _ h _)).trans ((halted_count _).trans ?_)
    show (u.drives[h]'h.2).count = _
    rw [drives]
  · refine (hoist_set_ne _ h i _ ne).trans ?_
    show u.ctxs[i]'i.2 = _
    rw [ctxs]
  · refine (hoist_set_ne _ h i _ ne).trans ?_
    show u.drives[i]'i.2 = _
    rw [drives]

end

end Sys2Proof.Machine
end

section
/-! ABORT over a condition of R38 with the load in the zinc, and the inputs as a whole (R38, R45, R140, R177, R198). -/

namespace Sys2Proof.Machine

set_option Elab.async false

/-! ### ABORT with a load in the zinc (R45, R177) -/

theorem holdFailed_unfailed (s : State) (h : Hoist) (unfailed : ∀ r ∈ (s.mail[h]'h.2).motions, r.cause = none) :
    s.holdFailed h = s := by
  refine if_neg fun failed => ?_
  obtain ⟨r, hr, cause⟩ := List.any_eq_true.1 failed
  rw [unfailed r hr] at cause
  cases cause

/-- A machine in which an ABORT finds a hoist with the load in the zinc. -/
structure Cut (u : State) (h : Hoist) (o : Order) (r : OrderRef) (l : Latched) : Prop where
  loaded : (u.ctxs[h]'h.2).state = .lowering ∨ (u.ctxs[h]'h.2).state = .dwell ∨ (u.ctxs[h]'h.2).state = .lifting
  own : u.orderOf h = some o
  ordered : (u.ctxs[h]'h.2).order = some r
  open_ : o.closePending = false
  latched : (u.ctxs[h]'h.2).latched = some l
  clear : u.driveClear h
  known : (u.drives[h]'h.2).known = true
  unfailed : ∀ r ∈ (u.mail[h]'h.2).motions, r.cause = none

/-- The part of a hoist whose ABORT brings the hook up. -/
def State.cutAwaySite (u : State) (h : Hoist) (r : OrderRef) (l : Latched) (full : Bool) (m : Vector Bool 6) : Site :=
  (u.turnedFor h r full).moveSite (u.turnedSite (u.site h) .fault m) h ((u.ctxs[h]'h.2).turned .fault).abortLifting
    (.lift l.drainPos u.kept.cycle.abortSpeed)

theorem Cut.abort {u : State} {h : Hoist} {o : Order} {r : OrderRef} {l : Latched} (g : Cut u h o r l) : ∃ full m,
    u.react .abort h = (u.turnedFor h r full).putSite h (u.cutAwaySite h r l full m) ∧
      ∀ c : NoticeClass, c ≠ .book → m[c.ix]'c.ix.2 = u.link.marks[c.ix]'c.ix.2 := by
  obtain ⟨full, m, turned, marks⟩ := turnAborted_marked u h .fault r g.ordered
  refine ⟨full, m, ?_, marks⟩
  show (u.holdFailed h).abort h .fault = _
  rw [holdFailed_unfailed u h g.unfailed, abort_turns u h o r .fault g.ordered g.own g.open_, turned,
    abortBy_loaded _ h _ (by rw [putSite_ctx]; exact g.loaded)]
  exact putSite_toAbortLift (u.turnedFor h r full) h _ l g.latched g.clear g.known

section
variable {s : State} {h : Hoist} {line : InputLine} {k : FaultKind}

theorem Watched.conds_fading (g : Watched s h line k) (w : State)
    (inputs : w.inputs = s.inputs.set h (line.put (s.inputs[h]'h.2) false)) (c : DipCtx) (d : DriveIf) :
    Fading k h true (w.conds h c d) := by
  have line' : w.inputs[h]'h.2 = line.put (s.inputs[h]'h.2) false := by rw [inputs]; exact hoist_set_same _ _ _
  cases g with
  | aligned area zone needs =>
    rw [conds_of_areaClear w h c d (by rw [line']; exact area)]
    simp [Fading]
  | areaClear aligned moves =>
    rw [conds_of_aligned w h c d (by rw [line']; exact aligned)]
    simp [Fading]

variable {v : State} {rest : List FaultReport}

/-- What the machine after the occurrence has of the one before the step. -/
structure Struck (s u : State) (h : Hoist) (line : InputLine) (k : FaultKind) (rest : List FaultReport) : Prop where
  agenda : u.agenda = ⟨rest, []⟩
  inputs : u.inputs = s.inputs.set h (line.put (s.inputs[h]'h.2) false)
  ctxs : u.ctxs = s.ctxs
  drives : u.drives = s.drives
  mail : u.mail = s.mail
  orders : u.orders = s.orders
  kept : u.kept = s.kept
  reserved : u.reserved = s.reserved
  present : (u.entries[k.ix]'k.ix.2).present[h]'h.2 = true
  straps : u.link.straps = s.link.straps

theorem Told.struck (g : Told s h line k v rest) : Struck s (v.struck k (some h)) h line k rest := by
  have present : ((v.struck k (some h)).entries[k.ix]'k.ix.2).present[h]'h.2 = true := by
    rw [struck_entry, struckEntry_present, g.present]
    exact hoist_set_same _ _ _
  obtain ⟨entries, _, rfl⟩ := g.from_
  exact ⟨rfl, rfl, rfl, rfl, rfl, rfl, rfl, rfl, present, rfl⟩

theorem Watched.aborts (g : Watched s h line k) (live : s.ready) (installed : s.installed h = true)
    (there : line.of (s.inputs[h]'h.2) = true) (fresh : (s.entries[k.ix]'k.ix.2).present[h]'h.2 = false) (o : Order)
    (l : Latched)
    (applies : s.applies k h) (abort : s.reactionOf k = .abort)
    (loaded : (s.ctxs[h]'h.2).state = .lowering ∨ (s.ctxs[h]'h.2).state = .dwell ∨ (s.ctxs[h]'h.2).state = .lifting)
    (none_waits : s.noneQueued) (own : s.orderOf h = some o) (open_ : o.closePending = false)
    (latched : (s.ctxs[h]'h.2).latched = some l) (clear : s.driveClear h) (known : (s.drives[h]'h.2).known = true)
    (unfailed : ∀ r ∈ (s.mail[h]'h.2).motions, r.cause = none) :
    ∃ t, exec (line.change h false) s = .next t ∧ Occurred s t k h ∧ (t.ctxs[h]'h.2).state = .abortLift ∧
      (t.ctxs[h]'h.2).closeReason = some .fault ∧ (t.ctxs[h]'h.2).resv = 0 ∧
      t.reserved = s.reserved - (s.ctxs[h]'h.2).resv ∧
      (t.ctxs[h]'h.2).flags.aborted = ((s.ctxs[h]'h.2).flags.aborted || (s.ctxs[h]'h.2).entrySeq.isSome) ∧
      (∃ o', t.orderOf h = some o' ∧ o'.closePending = true ∧ o'.tag = o.tag) ∧
      HookSent s t h l.drainPos s.kept.cycle.abortSpeed ((s.drives[h]'h.2).count ≤ l.drainPos) ∧ t.kept = s.kept ∧
      ∀ i : Hoist, i ≠ h → t.ctxs[i]'i.2 = s.ctxs[i]'i.2 ∧ t.drives[i]'i.2 = s.drives[i]'i.2 := by
  obtain ⟨v, rest, told, next⟩ := g.occurs live installed there fresh
  have agrees := told.agrees
  have after := told.struck
  obtain ⟨_, r, ordered, slot⟩ := orderOf_slot s h o own
  have reacts := occurrence_reacts v k h g.other.2 ((agrees.installed h).trans installed) (agrees.applies h applies)
    (by rw [agrees.reaction, abort]; decide)
  rw [agrees.reaction, abort] at reacts
  generalize hu : v.struck k (some h) = u at reacts after
  have ctx : u.ctxs[h]'h.2 = s.ctxs[h]'h.2 := by rw [after.ctxs]
  have own' : u.orderOf h = some o := (orderOf_same s u h (by rw [ctx]) after.orders).trans own
  have cut : Cut u h o r l := by
    refine ⟨by rw [ctx]; exact loaded, own', by rw [ctx]; exact ordered, open_, by rw [ctx]; exact latched, ?_,
      by rw [after.drives]; exact known, by rw [after.mail]; exact unfailed⟩
    have clear' := g.driveClear clear false
    unfold State.driveClear at clear' ⊢
    rw [after.inputs]
    exact clear'
  obtain ⟨full, m, abortEq, marks⟩ := cut.abort
  generalize hx : u.cutAwaySite h r l full m = x at abortEq
  have calm := turnedSite_calm u { u.site h with agenda := Agenda.empty } .fault m r.slot (u.ctxs[h]'h.2).resv full (by
    unfold State.noneQueued
    rw [after.orders]
    exact none_waits) rfl
  have agenda : x.agenda = ⟨rest ++ (u.turnedFor h r full).conds h ((u.ctxs[h]'h.2).turned .fault).abortLifting
      ((((u.site h).drive.permitted u.bench ((u.ctxs[h]'h.2).turned .fault).abortLifting.state)).commanded u.kept.drive
        (.lift l.drainPos u.kept.cycle.abortSpeed)), [] ++ u.takesAfterReturn (u.ctxs[h]'h.2).resv⟩ := by
    rw [← hx]
    unfold State.cutAwaySite State.moveSite State.turnedSite State.site
    rw [after.agenda]
    rfl
  generalize (((u.site h).drive.permitted u.bench
    ((u.ctxs[h]'h.2).turned .fault).abortLifting.state)).commanded u.kept.drive
    (.lift l.drainPos u.kept.cycle.abortSpeed) = d at agenda
  have own_reports : (rest ++ (u.turnedFor h r full).conds h ((u.ctxs[h]'h.2).turned .fault).abortLifting d).all
      FaultReport.ofHoist = true := by
    rw [List.all_append, ofHoist_of_spares k rest told.spares, conds_ofHoist]
    rfl
  obtain ⟨link, step, sent⟩ := next _ _ _ (reacts.trans abortEq) agenda
    (quietReports_of_fading k h true _ _ (fun _ => after.present) own_reports
      (fading_of_spares k h true rest _ told.spares (g.conds_fading (u.turnedFor h r full) after.inputs _ _)))
    (fun y hy => by
      obtain ⟨i, rfl, none_there⟩ := calm.takes y hy
      exact .inl none_there)
    (by
      have few := told.short
      have takes := calm.few
      have same : (u.turnedSite { u.site h with agenda := Agenda.empty } .fault m).agenda.follow =
        [] ++ u.takesAfterReturn (u.ctxs[h]'h.2).resv := rfl
      rw [same] at takes
      simp only [List.length_append, conds_length]
      simp only [List.length_append] at takes
      omega)
  have ctx' : x.ctx = ((s.ctxs[h]'h.2).turned .fault).abortLifting := by
    rw [← hx, ← ctx]
    have starved : ({ ((u.ctxs[h]'h.2).turned .fault).abortLifting with
        starved := ((u.ctxs[h]'h.2).turned .fault).abortLifting.starved && true } : DipCtx) =
        ((u.ctxs[h]'h.2).turned .fault).abortLifting := by rw [Bool.and_true]
    exact starved
  obtain ⟨reason, resv, aborted⟩ := abortLifting_fields ((s.ctxs[h]'h.2).turned .fault)
  generalize ht : State.mk _ _ _ _ _ _ _ _ _ _ _ _ _ _ _ _ _ _ _ _ _ _ _ _ _ _ _ = t at step
  have t_ctx : t.ctxs[h]'h.2 = ((s.ctxs[h]'h.2).turned .fault).abortLifting := by
    rw [← ht, ← ctx']
    exact putSite_ctx _ h x
  have t_orders : t.orders = closingAt r.slot s.orders := by
    rw [← ht]
    exact congrArg (closingAt r.slot) after.orders
  refine ⟨t, step, agrees.occurred h g.other.2 installed _ _ _ own_reports ?_ ?_ ?_ ?_ ?_ (by rw [← ht]) (by rw [← ht])
    (by rw [← ht]; exact sent), by rw [t_ctx]; rfl, by rw [t_ctx, reason]; rfl, by rw [t_ctx, resv]; rfl, ?_,
    by rw [t_ctx, aborted]; rfl, ⟨{ o with closePending := true }, ?_, rfl, rfl⟩, ?_, ?_, fun i ne => ⟨?_, ?_⟩⟩
  · rw [hu]; rfl
  · rw [hu]; rfl
  · rw [hu, ← marks .fault (by decide)]
    show x.marks[NoticeClass.fault.ix]'NoticeClass.fault.ix.2 = _
    rw [← hx]
    exact hoistMarks_other _ _ _ _ .fault (by decide)
  · rw [← hu]; rfl
  · rw [← hu]; rfl
  · rw [← ht, ← ctx, ← after.reserved]
    rfl
  · refine orderOf_turned s t h o r own ordered t_orders ?_
    rw [t_ctx]
    unfold DipCtx.abortLifting DipCtx.leaveLowering
    split <;> exact ordered
  · have reached : ((s.drives[h]'h.2).count ≤ l.drainPos) =
        ((MotionCmd.lift l.drainPos s.kept.cycle.abortSpeed).alreadyThere (s.drives[h]'h.2).count = true) := by
      simp only [MotionCmd.alreadyThere, decide_eq_true_eq]
    rw [reached]
    refine hookSent_of_moveSite s t (u.turnedFor h r full) h (u.turnedSite (u.site h) .fault m)
      ((u.ctxs[h]'h.2).turned .fault).abortLifting (.lift l.drainPos s.kept.cycle.abortSpeed)
        l.drainPos s.kept.cycle.abortSpeed
      (.inr rfl) ?_ ?_ ?_ ?_
    · show u.drives[h]'h.2 = _
      rw [after.drives]
    · show (u.mail[h]'h.2).motions = _
      rw [after.mail]
    · rw [← ht, ← after.kept]
      refine (putSite_drive _ h x).trans ?_
      rw [← hx]
      rfl
    · rw [← ht, ← after.kept]
      refine (putSite_mail _ h x).trans ?_
      rw [← hx]
      rfl
  · rw [← ht, ← after.kept]
    rfl
  · rw [← ht, ← after.ctxs]
    exact hoist_set_ne _ h i _ ne
  · rw [← ht, ← after.drives]
    exact hoist_set_ne _ h i _ ne

end

/-- Settles O43: a change is its level, its latch and its mark; the blocks act on the machine it leaves. -/
theorem inputsLatchedAndActed : Obligations.InputsLatchedAndActed := by
  unfold Obligations.InputsLatchedAndActed
  refine ⟨fun s h line b live same => ?_, fun s live => ?_, fun s h line b live changes => ?_,
    fun s b live changes => powerChange_latches s b live changes,
    fun s h live => ⟨fun aligning away => aligned_weighs s h live aligning away,
      fun o rehang away free own => rehangInput_stages s h o live rehang away free own⟩,
    fun s h line k live installed watched => ?_⟩
  · rw [exec_change]
    exact unchanged_next s (line.taken h b) live (if_pos same)
  · exact unchanged_next s _ live (if_pos rfl)
  · obtain ⟨t, step, inputs, latches, powerLatch, mark, idle⟩ := change_latches s h line b live changes
    exact ⟨t, step, inputs, latches, powerLatch, mark, fun still burst parked zoneless =>
      idle ⟨still, burst, parked, zoneless⟩⟩
  · have g : Watched s h line k := by
      rcases watched with ⟨rfl, rfl, area, zone, needs⟩ | ⟨rfl, rfl, aligned, moves⟩
      · exact .aligned area zone needs
      · exact .areaClear aligned moves
    exact ⟨fun there fresh => ⟨fun none_reached => g.spared live installed there fresh none_reached,
        fun applies hold free busy inLimit => g.holds live installed there fresh applies hold free busy inLimit,
        fun o l applies abort loaded none_waits own open_ latched clear known unfailed =>
          g.aborts live installed there fresh o l applies abort loaded none_waits own open_ latched clear known unfailed⟩,
      fun away => g.returns live installed away⟩

end Sys2Proof.Machine
end

section
/-! The end of a sample period: what it keeps of the readings, the choice of the next period's channel, the age checks, and
the working off of occurrences that reach no dip context (R104 to R112, R121, R122, R179). -/

namespace Sys2Proof.Machine

set_option Elab.async false

/-! ### Occurrences that reach no dip context, worked off one after the other (R179) -/

/-- The kind a report is about. -/
def FaultReport.kind : FaultReport → FaultKind
  | .cond k _ _ => k
  | .occur k _ => k

/-- A report that reaches no dip context: of a condition of a hoist, absent, or of an occurrence of a kind that latches
alone. -/
def FaultReport.lone (s : State) (h : Hoist) : FaultReport → Prop
  | .cond _ who present => who.isSome = true ∧ present = false
  | .occur k who => who = some h ∧ k ≠ .drivePowerLoss ∧ s.latchesAlone k

theorem lone_of_entries (s t : State) (h : Hoist) (r : FaultReport) (faults : t.kept.faults = s.kept.faults)
    (state : (t.entries[r.kind.ix]'r.kind.ix.2).state = (s.entries[r.kind.ix]'r.kind.ix.2).state) (lone : r.lone s h) :
    r.lone t h := by
  cases r with
  | cond k who present => exact lone
  | occur k who =>
    obtain ⟨named, other, clear, reaction⟩ := lone
    refine ⟨named, other, state.trans clear, ?_⟩
    unfold State.reactionOf at reaction ⊢
    rw [faults]
    exact reaction

theorem valued_other (s : State) (k : FaultKind) (who : Option Hoist) (present : Bool) (j : FaultKind)
    (other : j.ix ≠ k.ix) : (s.valued k who present).entries[j.ix]'j.ix.2 = s.entries[j.ix]'j.ix.2 :=
  Vector.getElem_set_ne k.ix.isLt j.ix.isLt fun e => other (Fin.ext e.symm)

/-- Reports of different kinds, each reaching no dip context, latch their kinds' entries and leave those of the others. -/
theorem settleFor_lone (n : Nat) (s : State) (h : Hoist) (rs : List FaultReport) (a : s.agenda = ⟨rs, []⟩)
    (installed : s.installed h = true) (lone : ∀ r ∈ rs, r.lone s h) (apart : (rs.map FaultReport.kind).Nodup)
    (short : rs.length ≤ n) : ∃ entries beacon marks,
    settleFor n s = { s with entries := entries, beaconT := beacon, link := { s.link with marks := marks },
                             agenda := Agenda.empty } ∧
      (∀ k, .occur k (some h) ∈ rs → State.latchedOnce { s with entries := entries } k (some h)) ∧
      ∀ k : FaultKind, k ∉ rs.map FaultReport.kind → entries[k.ix]'k.ix.2 = s.entries[k.ix]'k.ix.2 := by
  induction rs generalizing s n with
  | nil =>
    refine ⟨s.entries, s.beaconT, s.link.marks, ?_, fun _ none_there => absurd none_there List.not_mem_nil,
      fun _ _ => rfl⟩
    have e : Agenda.empty = s.agenda := a.symm
    rw [settleFor_of_empty n s a, e]
  | cons r rs ih =>
    obtain ⟨n, rfl⟩ : ∃ m, n = m + 1 := ⟨n - 1, by rw [List.length_cons] at short; omega⟩
    obtain ⟨fresh, later⟩ := List.nodup_cons.1 apart
    have few : rs.length ≤ n := by rw [List.length_cons] at short; omega
    have other : ∀ q ∈ rs, q.kind.ix ≠ r.kind.ix := fun q hq =>
      FaultKind.ix_ne fun e => fresh (e ▸ List.mem_map_of_mem hq)
    rw [settleFor_report n s r rs [] a]
    have here := lone r (List.mem_cons_self ..)
    cases r with
    | cond k who present =>
      obtain ⟨_, off⟩ := here
      have kept := takeReport_quiet { s with agenda := ⟨rs, []⟩ } k who present fun on =>
        absurd (off.symm.trans on) Bool.false_ne_true
      have kept' : State.takeReport { s with agenda := ⟨rs, []⟩ } (.cond k who present) =
        State.valued { s with agenda := ⟨rs, []⟩ } k who present := kept
      rw [kept']
      obtain ⟨entries, beacon, marks, settled, once, same⟩ :=
        ih n (State.valued { s with agenda := ⟨rs, []⟩ } k who present) rfl
        installed (fun q hq => lone_of_entries s _ h q rfl (congrArg FaultEntry.state
          (valued_other { s with agenda := ⟨rs, []⟩ } k who present q.kind (other q hq)))
            (lone q (List.mem_cons_of_mem _ hq)))
        later few
      refine ⟨entries, beacon, marks, settled, fun j hj => ?_, fun j hj => ?_⟩
      · rcases List.mem_cons.1 hj with e | hj
        · cases e
        · exact once j hj
      · obtain ⟨away, later_away⟩ := not_or.1 fun n => hj (List.mem_cons.2 n)
        exact (same j later_away).trans (valued_other { s with agenda := ⟨rs, []⟩ } k who present j
          (FaultKind.ix_ne away))
    | occur k who =>
      obtain ⟨rfl, not_power, alone⟩ := here
      have taken := occurrence_alone { s with agenda := ⟨rs, []⟩ } k h installed alone
      show ∃ entries beacon marks, settleFor n (State.occurrence { s with agenda := ⟨rs, []⟩ } k (some h)) = _ ∧ _
      rw [taken]
      obtain ⟨entries, beacon, marks, settled, once, same⟩ :=
        ih n (State.struck { s with agenda := ⟨rs, []⟩ } k (some h)) rfl
        installed (fun q hq => lone_of_entries s _ h q rfl (congrArg FaultEntry.state
          (struck_other { s with agenda := ⟨rs, []⟩ } k q.kind (some h) (other q hq)))
            (lone q (List.mem_cons_of_mem _ hq)))
        later few
      refine ⟨entries, beacon, marks, settled, fun j hj => ?_, fun j hj => ?_⟩
      · rcases List.mem_cons.1 hj with e | hj
        · obtain ⟨rfl, _⟩ := FaultReport.occur.inj e
          refine struckEntry_latchedOnce { s with agenda := ⟨rs, []⟩ } _ j h not_power installed alone.1
            (State.struckEntry { s with agenda := ⟨rs, []⟩ } j (some h)).present ?_
          exact (same j fresh).trans (struck_entry { s with agenda := ⟨rs, []⟩ } j (some h))
        · exact once j hj
      · obtain ⟨away, later_away⟩ := not_or.1 fun n => hj (List.mem_cons.2 n)
        exact (same j later_away).trans (struck_other { s with agenda := ⟨rs, []⟩ } k j (some h) (FaultKind.ix_ne away))

/-! ### The channels (R104, R106) -/

theorem channelHoist_loadChannel (h : Hoist) : channelHoist? (loadChannel h) = some h := by
  revert h
  decide

theorem loadChannel_ne_temp (h : Hoist) : loadChannel h ≠ tempChannel := by
  revert h
  decide

theorem channel_set_same {α : Type} (v : Vector α 5) (c : Channel) (x : α) : (v.set c x)[c]'c.2 = x :=
  Vector.getElem_set_self c.isLt

theorem channel_set_ne {α : Type} (v : Vector α 5) (c d : Channel) (x : α) (other : d ≠ c) :
    (v.set c x)[d]'d.2 = v[d]'d.2 :=
  Vector.getElem_set_ne c.isLt d.isLt fun e => other (Fin.ext e.symm)

/-- A reading grown older by a period (R106). -/
def Chan.older (c : Chan) : Chan := { c with age := min 65535 (c.age + 10) }

theorem older_chans (w : WeighUnit) (c : Channel) : w.older.chans[c]'c.2 = (w.chans[c]'c.2).older :=
    Vector.getElem_map _ c.isLt

theorem store_chans (w : WeighUnit) (value count : Int) (c : Channel) : (w.older.store value count).chans[c]'c.2 =
    if c = w.chan then { w.chans[c]'c.2 with value := some value, raw := some count, age := 0 } else
    (w.chans[c]'c.2).older := by
  unfold WeighUnit.store
  by_cases here : c = w.chan
  · subst here
    rw [if_pos rfl]
    refine (channel_set_same _ w.chan _).trans ?_
    rw [show w.older.chans[w.older.chan]'w.older.chan.2 = (w.chans[w.chan]'w.chan.2).older from older_chans w w.chan]
    rfl
  · rw [if_neg here]
    exact (channel_set_ne _ w.chan c _ here).trans (older_chans w c)

theorem missedPeriod_chans (w : WeighUnit) (c : Channel) : w.older.missedPeriod.chans[c]'c.2 =
    { (w.chans[c]'c.2).older with
    missed := if c = w.chan ∧ (w.chans[c]'c.2).missed < 65535 then (w.chans[c]'c.2).missed + 1 else
    (w.chans[c]'c.2).missed } := by
  unfold WeighUnit.missedPeriod
  by_cases here : c = w.chan
  · subst here
    refine (channel_set_same _ w.chan _).trans ?_
    rw [show w.older.chans[w.older.chan]'w.older.chan.2 = (w.chans[w.chan]'w.chan.2).older from older_chans w w.chan]
    simp only [true_and]
    rfl
  · rw [if_neg fun n => here n.1]
    exact (channel_set_ne _ w.chan c _ here).trans (older_chans w c)

/-! ### The age checks (R121, R122) -/

/-- The reading-age check leaves a hoist that does not move, whose reading is young enough, or that is starved already. -/
theorem checkAge_passes (u : State) (h : Hoist)
    (passes : (u.ctxs[h]'h.2).state.moving = false ∨ u.wu.chans[loadChannel h].age ≤ u.kept.weigh.limits.ageLimit ∨
      (u.ctxs[h]'h.2).starved = true) : u.checkAge h = u := by
  refine if_neg ?_
  rcases passes with still | young | starved
  · rw [still]; simp
  · rw [decide_eq_false (Nat.not_lt.2 young)]; simp
  · rw [starved]; simp

theorem foldl_checkAge_passes (u : State) (l : List Hoist) (passes : ∀ h ∈ l, u.checkAge h = u) :
    l.foldl State.checkAge u = u := by
  induction l with
  | nil => rfl
  | cons h l ih =>
    rw [List.foldl_cons, passes h (List.mem_cons_self ..)]
    exact ih fun i hi => passes i (List.mem_cons_of_mem _ hi)

/-- The temperature is not just going stale. -/
def State.tempSettled (u : State) : Prop := ¬(5000 < (u.wu.chans[tempChannel]'tempChannel.2).age ∧
    (u.wu.chans[tempChannel]'tempChannel.2).age ≤ 5010)

theorem checkAges_passes (u : State) (passes : ∀ h : Hoist, u.checkAge h = u) (temp : u.tempSettled) :
    u.checkAges = u := by
  unfold State.checkAges
  dsimp only
  rw [foldl_checkAge_passes u _ fun h _ => passes h]
  exact if_neg temp

/-- The temperature's age after a period in which it is not sampled. -/
theorem tempSettled_of_older (u : State) (w : WeighUnit)
    (age : (u.wu.chans[tempChannel]'tempChannel.2).age = (w.chans[tempChannel]'tempChannel.2).older.age)
    (away : ¬(4990 < (w.chans[tempChannel]'tempChannel.2).age ∧ (w.chans[tempChannel]'tempChannel.2).age ≤ 5000)) :
    u.tempSettled := by
  unfold State.tempSettled
  rw [age]
  unfold Chan.older
  dsimp only
  omega

/-! ### The next period (R107 to R112) -/

/-- The Weighing Unit with the channel of the next period chosen, from the machine a period's checks leave. -/
def State.nextWu (u : State) (count : Option Int) (accepted : Bool) : WeighUnit :=
  if count.isNone then u.afterMissed.wu else (u.nextPeriod accepted).wu

/-- What the choice of the next channel leaves of the Weighing Unit. -/
structure Chosen (w w' : WeighUnit) : Prop where
  chans : w'.chans = w.chans
  settled : w'.settled = w.settled
  bath : w'.bath = w.bath
  record : w'.record = w.record
  queue : w'.queue = w.queue

theorem afterMissed_eq (u : State) : u.afterMissed = { u with wu := u.afterMissed.wu } := by
  unfold State.afterMissed
  split <;> rfl

theorem nextPeriod_eq (u : State) (accepted : Bool) :
    u.nextPeriod accepted = { u with wu := (u.nextPeriod accepted).wu } := by
  unfold State.nextPeriod
  split <;> rfl

theorem nextWu_chosen (u : State) (count : Option Int) (accepted : Bool) : Chosen u.wu (u.nextWu count accepted) := by
  unfold State.nextWu
  split
  · unfold State.afterMissed
    split <;> exact ⟨rfl, rfl, rfl, rfl, rfl⟩
  · unfold State.nextPeriod
    split <;> exact ⟨rfl, rfl, rfl, rfl, rfl⟩

/-- A sample period's end, from the machine `u` that its checks and what follows from them leave. -/
theorem samplePeriodEnd_next (s u : State) (count : Option Int) (live : s.ready)
    (checked : (s.takeCount count).checkAges.settle = u) (idle : u.agenda = Agenda.empty) : ∃ link,
    exec (.samplePeriodEnd count) s = .next { u with
      wu := u.nextWu count (count.isSome && s.wu.settled == some s.wu.chan), link := link } := by
  have ended : s.periodEnd count =
      { u with wu := u.nextWu count (count.isSome && s.wu.settled == some s.wu.chan) } := by
    unfold State.periodEnd State.nextWu
    dsimp only
    rw [checked]
    split
    · exact afterMissed_eq u
    · exact nextPeriod_eq u _
  obtain ⟨link, finished, _⟩ := finish_quiet (s.periodEnd count) [] [] [] (by rw [ended]; exact idle) trivial
    (fun _ hy => nomatch hy) (Nat.zero_le 200)
  rw [owing_nil, ended] at finished
  refine ⟨link, congrArg Host.Outcome.next ((whileRunning_of_ready s _ live).trans ?_)⟩
  rw [ended, finished]
  show _ = { u with wu := _, link := link }
  rw [← idle]
  rfl

/-- A period whose checks leave nothing to do. -/
theorem samplePeriodEnd_quiet (s u : State) (count : Option Int) (live : s.ready) (taken : s.takeCount count = u)
    (passes : ∀ h : Hoist, u.checkAge h = u) (temp : u.tempSettled) (idle : u.agenda = Agenda.empty) : ∃ link,
    exec (.samplePeriodEnd count) s = .next { u with
      wu := u.nextWu count (count.isSome && s.wu.settled == some s.wu.chan), link := link } := by
  refine samplePeriodEnd_next s u count live ?_ idle
  rw [taken, checkAges_passes u passes temp]
  exact settleFor_of_empty _ u idle

/-! ### The count of a period (R104, R106) -/

/-- The machine after a missed period. -/
def State.missed (s : State) : State := { s with wu := s.wu.older.missedPeriod }

theorem takeCount_missed (s : State) : s.takeCount none = s.missed := rfl

theorem missed_nextWu (u : State) (accepted : Bool) : (u.nextWu none accepted).chan = u.wu.chan ∧
    (u.wu.service = none → u.wu.queue = [] → (u.nextWu none accepted).service = none) ∧
    (u.wu.service = none → ∀ q rest, u.wu.queue = q :: rest →
      (u.nextWu none accepted).service = some (u.beginService q)) := by
  have missed : u.nextWu none accepted = u.afterMissed.wu := rfl
  rw [missed]
  unfold State.afterMissed
  refine ⟨?_, fun unserved empty => ?_, fun unserved q rest queued => ?_⟩
  · split <;> rfl
  · rw [unserved, empty]
    exact unserved
  · rw [unserved, queued]
    rfl

/-- The machine after a switch period. -/
def State.switched (s : State) : State := { s with wu := { s.wu.older with settled := some s.wu.chan } }

theorem takeCount_switched (s : State) (n : Int) (switch : s.wu.settled ≠ some s.wu.chan) :
    s.takeCount (some n) = s.switched := if_neg switch

/-- The machine with a sample of a load stored, before it is delivered. -/
def State.sampled (s : State) (value count : Int) : State := { s with wu := s.wu.older.store value count }

theorem takeCount_load (s : State) (n : Int) (h : Hoist) (settled : s.wu.settled = some s.wu.chan)
    (chan : s.wu.chan = loadChannel h) : s.takeCount (some n) =
      ((s.sampled (toLoad (s.kept.weigh.calib[h]'h.2) n) n).deliverSample h (toLoad (s.kept.weigh.calib[h]'h.2)
        n)).windowSample h
        (toLoad (s.kept.weigh.calib[h]'h.2) n) := by
  have value : State.convert s s.wu.chan n = toLoad (s.kept.weigh.calib[h]'h.2) n := by
    unfold State.convert
    rw [chan, channelHoist_loadChannel]
  refine (if_pos settled).trans ?_
  unfold State.acceptSample
  dsimp only
  have here : (s.modWu WeighUnit.older).wu.chan = loadChannel h := chan
  rw [here, channelHoist_loadChannel, ← chan]
  have same : State.convert (s.modWu WeighUnit.older) s.wu.chan n = toLoad (s.kept.weigh.calib[h]'h.2) n := value
  rw [same]
  rfl

theorem takeCount_temp (s : State) (n : Int) (settled : s.wu.settled = some s.wu.chan)
    (chan : s.wu.chan = tempChannel) :
    s.takeCount (some n) = (s.sampled n n).evaluateBath := by
  refine (if_pos settled).trans ?_
  unfold State.acceptSample
  dsimp only
  have here : (s.modWu WeighUnit.older).wu.chan = tempChannel := chan
  have none_there : channelHoist? tempChannel = none := rfl
  unfold State.convert
  rw [here, none_there]
  rfl

end Sys2Proof.Machine
end

section
/-! A sample of a load over the kettle: the contact with its capture and its depth, the snag and load-lost marks with their
faults (R32, R39, R69, R119, R120). -/

namespace Sys2Proof.Machine

set_option Elab.async false

/-! ### The contact (R32) -/

/-- The retained area with the surface depth of a contact booked, where the pass has an entry (R69). -/
def Retained.surfaced (r : Retained) (seq : Option Nat) (depth : Nat) : Retained :=
  seq.elim r fun n => r.revise .pickup n fun e => { e with surface := some depth }

/-- The message that reports a contact to the Level Unit (R32). -/
def State.captureOf (s : State) (h : Hoist) (x : Site) (tag : Nat) (p : Pass) (drop : Nat) : Capture :=
  { hoist := h, tag := tag, pass := p, position := x.drive.count, drop := drop, depth := x.drive.count + drop,
    time := s.tenthsCount, displaced := false }

/-- A dip context whose load has touched the zinc. -/
def DipCtx.touching (c : DipCtx) : DipCtx := { c with contact := true, clock := ⟨.running, 0⟩ }

/-- The part of a hoist whose load has touched the zinc. -/
def State.contactSite (s : State) (h : Hoist) (x : Site) (tag : Nat) (p : Pass) (drop : Nat) : Site :=
  { s.ctxSite x h x.ctx.touching with
    mail := { x.mail with level := (x.mail.shown x.ctx x.ctx.touching).level ++
                          [.capture (s.captureOf h x tag p drop)] } }

theorem putSite_modKept (s : State) (h : Hoist) (x : Site) (f : Retained → Retained) :
    (s.putSite h x).modKept f = State.putSite { s with kept := f s.kept } h x := rfl

theorem putSite_contactSeen (s : State) (h : Hoist) (x : Site) (tag : Nat) (p : Pass) (drop : Nat) :
    (s.putSite h x).contactSeen h tag p drop =
      State.putSite { s with kept := s.kept.surfaced x.ctx.entrySeq (x.drive.count + drop) } h
        (s.contactSite h x tag p drop) := by
  have seen : ((s.putSite h x).putCtx h { (s.putSite h x).ctxs[h]'h.2 with contact := true, clock := ⟨.running, 0⟩ }) =
      s.putSite h (s.ctxSite x h x.ctx.touching) := by
    rw [putSite_ctx]
    exact putSite_putCtx_site s h x x.ctx.touching
  unfold State.contactSeen
  dsimp only
  rw [seen, putSite_modMail, putSite_ctx, putSite_drive]
  have entry : (s.ctxSite x h x.ctx.touching).ctx.entrySeq = x.ctx.entrySeq := rfl
  rw [entry]
  cases x.ctx.entrySeq with
  | none => rfl
  | some n => rfl

/-- The contact of a sample: in LOWERING, the first one past the contact limit (R32). -/
def State.touches (s : State) (c : DipCtx) (v w : Int) : Bool :=
  c.state == .lowering && !c.contact && decide (s.kept.weigh.limits.contact < w - v)

theorem putSite_checkContact (s : State) (h : Hoist) (x : Site) (v w : Int) (o : OrderRef) (p : Pass) (r : PassRec)
    (weighIn : x.ctx.weighIn = some w) (ordered : x.ctx.order = some o) (passed : x.ctx.pass = some p)
    (found : (s.putSite h x).passOf h = some r) : (s.putSite h x).checkContact h v =
      if s.touches x.ctx v w = true then (s.putSite h x).contactSeen h o.tag p r.drop else s.putSite h x := by
  unfold State.checkContact
  simp only [putSite_ctx, weighIn, ordered, passed, found]
  refine if_congr ?_ rfl rfl
  unfold State.touches
  rw [putSite_kept]
  simp only [Bool.and_eq_true, beq_iff_eq, Bool.not_eq_true', decide_eq_true_eq, and_assoc]

/-! ### The snag and load-lost checks (R119, R120) -/

/-- The report of an occurrence at a hoist where there is one. -/
def raised (now : Bool) (k : FaultKind) (h : Hoist) : List FaultReport := if now then [.occur k (some h)] else []

/-- The part of a hoist after the snag check of a sample, `above` its limit or not. -/
def Site.snagChecked (x : Site) (h : Hoist) (above : Bool) : Site :=
  { x with ctx := { x.ctx with snag := above },
           agenda := ⟨x.agenda.reports ++ raised (above && !x.ctx.snag) .snag h, x.agenda.follow⟩ }

/-- The part of a hoist after the load-lost check of a sample, `under` its limit or not. -/
def Site.lostChecked (x : Site) (h : Hoist) (under : Bool) : Site :=
  { x with ctx := { x.ctx with lost := under },
           agenda := ⟨x.agenda.reports ++ raised (under && !x.ctx.lost) .loadLost h, x.agenda.follow⟩ }

theorem putSite_checkSnag (s : State) (h : Hoist) (x : Site) (v w : Int) : (s.putSite h x).checkSnag h v w =
    s.putSite h (x.snagChecked h (decide (w + s.kept.weigh.limits.snag < v))) := by
  unfold State.checkSnag Site.snagChecked raised
  rw [putSite_ctx, putSite_kept, putSite_modCtx, putSite_modCtx, putSite_raise]
  by_cases above : w + s.kept.weigh.limits.snag < v
  · rw [if_pos above, decide_eq_true above]
    cases snagged : x.ctx.snag with
    | true =>
      simp only [if_true, Bool.not_true, Bool.and_false, Bool.false_eq_true, if_false, List.append_nil]
      rw [← snagged]
    | false => rfl
  · rw [if_neg above, decide_eq_false above]
    simp only [Bool.false_and, Bool.false_eq_true, if_false, List.append_nil]

theorem putSite_checkLost (s : State) (h : Hoist) (x : Site) (v : Int) : (s.putSite h x).checkLost h v =
    s.putSite h (x.lostChecked h (decide (v < s.kept.weigh.limits.slack))) := by
  unfold State.checkLost Site.lostChecked raised
  rw [putSite_ctx, putSite_kept, putSite_modCtx, putSite_modCtx, putSite_raise]
  by_cases under : v < s.kept.weigh.limits.slack
  · rw [if_pos under, decide_eq_true under]
    cases lost : x.ctx.lost with
    | true =>
      simp only [if_true, Bool.not_true, Bool.and_false, Bool.false_eq_true, if_false, List.append_nil]
      rw [← lost]
    | false => rfl
  · rw [if_neg under, decide_eq_false under]
    simp only [Bool.false_and, Bool.false_eq_true, if_false, List.append_nil]

/-! ### A sample delivered over the kettle (R39) -/

/-- The part of a hoist a sample is delivered to, its starved mark gone (R121). -/
def State.freshSite (s : State) (h : Hoist) : Site := s.ctxOnly h { s.ctxs[h]'h.2 with starved := false }

/-- A sample in a monitored state of a pass (R39). -/
structure Sampling (s : State) (h : Hoist) (x w : Int) (o : OrderRef) (p : Pass) (r : PassRec) : Prop where
  live : s.ready
  monitored : (s.ctxs[h]'h.2).state.monitored = true
  weighIn : (s.ctxs[h]'h.2).weighIn = some w
  latched : (s.ctxs[h]'h.2).latched.isSome = true
  ordered : (s.ctxs[h]'h.2).order = some o
  passed : (s.ctxs[h]'h.2).pass = some p
  found : s.passOf h = some r
  clear : s.touches (s.ctxs[h]'h.2) x w = true → s.stationClear h

/-- The retained area after a sample, the depth of a contact booked. -/
def State.sampleKept (s : State) (h : Hoist) (x w : Int) (r : PassRec) : Retained :=
  if s.touches (s.ctxs[h]'h.2) x w = true then s.kept.surfaced (s.ctxs[h]'h.2).entrySeq
    ((s.drives[h]'h.2).count + r.drop) else s.kept

/-- The part of a hoist after the contact check of a sample. -/
def State.contactChecked (s : State) (h : Hoist) (x w : Int) (o : OrderRef) (p : Pass) (r : PassRec) : Site :=
  if s.touches (s.ctxs[h]'h.2) x w = true then s.contactSite h (s.freshSite h) o.tag p r.drop else s.freshSite h

/-- The part of a hoist after all checks of a sample. -/
def State.sampleSite (s : State) (h : Hoist) (x w : Int) (o : OrderRef) (p : Pass) (r : PassRec) : Site :=
  ((s.contactChecked h x w o p r).snagChecked h (decide (w + s.kept.weigh.limits.snag < x))).lostChecked h
    (decide (x < s.kept.weigh.limits.slack))

section
variable {s : State} {h : Hoist} {x w : Int} {o : OrderRef} {p : Pass} {r : PassRec}

theorem revise_weigh (k : Retained) (e : EntryKind) (n : Nat) (f : Entry → Entry) :
    k.revise e n f = { k with journal := (k.revise e n f).journal, inventory := (k.revise e n f).inventory,
                              totals := (k.revise e n f).totals } := rfl

theorem surfaced_settings (k : Retained) (seq : Option Nat) (depth : Nat) :
    (k.surfaced seq depth).weigh = k.weigh ∧ (k.surfaced seq depth).faults = k.faults := by
  cases seq <;> exact ⟨rfl, rfl⟩

theorem sampleKept_settings (s : State) (h : Hoist) (x w : Int) (r : PassRec) :
    (s.sampleKept h x w r).weigh = s.kept.weigh ∧ (s.sampleKept h x w r).faults = s.kept.faults := by
  unfold State.sampleKept
  split
  · exact surfaced_settings _ _ _
  · exact ⟨rfl, rfl⟩

/-- What the contact check makes of the dip context. -/
theorem contactChecked_ctx (s : State) (h : Hoist) (x w : Int) (o : OrderRef) (p : Pass) (r : PassRec) :
    (s.contactChecked h x w o p r).ctx = { s.ctxs[h]'h.2 with
      contact := (s.ctxs[h]'h.2).contact || s.touches (s.ctxs[h]'h.2) x w,
      clock := if s.touches (s.ctxs[h]'h.2) x w then ⟨.running, 0⟩ else (s.ctxs[h]'h.2).clock, starved := false } := by
  unfold State.contactChecked
  cases touch : s.touches (s.ctxs[h]'h.2) x w with
  | true =>
    simp only [if_true, Bool.or_true]
    rfl
  | false =>
    simp only [Bool.false_eq_true, if_false, Bool.or_false]
    rfl

theorem Sampling.delivers (g : Sampling s h x w o p r) :
    s.deliverSample h x = State.putSite { s with kept := s.sampleKept h x w r } h (s.sampleSite h x w o p r) := by
  have fresh : s.modCtx h (fun c => { c with starved := false }) = s.putSite h (s.freshSite h) := modCtx_eq s h _
  have contact : (s.putSite h (s.freshSite h)).checkContact h x =
      State.putSite { s with kept := s.sampleKept h x w r } h (s.contactChecked h x w o p r) := by
    rw [putSite_checkContact s h (s.freshSite h) x w o p r g.weighIn g.ordered g.passed
      ((putSite_passOf s h _ rfl rfl).trans g.found)]
    have same : s.touches (s.freshSite h).ctx x w = s.touches (s.ctxs[h]'h.2) x w := rfl
    rw [same]
    unfold State.sampleKept State.contactChecked
    split
    · exact putSite_contactSeen s h (s.freshSite h) o.tag p r.drop
    · rfl
  have ctx := contactChecked_ctx s h x w o p r
  have watches : ((s.contactChecked h x w o p r).ctx.state.monitored &&
    (s.contactChecked h x w o p r).ctx.latched.isSome) =
      true := by
    rw [ctx]
    exact Bool.and_eq_true_iff.2 ⟨g.monitored, g.latched⟩
  have weighed : (s.contactChecked h x w o p r).ctx.weighIn = some w := by
    rw [ctx]
    exact g.weighIn
  unfold State.deliverSample
  dsimp only
  rw [fresh, contact, putSite_ctx, weighed]
  refine (if_pos watches).trans ?_
  rw [putSite_checkSnag, putSite_checkLost]
  unfold State.sampleSite
  rw [show (State.mk _ _ _ (s.sampleKept h x w r) _ _ _ _ _ _ _ _ _ _ _ _ _ _ _ _ _ _ _ _ _ _ _).kept.weigh =
    s.kept.weigh from
    (sampleKept_settings s h x w r).1]

end

end Sys2Proof.Machine
end

section
/-! A sample period that ends with a sample of a load over the kettle (R32, R39, R106, R119, R120). -/

namespace Sys2Proof.Machine

set_option Elab.async false

theorem kinds_raised (now : Bool) (k : FaultKind) (h : Hoist) :
    (raised now k h).map FaultReport.kind = if now then [k] else [] := by
  cases now <;> rfl

theorem mem_raised (now : Bool) (k : FaultKind) (h : Hoist) (r : FaultReport) (m : r ∈ raised now k h) :
    r = .occur k (some h) ∧ now = true := by
  cases now with
  | true => exact ⟨List.mem_singleton.1 m, rfl⟩
  | false => exact absurd m List.not_mem_nil

theorem windowSample_other (u : State) (h : Hoist) (x : Int) (apart : ∀ v, u.wu.service = some v → v.req.hoist ≠ h) :
    u.windowSample h x = u := by
  unfold State.windowSample
  split
  · rename_i v served
    exact if_neg fun n => apart v served n.1
  · rfl

/-! ### What a sample leaves to be reported (R119, R120) -/

/-- The reports that the checks of a sample make. -/
def sampleReports (base : List FaultReport) (h : Hoist) (snag lost : Bool) : List FaultReport :=
  base ++ raised snag .snag h ++ raised lost .loadLost h

theorem sampleReports_nodup (base : List FaultReport) (h : Hoist) (snag lost : Bool)
    (plain : base = [] ∨ base = absentConds h) :
    ((sampleReports base h snag lost).map FaultReport.kind).Nodup := by
  unfold sampleReports
  rw [List.map_append, List.map_append, kinds_raised, kinds_raised]
  rcases plain with rfl | rfl
  · cases snag <;> cases lost <;> decide
  · have kinds : (absentConds h).map FaultReport.kind = [.alignLost, .areaBreach] := rfl
    rw [kinds]
    cases snag <;> cases lost <;> decide

theorem sampleReports_length (base : List FaultReport) (h : Hoist) (snag lost : Bool)
    (plain : base = [] ∨ base = absentConds h) : (sampleReports base h snag lost).length ≤ 4 := by
  rcases plain with rfl | rfl <;> cases snag <;> cases lost <;> decide +revert

theorem sampleReports_spares (base : List FaultReport) (h : Hoist) (snag lost : Bool)
    (plain : base = [] ∨ base = absentConds h) (k : FaultKind) (away : k ≠ .alignLost ∧ k ≠ .areaBreach)
    (no_snag : k = .snag → snag = false) (no_loss : k = .loadLost → lost = false) :
    k ∉ (sampleReports base h snag lost).map FaultReport.kind := by
  unfold sampleReports
  rw [List.map_append, List.map_append, kinds_raised, kinds_raised]
  intro m
  rcases List.mem_append.1 m with m | m
  · rcases List.mem_append.1 m with m | m
    · rcases plain with rfl | rfl
      · cases m
      · rcases List.mem_cons.1 m with e | m
        · exact away.1 e
        · exact away.2 (List.mem_singleton.1 m)
    · cases snag with
      | false => cases m
      | true => exact Bool.noConfusion (no_snag (List.mem_singleton.1 m))
  · cases lost with
    | false => cases m
    | true => exact Bool.noConfusion (no_loss (List.mem_singleton.1 m))

theorem sampleReports_lone (s : State) (base : List FaultReport) (h : Hoist) (snag lost : Bool)
    (plain : base = [] ∨ base = absentConds h) (snag_alone : snag = true → s.latchesAlone .snag)
    (lost_alone : lost = true → s.latchesAlone .loadLost) : ∀ q ∈ sampleReports base h snag lost, q.lone s h := by
  intro q hq
  rcases List.mem_append.1 hq with m | m
  · rcases List.mem_append.1 m with m | m
    · rcases plain with rfl | rfl
      · cases m
      · rcases List.mem_cons.1 m with rfl | m
        · exact ⟨rfl, rfl⟩
        · rw [List.mem_singleton.1 m]
          exact ⟨rfl, rfl⟩
    · obtain ⟨rfl, now⟩ := mem_raised _ _ _ _ m
      exact ⟨rfl, (fun e => nomatch e), snag_alone now⟩
  · obtain ⟨rfl, now⟩ := mem_raised _ _ _ _ m
    exact ⟨rfl, (fun e => nomatch e), lost_alone now⟩

section
variable {s : State} {h : Hoist} {x w : Int} {o : OrderRef} {p : Pass} {r : PassRec}

theorem Sampling.agenda (g : Sampling s h x w o p r) : ∃ base, (base = [] ∨ base = absentConds h) ∧
    (s.sampleSite h x w o p r).agenda = ⟨sampleReports base h (decide (w + s.kept.weigh.limits.snag < x) &&
      !(s.ctxs[h]'h.2).snag)
      (decide (x < s.kept.weigh.limits.slack) && !(s.ctxs[h]'h.2).lost), []⟩ := by
  have idle : (s.freshSite h).agenda = Agenda.empty := g.live.2
  have ctx := contactChecked_ctx s h x w o p r
  have checked : ∃ base, (base = [] ∨ base = absentConds h) ∧ (s.contactChecked h x w o p r).agenda = ⟨base, []⟩ := by
    unfold State.contactChecked
    split
    · rename_i touch
      refine ⟨absentConds h, .inr rfl, ?_⟩
      unfold State.contactSite State.ctxSite
      rw [idle]
      refine congrArg (fun l => Agenda.mk l []) ?_
      exact conds_of_unwatched s h _ _ (unwatched_of_clear s h _ (g.clear touch))
    · exact ⟨[], .inl rfl, idle⟩
  obtain ⟨base, plain, agenda⟩ := checked
  refine ⟨base, plain, ?_⟩
  unfold State.sampleSite Site.lostChecked Site.snagChecked sampleReports
  dsimp only
  rw [agenda, ctx]

/-- What the checks of a sample make of the dip context. -/
theorem sampleSite_ctx (s : State) (h : Hoist) (x w : Int) (o : OrderRef) (p : Pass) (r : PassRec) :
    (s.sampleSite h x w o p r).ctx = { s.ctxs[h]'h.2 with
      contact := (s.ctxs[h]'h.2).contact || s.touches (s.ctxs[h]'h.2) x w,
      clock := if s.touches (s.ctxs[h]'h.2) x w then ⟨.running, 0⟩ else (s.ctxs[h]'h.2).clock,
      snag := decide (w + s.kept.weigh.limits.snag < x), lost := decide (x < s.kept.weigh.limits.slack),
      starved := false } := by
  unfold State.sampleSite Site.lostChecked Site.snagChecked
  dsimp only
  rw [contactChecked_ctx]

theorem sampleSite_mail (s : State) (h : Hoist) (x w : Int) (o : OrderRef) (p : Pass) (r : PassRec) :
    (s.sampleSite h x w o p r).mail = (s.contactChecked h x w o p r).mail := rfl

theorem sampleSite_drive (s : State) (h : Hoist) (x w : Int) (o : OrderRef) (p : Pass) (r : PassRec) :
    (s.sampleSite h x w o p r).drive = (s.contactChecked h x w o p r).drive := rfl

theorem contactChecked_wet (s : State) (h : Hoist) (x w : Int) (o : OrderRef) (p : Pass) (r : PassRec)
    (wet : s.touches (s.ctxs[h]'h.2) x w = true) :
    s.contactChecked h x w o p r = s.contactSite h (s.freshSite h) o.tag p r.drop := if_pos wet

theorem contactChecked_dry (s : State) (h : Hoist) (x w : Int) (o : OrderRef) (p : Pass) (r : PassRec)
    (dry : s.touches (s.ctxs[h]'h.2) x w = false) : s.contactChecked h x w o p r = s.freshSite h :=
  if_neg (by rw [dry]; decide)

/-- The message of a contact, after the change of the view (R129). -/
theorem contactSite_mail (s : State) (h : Hoist) (o : OrderRef) (p : Pass) (drop : Nat)
    (lowering : (s.ctxs[h]'h.2).state = .lowering)
    (untouched : (s.ctxs[h]'h.2).contact = false) : (s.contactSite h (s.freshSite h) o.tag p drop).mail =
      { s.mail[h]'h.2 with level := (s.mail[h]'h.2).level ++
        [.view { state := .lowering, heldFrom := (s.ctxs[h]'h.2).heldFrom, contact := true, recalLoad := false },
         .capture { hoist := h, tag := o.tag, pass := p, position := (s.drives[h]'h.2).count, drop := drop,
                    depth := (s.drives[h]'h.2).count + drop, time := s.kept.runtime * 10 + s.tenths,
                    displaced := false }] } := by
  have recal : (s.freshSite h).ctx.touching.recalLoad = false := by
    have effective : (s.ctxs[h]'h.2).effective = .lowering :=
      (effective_of_not_held _ (by rw [lowering]; decide)).trans lowering
    have e : ((s.ctxs[h]'h.2).effective == .recal && (s.ctxs[h]'h.2).ret.isNone) = false := by rw [effective]; rfl
    exact e
  have view : (s.freshSite h).ctx.touching.view =
      { state := .lowering, heldFrom := (s.ctxs[h]'h.2).heldFrom, contact := true, recalLoad := false } := by
    unfold DipCtx.view
    rw [recal]
    have state : (s.freshSite h).ctx.touching.state = .lowering := lowering
    rw [state]
    rfl
  have shows : (s.freshSite h).ctx.view ≠ (s.freshSite h).ctx.touching.view := by
    intro e
    have same : (s.ctxs[h]'h.2).contact = true := congrArg HoistView.contact e
    rw [untouched] at same
    cases same
  unfold State.contactSite Mail.shown
  dsimp only
  rw [if_neg shows, view, List.append_assoc]
  rfl

theorem surfaced_kept (k : Retained) (seq : Option Nat) (depth : Nat) :
    k.surfaced seq depth =
      { k with journal := (k.surfaced seq depth).journal, totals := (k.surfaced seq depth).totals } := by
  cases seq with
  | none => rfl
  | some n =>
    have same : (k.revise .pickup n fun e => { e with surface := some depth }).inventory = k.inventory := by
      have still : ∀ l : List Entry, (reviseFirst (fun e => e.seq == n && !e.final && e.kind == .pickup)
          (fun e => { e with surface := some depth }) l).2 = 0 := by
        intro l
        induction l with
        | nil => rfl
        | cons e l ih =>
          unfold reviseFirst
          split
          · exact Int.sub_self _
          · exact ih
      exact (congrArg (k.inventory + ·) (still k.journal)).trans (Int.add_zero _)
    refine (revise_weigh k .pickup n _).trans ?_
    rw [same]
    rfl

theorem surfaced_at (k : Retained) (depth : Nat) (pre post : List Entry) (e : Entry)
    (journal : k.journal = pre ++ e :: post)
    (first : ∀ y ∈ pre, y.seq ≠ e.seq) (kind : e.kind = .pickup) (open_ : e.final = false) :
    (k.surfaced (some e.seq) depth).journal = pre ++ { e with surface := some depth } :: post := by
  have found := reviseFirst_at (fun x : Entry => x.seq == e.seq && !x.final && x.kind == .pickup)
    (fun x => { x with surface := some depth }) pre post e
    (fun x hx => by rw [beq_false_of_ne (first x hx)]; rfl) (by rw [kind, open_, beq_self_eq_true]; rfl)
  show (reviseFirst _ _ k.journal).1 = _
  rw [journal, found]

end

/-! ### The end of the period (R106) -/

/-- A sample of a load over the kettle, at the end of its period. -/
structure Sampled (s : State) (h : Hoist) (n x w : Int) (o : OrderRef) (p : Pass) (r : PassRec) : Prop where
  sampling : Sampling s h x w o p r
  installed : s.installed h = true
  temp : ¬(4990 < (s.wu.chans[tempChannel]'tempChannel.2).age ∧ (s.wu.chans[tempChannel]'tempChannel.2).age ≤ 5000)
  still : ∀ i : Hoist, i ≠ h → (s.ctxs[i]'i.2).state.moving = false
  settled : s.wu.settled = some s.wu.chan
  chan : s.wu.chan = loadChannel h
  value : x = toLoad (s.kept.weigh.calib[h]'h.2) n
  apart : ∀ v, s.wu.service = some v → v.req.hoist ≠ h
  snag_alone : w + s.kept.weigh.limits.snag < x → (s.ctxs[h]'h.2).snag = false → s.latchesAlone .snag
  lost_alone : x < s.kept.weigh.limits.slack → (s.ctxs[h]'h.2).lost = false → s.latchesAlone .loadLost

/-- The machine after a sample of a load over the kettle, its reports not yet taken. -/
def State.sampleTaken (s : State) (h : Hoist) (n x w : Int) (o : OrderRef) (p : Pass) (r : PassRec) : State :=
  State.putSite { s with wu := s.wu.older.store x n, kept := s.sampleKept h x w r } h (s.sampleSite h x w o p r)

section
variable {s : State} {h : Hoist} {n x w : Int} {o : OrderRef} {p : Pass} {r : PassRec}

theorem Sampled.taken (g : Sampled s h n x w o p r) : s.takeCount (some n) = s.sampleTaken h n x w o p r := by
  have sampling : Sampling (s.sampled x n) h x w o p r :=
    ⟨g.sampling.live, g.sampling.monitored, g.sampling.weighIn, g.sampling.latched, g.sampling.ordered,
      g.sampling.passed,
      g.sampling.found, g.sampling.clear⟩
  rw [takeCount_load s n h g.settled g.chan, ← g.value, sampling.delivers]
  exact windowSample_other _ h x g.apart

theorem Sampled.passes (g : Sampled s h n x w o p r) : (s.sampleTaken h n x w o p r).checkAges =
    s.sampleTaken h n x w o p r := by
  refine checkAges_passes _ (fun i => checkAge_passes _ i ?_) (tempSettled_of_older _ s.wu ?_ g.temp)
  · by_cases e : i = h
    · subst e
      refine .inr (.inl ?_)
      have young : (s.wu.older.store x n).chans[loadChannel i].age = 0 := by
        rw [store_chans, if_pos g.chan.symm]
      show (s.wu.older.store x n).chans[loadChannel i].age ≤ _
      rw [young]
      exact Nat.zero_le _
    · refine .inl ?_
      have same : (s.sampleTaken h n x w o p r).ctxs[i]'i.2 = s.ctxs[i]'i.2 := hoist_set_ne _ h i _ e
      rw [same]
      exact g.still i e
  · show ((s.wu.older.store x n).chans[tempChannel]'tempChannel.2).age = _
    rw [store_chans, if_neg]
    rw [g.chan]
    exact (loadChannel_ne_temp h).symm

theorem Sampled.next (g : Sampled s h n x w o p r) : ∃ entries beacon link wu,
    exec (.samplePeriodEnd (some n)) s = .next { s.sampleTaken h n x w o p r with
      entries := entries, beaconT := beacon, link := link, wu := wu, agenda := s.agenda } ∧
    (∀ k : FaultKind, k ≠ .alignLost ∧ k ≠ .areaBreach →
      (k = .snag → x ≤ w + s.kept.weigh.limits.snag ∨ (s.ctxs[h]'h.2).snag = true) →
      (k = .loadLost → s.kept.weigh.limits.slack ≤ x ∨ (s.ctxs[h]'h.2).lost = true) →
      entries[k.ix]'k.ix.2 = s.entries[k.ix]'k.ix.2) ∧
    (w + s.kept.weigh.limits.snag < x → (s.ctxs[h]'h.2).snag = false →
      State.latchedOnce { s with entries := entries } .snag (some h)) ∧
    (x < s.kept.weigh.limits.slack → (s.ctxs[h]'h.2).lost = false →
      State.latchedOnce { s with entries := entries } .loadLost (some h)) := by
  obtain ⟨base, plain, agenda⟩ := g.sampling.agenda
  have lone := sampleReports_lone s base h (decide (w + s.kept.weigh.limits.snag < x) && !(s.ctxs[h]'h.2).snag)
    (decide (x < s.kept.weigh.limits.slack) && !(s.ctxs[h]'h.2).lost) plain
    (fun now => by
      rw [Bool.and_eq_true, decide_eq_true_eq, Bool.not_eq_true'] at now
      exact g.snag_alone now.1 now.2)
    (fun now => by
      rw [Bool.and_eq_true, decide_eq_true_eq, Bool.not_eq_true'] at now
      exact g.lost_alone now.1 now.2)
  obtain ⟨entries, beacon, marks, settled, once, same⟩ :=
    settleFor_lone Config.agendaBound (s.sampleTaken h n x w o p r) h _
    agenda g.installed (fun q hq => lone_of_entries s _ h q (sampleKept_settings s h x w r).2 rfl (lone q hq))
    (sampleReports_nodup base h _ _ plain) ((sampleReports_length base h _ _ plain).trans (by decide))
  obtain ⟨link, step⟩ := samplePeriodEnd_next s { s.sampleTaken h n x w o p r with
    entries := entries, beaconT := beacon, link := { s.link with marks := marks }, agenda := Agenda.empty } (some n)
    g.sampling.live ((congrArg State.settle ((congrArg State.checkAges g.taken).trans g.passes)).trans settled) rfl
  have idle : Agenda.empty = s.agenda := g.sampling.live.2.symm
  rw [idle] at step
  refine ⟨entries, beacon, link, _, step, fun k away snagged lost => ?_, fun above fresh => ?_, fun below fresh => ?_⟩
  · refine same k (sampleReports_spares base h _ _ plain k away (fun e => ?_) fun e => ?_)
    · rcases snagged e with n | n
      · rw [decide_eq_false (Int.not_lt.2 n)]; rfl
      · rw [n]; simp
    · rcases lost e with n | n
      · rw [decide_eq_false (Int.not_lt.2 n)]; rfl
      · rw [n]; simp
  · refine once .snag (List.mem_append_left _ (List.mem_append_right _ ?_))
    rw [decide_eq_true above, fresh]
    exact List.mem_singleton.2 rfl
  · refine once .loadLost (List.mem_append_right _ ?_)
    rw [decide_eq_true below, fresh]
    exact List.mem_singleton.2 rfl

/-- What the statement asks of a sample over the kettle. -/
theorem Sampled.checks (g : Sampled s h n x w o p r) (touch : Bool) (touched : touch = s.touches (s.ctxs[h]'h.2) x w) :
    ∃ t, exec (.samplePeriodEnd (some n)) s = .next t ∧
      t = { s with kept := t.kept, ctxs := t.ctxs, drives := t.drives, wu := t.wu, mail := t.mail, entries := t.entries,
                   beaconT := t.beaconT, link := t.link } ∧
      t.ctxs[h]'h.2 = { s.ctxs[h]'h.2 with
        contact := (s.ctxs[h]'h.2).contact || touch, clock := if touch then ⟨.running, 0⟩ else (s.ctxs[h]'h.2).clock,
        snag := decide (w + s.kept.weigh.limits.snag < x), lost := decide (x < s.kept.weigh.limits.slack),
        starved := false } ∧
      (w + s.kept.weigh.limits.snag < x → (s.ctxs[h]'h.2).snag = false → t.latchedOnce .snag (some h)) ∧
      (x < s.kept.weigh.limits.slack → (s.ctxs[h]'h.2).lost = false → t.latchedOnce .loadLost (some h)) ∧
      ((s.ctxs[h]'h.2).snag = true ∨ x ≤ w + s.kept.weigh.limits.snag →
        t.entries[FaultKind.snag.ix]'FaultKind.snag.ix.2 = s.entries[FaultKind.snag.ix]'FaultKind.snag.ix.2) ∧
      ((s.ctxs[h]'h.2).lost = true ∨ s.kept.weigh.limits.slack ≤ x →
        t.entries[FaultKind.loadLost.ix]'FaultKind.loadLost.ix.2 =
        s.entries[FaultKind.loadLost.ix]'FaultKind.loadLost.ix.2) ∧
      (touch = false → t.kept = s.kept ∧ t.mail = s.mail ∧ t.drives = s.drives) ∧
      (touch = true → t.mail[h]'h.2 = { s.mail[h]'h.2 with level := (s.mail[h]'h.2).level ++
          [.view { state := .lowering, heldFrom := (s.ctxs[h]'h.2).heldFrom, contact := true, recalLoad := false },
           .capture { hoist := h, tag := o.tag, pass := p, position := (s.drives[h]'h.2).count, drop := r.drop,
                      depth := (s.drives[h]'h.2).count + r.drop, time := s.kept.runtime * 10 + s.tenths,
                      displaced := false }] } ∧
        t.kept = { s.kept with journal := t.kept.journal, totals := t.kept.totals } ∧
        ∀ (pre post : List Entry) (e : Entry), (s.ctxs[h]'h.2).entrySeq = some e.seq →
          s.kept.journal = pre ++ e :: post →
          (∀ y ∈ pre, y.seq ≠ e.seq) → e.kind = .pickup → e.final = false →
          t.kept.journal = pre ++ { e with surface := some ((s.drives[h]'h.2).count + r.drop) } :: post) ∧
      ∀ i : Hoist, i ≠ h → t.ctxs[i]'i.2 = s.ctxs[i]'i.2 ∧ t.drives[i]'i.2 = s.drives[i]'i.2 := by
  subst touched
  obtain ⟨entries, beacon, link, wu, step, same, snagged, lost⟩ := g.next
  refine ⟨_, step, rfl, ?_, snagged, lost, fun spared => ?_, fun spared => ?_, fun dry => ⟨?_, ?_, ?_⟩,
    fun wet => ⟨?_, ?_, fun pre post e entry journal first kind open_ => ?_⟩,
    fun i ne => ⟨hoist_set_ne _ h i _ ne, hoist_set_ne _ h i _ ne⟩⟩
  · exact (hoist_set_same _ h _).trans (sampleSite_ctx s h x w o p r)
  · exact same .snag (by decide) (fun _ => spared.symm) (fun e => nomatch e)
  · exact same .loadLost (by decide) (fun e => nomatch e) (fun _ => spared.symm)
  · exact if_neg (by rw [dry]; decide)
  · show s.mail.set h (s.sampleSite h x w o p r).mail = _
    rw [sampleSite_mail, contactChecked_dry s h x w o p r dry]
    exact hoist_set_get _ h
  · show s.drives.set h (s.sampleSite h x w o p r).drive = _
    rw [sampleSite_drive, contactChecked_dry s h x w o p r dry]
    exact hoist_set_get _ h
  · have wet' := wet
    unfold State.touches at wet'
    simp only [Bool.and_eq_true, beq_iff_eq, Bool.not_eq_true'] at wet'
    obtain ⟨⟨lowering, untouched⟩, _⟩ := wet'
    have here : (s.sampleTaken h n x w o p r).mail[h]'h.2 = (s.sampleSite h x w o p r).mail := putSite_mail _ h _
    rw [sampleSite_mail, contactChecked_wet s h x w o p r wet,
      contactSite_mail s h o p r.drop lowering untouched] at here
    exact here
  · have kept : s.sampleKept h x w r = s.kept.surfaced (s.ctxs[h]'h.2).entrySeq ((s.drives[h]'h.2).count + r.drop) :=
      if_pos wet
    have booked := surfaced_kept s.kept (s.ctxs[h]'h.2).entrySeq ((s.drives[h]'h.2).count + r.drop)
    rw [← kept] at booked
    exact booked
  · have kept : s.sampleKept h x w r = s.kept.surfaced (some e.seq) ((s.drives[h]'h.2).count + r.drop) :=
      (if_pos wet).trans (congrArg (fun q => s.kept.surfaced q _) entry)
    show (s.sampleKept h x w r).journal = _
    rw [kept]
    exact surfaced_at s.kept _ pre post e journal first kind open_

end

end Sys2Proof.Machine
end

section
/-! Sample periods over no pass: what they keep of the readings, the starved mark, and the evaluation of the bath temperature
(R104 to R106, R111, R121, R122). -/

namespace Sys2Proof.Machine

set_option Elab.async false

/-! ### A sample of a load that no check watches (R39) -/

/-- A hoist whose state is not monitored takes its sample with its starved mark gone. -/
theorem deliverSample_rests (s : State) (h : Hoist) (x : Int) (unwatched : (s.ctxs[h]'h.2).state.monitored = false) :
    s.deliverSample h x = s.putSite h (s.freshSite h) := by
  have fresh : s.modCtx h (fun c => { c with starved := false }) = s.putSite h (s.freshSite h) := modCtx_eq s h _
  have state : ((s.putSite h (s.freshSite h)).ctxs[h]'h.2).state = (s.ctxs[h]'h.2).state := by rw [putSite_ctx]; rfl
  have apart : (s.ctxs[h]'h.2).state ≠ .lowering := by
    intro e
    rw [e] at unwatched
    cases unwatched
  have dry : (s.putSite h (s.freshSite h)).checkContact h x = s.putSite h (s.freshSite h) := by
    unfold State.checkContact
    dsimp only
    split
    · exact if_neg fun n => apart (state.symm.trans n.1)
    · rfl
  unfold State.deliverSample
  dsimp only
  rw [fresh, dry]
  split
  · refine if_neg ?_
    rw [state, unwatched, Bool.false_and]
    decide
  · rfl

theorem moving_monitored (st : DipState) (unwatched : st.monitored = false) : st.moving = false := by
  revert unwatched
  cases st <;> decide

/-! ### The starved mark (R121) -/

/-- The part of a hoist whose reading has grown too old. -/
def State.starvedSite (u : State) (h : Hoist) : Site :=
  { u.ctxOnly h { u.ctxs[h]'h.2 with starved := true } with
    agenda := ⟨u.agenda.reports ++ [.occur .scanStarved (some h)], u.agenda.follow⟩ }

theorem checkAge_starves (u : State) (h : Hoist) (moves : (u.ctxs[h]'h.2).state.moving = true)
    (old : u.kept.weigh.limits.ageLimit < u.wu.chans[loadChannel h].age) (fed : (u.ctxs[h]'h.2).starved = false) :
    u.checkAge h = u.putSite h (u.starvedSite h) := by
  refine (if_pos (by rw [moves, decide_eq_true old, fed]; rfl)).trans ?_
  rw [modCtx_eq, putSite_raise]
  rfl

theorem foldl_checkAge_one (u : State) (h : Hoist) (l : List Hoist) (distinct : l.Nodup) (there : h ∈ l)
    (alone : ∀ i ∈ l, i ≠ h → u.checkAge i = u ∧ (u.checkAge h).checkAge i = u.checkAge h) :
    l.foldl State.checkAge u = u.checkAge h := by
  induction l with
  | nil => cases there
  | cons i l ih =>
    obtain ⟨fresh, distinct⟩ := List.nodup_cons.1 distinct
    rw [List.foldl_cons]
    by_cases e : i = h
    · subst e
      exact foldl_checkAge_passes _ l fun j hj =>
        (alone j (List.mem_cons_of_mem _ hj) fun n => fresh (n ▸ hj)).2
    · rw [(alone i (List.mem_cons_self ..) e).1]
      rcases List.mem_cons.1 there with n | there
      · exact absurd n.symm e
      · exact ih distinct there fun j hj => alone j (List.mem_cons_of_mem _ hj)

/-- The age checks where one installed hoist alone moves. -/
theorem checkAges_one (u : State) (h : Hoist) (installed : u.installed h = true)
    (still : ∀ i : Hoist, i ≠ h → (u.ctxs[i]'i.2).state.moving = false) (temp : u.tempSettled)
    (moves : (u.ctxs[h]'h.2).state.moving = true) (old : u.kept.weigh.limits.ageLimit < u.wu.chans[loadChannel h].age)
    (fed : (u.ctxs[h]'h.2).starved = false) : u.checkAges = u.putSite h (u.starvedSite h) := by
  have here := checkAge_starves u h moves old fed
  have all : u.installedHoists.foldl State.checkAge u = u.putSite h (u.starvedSite h) := by
    rw [← here]
    refine foldl_checkAge_one u h _ (List.Nodup.filter _ (by decide)) (List.mem_filter.2 ⟨mem_hoists h, installed⟩)
      fun i _ ne => ⟨checkAge_passes u i (.inl (still i ne)), ?_⟩
    rw [here]
    refine checkAge_passes _ i (.inl ?_)
    have same : (u.putSite h (u.starvedSite h)).ctxs[i]'i.2 = u.ctxs[i]'i.2 := hoist_set_ne _ h i _ ne
    rw [same]
    exact still i ne
  unfold State.checkAges
  dsimp only
  rw [all]
  exact if_neg temp

/-! ### What the statement asks of a period while no load moves (R104 to R106, R111) -/

theorem missed_age (s : State) (c : Channel) :
    (s.missed.wu.chans[c]'c.2).age = min 65535 ((s.wu.chans[c]'c.2).age + 10) := by
  have e := congrArg Chan.age (missedPeriod_chans s.wu c)
  exact e

theorem missed_tempSettled (s : State) (away : ¬(4990 < (s.wu.chans[tempChannel]'tempChannel.2).age ∧
    (s.wu.chans[tempChannel]'tempChannel.2).age ≤ 5000)) :
    s.missed.tempSettled :=
  tempSettled_of_older _ s.wu (missed_age s tempChannel) away

section
variable {s : State}

/-- A missed period while every hoist is PARKED and no weighing is in service. -/
theorem missedPeriod_keeps (live : s.ready) (parked : ∀ h : Hoist, (s.ctxs[h]'h.2).state = .parked)
    (unserved : s.wu.service = none)
    (away : ¬(4990 < (s.wu.chans[tempChannel]'tempChannel.2).age ∧ (s.wu.chans[tempChannel]'tempChannel.2).age ≤ 5000))
    :
    ∃ t, exec (.samplePeriodEnd none) s = .next t ∧ t.wu.chan = s.wu.chan ∧ t.wu.settled = s.wu.settled ∧
      (s.wu.queue = [] → t.wu.service = none) ∧
      (∀ q rest, s.wu.queue = q :: rest → t.wu.service = some
        { req := q, window := [], since := 0, visits := [], timer := s.kept.weigh.limits.timeout, judged := none }) ∧
      ∀ c : Channel, t.wu.chans[c]'c.2 = { s.wu.chans[c]'c.2 with
        age := min 65535 ((s.wu.chans[c]'c.2).age + 10),
        missed := if c = s.wu.chan ∧ (s.wu.chans[c]'c.2).missed < 65535 then (s.wu.chans[c]'c.2).missed + 1
          else (s.wu.chans[c]'c.2).missed } := by
  obtain ⟨link, step⟩ := samplePeriodEnd_quiet s s.missed none live rfl
    (fun h => checkAge_passes _ h (.inl (by rw [show (s.missed.ctxs[h]'h.2).state = .parked from parked h]; rfl)))
    (missed_tempSettled s away) live.2
  obtain ⟨chan, empty, queued⟩ := missed_nextWu s.missed (false && s.wu.settled == some s.wu.chan)
  have chosen := nextWu_chosen s.missed none (false && s.wu.settled == some s.wu.chan)
  refine ⟨_, step, chan, chosen.settled, empty unserved, queued unserved, fun c => ?_⟩
  refine (congrArg (fun v : Vector Chan 5 => v[c]'c.2) chosen.chans).trans ?_
  exact missedPeriod_chans s.wu c

/-- A switch period while every hoist is PARKED. -/
theorem switchPeriod_keeps (n : Int) (live : s.ready) (parked : ∀ h : Hoist, (s.ctxs[h]'h.2).state = .parked)
    (away : ¬(4990 < (s.wu.chans[tempChannel]'tempChannel.2).age ∧ (s.wu.chans[tempChannel]'tempChannel.2).age ≤ 5000))
    (switch : s.wu.settled ≠ some s.wu.chan) : ∃ t, exec (.samplePeriodEnd (some n)) s = .next t ∧
      t.wu.settled = some s.wu.chan ∧
      ∀ c : Channel, t.wu.chans[c]'c.2 =
      { s.wu.chans[c]'c.2 with age := min 65535 ((s.wu.chans[c]'c.2).age + 10) } := by
  obtain ⟨link, step⟩ := samplePeriodEnd_quiet s s.switched (some n) live (takeCount_switched s n switch)
    (fun h => checkAge_passes _ h (.inl (by rw [show (s.switched.ctxs[h]'h.2).state = .parked from parked h]; rfl)))
    (tempSettled_of_older _ s.wu (congrArg Chan.age (older_chans s.wu tempChannel)) away) live.2
  have chosen := nextWu_chosen s.switched (some n) (true && s.wu.settled == some s.wu.chan)
  refine ⟨_, step, chosen.settled, fun c => ?_⟩
  refine (congrArg (fun v : Vector Chan 5 => v[c]'c.2) chosen.chans).trans ?_
  exact older_chans s.wu c

/-- A sample of a PARKED hoist while no weighing is in service. -/
theorem samplePeriod_stores (n : Int) (h : Hoist) (live : s.ready)
    (parked : ∀ h : Hoist, (s.ctxs[h]'h.2).state = .parked)
    (unserved : s.wu.service = none)
    (away : ¬(4990 < (s.wu.chans[tempChannel]'tempChannel.2).age ∧ (s.wu.chans[tempChannel]'tempChannel.2).age ≤ 5000))
    (settled : s.wu.settled = some s.wu.chan) (chan : s.wu.chan = loadChannel h) :
    ∃ t, exec (.samplePeriodEnd (some n)) s = .next t ∧ t.wu.settled = s.wu.settled ∧
      ∀ c : Channel, t.wu.chans[c]'c.2 = if c = loadChannel h
        then { s.wu.chans[c]'c.2 with value := some (toLoad (s.kept.weigh.calib[h]'h.2) n), raw := some n, age := 0 }
        else { s.wu.chans[c]'c.2 with age := min 65535 ((s.wu.chans[c]'c.2).age + 10) } := by
  have taken : s.takeCount (some n) = (s.sampled (toLoad (s.kept.weigh.calib[h]'h.2) n) n).putSite h
      ((s.sampled (toLoad (s.kept.weigh.calib[h]'h.2) n) n).freshSite h) := by
    rw [takeCount_load s n h settled chan, deliverSample_rests _ h _ (by
      rw [show ((s.sampled (toLoad (s.kept.weigh.calib[h]'h.2) n) n).ctxs[h]'h.2).state = .parked from parked h]; rfl)]
    exact windowSample_other _ h _ fun v served => by
      have none_there : s.wu.service = some v := served
      rw [unserved] at none_there
      cases none_there
  generalize toLoad (s.kept.weigh.calib[h]'h.2) n = x at taken
  have still : ∀ i : Hoist, (((s.sampled x n).putSite h ((s.sampled x n).freshSite h)).ctxs[i]'i.2).state =
    .parked := by
    intro i
    by_cases e : i = h
    · subst e
      rw [putSite_ctx]
      exact parked i
    · exact (congrArg DipCtx.state (hoist_set_ne _ h i _ e)).trans (parked i)
  have temp : (s.wu.older.store x n).chans[tempChannel]'tempChannel.2 =
    (s.wu.chans[tempChannel]'tempChannel.2).older := by
    rw [store_chans, if_neg]
    rw [chan]
    exact (loadChannel_ne_temp h).symm
  obtain ⟨link, step⟩ := samplePeriodEnd_quiet s _ (some n) live taken
    (fun i => checkAge_passes _ i (.inl (by rw [still i]; rfl)))
    (tempSettled_of_older _ s.wu (congrArg Chan.age temp) away) live.2
  have chosen := nextWu_chosen ((s.sampled x n).putSite h ((s.sampled x n).freshSite h)) (some n)
    (true && s.wu.settled == some s.wu.chan)
  refine ⟨_, step, chosen.settled, fun c => ?_⟩
  refine (congrArg (fun v : Vector Chan 5 => v[c]'c.2) chosen.chans).trans ((store_chans s.wu x n c).trans ?_)
  rw [chan]
  rfl

/-! ### What the statement asks of a missed period while one hoist moves (R121) -/

theorem missedPeriod_starves (h : Hoist) (live : s.ready) (installed : s.installed h = true)
    (away : ¬(4990 < (s.wu.chans[tempChannel]'tempChannel.2).age ∧ (s.wu.chans[tempChannel]'tempChannel.2).age ≤ 5000))
    (still : ∀ i : Hoist, i ≠ h → (s.ctxs[i]'i.2).state.moving = false) (moves : (s.ctxs[h]'h.2).state.moving = true)
    (old : s.kept.weigh.limits.ageLimit < min 65535 (s.wu.chans[loadChannel h].age + 10))
    (fed : (s.ctxs[h]'h.2).starved = false)
    (alone : s.latchesAlone .scanStarved) : ∃ t, exec (.samplePeriodEnd none) s = .next t ∧
      t = { s with ctxs := t.ctxs, wu := t.wu, entries := t.entries, beaconT := t.beaconT, link := t.link } ∧
      t.ctxs = s.ctxs.set h { s.ctxs[h]'h.2 with starved := true } ∧ t.latchedOnce .scanStarved (some h) := by
  have checked := checkAges_one s.missed h installed still (missed_tempSettled s away) moves
    (by rw [missed_age]; exact old) fed
  have idle : s.agenda = Agenda.empty := live.2
  have agenda : (s.missed.putSite h (s.missed.starvedSite h)).agenda = ⟨[.occur .scanStarved (some h)], []⟩ := by
    have start : s.missed.agenda = Agenda.empty := idle
    rw [putSite_agenda]
    unfold State.starvedSite
    rw [start]
    rfl
  obtain ⟨entries, beacon, marks, settled, once, _⟩ := settleFor_lone Config.agendaBound _ h _ agenda installed
    (fun q hq => by
      rw [List.mem_singleton.1 hq]
      exact ⟨rfl, (fun e => nomatch e), alone⟩) (List.nodup_singleton _) (Nat.le_of_ble_eq_true rfl)
  obtain ⟨link, step⟩ := samplePeriodEnd_next s { s.missed.putSite h (s.missed.starvedSite h) with
    entries := entries, beaconT := beacon, link := { s.link with marks := marks }, agenda := Agenda.empty } none live
    ((congrArg State.settle checked).trans settled) rfl
  refine ⟨_, step, ?_, rfl, once .scanStarved (List.mem_singleton.2 rfl)⟩
  rw [← idle]
  unfold State.putSite State.starvedSite State.ctxOnly State.site
  simp only [show s.missed.drives = s.drives from rfl, show s.missed.mail = s.mail from rfl, hoist_set_get]
  rfl

theorem missedPeriod_passes (h : Hoist) (live : s.ready)
    (away : ¬(4990 < (s.wu.chans[tempChannel]'tempChannel.2).age ∧ (s.wu.chans[tempChannel]'tempChannel.2).age ≤ 5000))
    (still : ∀ i : Hoist, i ≠ h → (s.ctxs[i]'i.2).state.moving = false)
    (fine : min 65535 (s.wu.chans[loadChannel h].age + 10) ≤ s.kept.weigh.limits.ageLimit ∨
      (s.ctxs[h]'h.2).starved = true) :
    ∃ t, exec (.samplePeriodEnd none) s = .next t ∧ t = { s with wu := t.wu, link := t.link } := by
  obtain ⟨link, step⟩ := samplePeriodEnd_quiet s s.missed none live rfl (fun i => checkAge_passes _ i (by
    by_cases e : i = h
    · subst e
      refine .inr (fine.imp (fun young => ?_) id)
      exact (Nat.le_of_eq (missed_age s (loadChannel i))).trans young
    · exact .inl (still i e))) (missed_tempSettled s away) live.2
  exact ⟨_, step, rfl⟩

end

end Sys2Proof.Machine
end

section
/-! BATH_TEMP evaluated at a temperature sample and as the reading goes stale (R122, R176, R179). -/

namespace Sys2Proof.Machine

set_option Elab.async false

/-! ### An occurrence that names no hoist (R177, R179) -/

theorem members_of_none : members (Vector.replicate 4 false) = [] := by decide

theorem involvedAtLatch_none (s : State) (k : FaultKind) (other : k ≠ .drivePowerLoss) :
    s.involvedAtLatch k none = Vector.replicate 4 false := by
  unfold State.involvedAtLatch
  rw [if_neg other]
  rfl

/-- An occurrence that names no hoist reaches no dip context, but by a STOP_ALL applied at once. -/
theorem occurrence_unnamed (s : State) (k : FaultKind) (other : k ≠ .drivePowerLoss)
    (spare : s.reactionOf k ≠ .stopAll ∨ (s.kept.faults[k.ix]'k.ix.2).delay ≠ 0 ∨
      (s.entries[k.ix]'k.ix.2).state ≠ .clear) :
    s.occurrence k none = s.struck k none := by
  cases state : (s.entries[k.ix]'k.ix.2).state with
  | clear =>
    by_cases at_once : (s.kept.faults[k.ix]'k.ix.2).delay = 0
    · have below : s.reactionOf k ≠ .stopAll := by
        rcases spare with n | n | n
        · exact n
        · exact absurd at_once n
        · exact absurd state n
      rw [occurrence_latches s k none state at_once, if_neg below, involvedAtLatch_none s k other, members_of_none]
      rfl
    · exact occurrence_delayed s k none state at_once
  | alarm => exact occurrence_alarm s k none (by rw [state]; decide) (by rw [state]; decide)
  | active =>
    rw [occurrence_active s k none state]
    rfl

/-! ### The evaluation (R122) -/

/-- The report that an evaluation of BATH_TEMP makes: at a change of the condition, and at the first one. -/
def State.bathReports (s : State) (now : BathCond) : List FaultReport :=
  if s.wu.bath.map (fun b => b != .absent) = some (now != .absent) then [] else [.cond .bathTemp none (now != .absent)]

theorem evaluateBath_eq (s : State) : s.evaluateBath =
    { s with wu := { s.wu with bath := some s.bathNow },
             agenda := ⟨s.agenda.reports ++ s.bathReports s.bathNow, s.agenda.follow⟩ } := by
  unfold State.evaluateBath State.bathReports
  dsimp only
  split
  · rw [List.append_nil]
    rfl
  · rfl

/-- What an evaluation to `now` makes of the entry, from the machine before. -/
def BathEntries (s : State) (now : BathCond) (entries : Vector FaultEntry 14) : Prop :=
  (now ≠ .absent → s.wu.bath = none ∨ s.wu.bath = some .absent →
    (s.entries[FaultKind.bathTemp.ix]'FaultKind.bathTemp.ix.2).presentLine = false →
    s.latchesAlone .bathTemp → State.latchedOnce { s with entries := entries } .bathTemp none ∧
      (entries[FaultKind.bathTemp.ix]'FaultKind.bathTemp.ix.2).presentLine = true) ∧
  (now = .absent → s.wu.bath ≠ some .absent → entries =
    s.entries.set FaultKind.bathTemp.ix
      { s.entries[FaultKind.bathTemp.ix]'FaultKind.bathTemp.ix.2 with presentLine := false }) ∧
  (∀ b, s.wu.bath = some b → (b = .absent ↔ now = .absent) → entries = s.entries)

theorem bathReports_same (s : State) (now b : BathCond) (before : s.wu.bath = some b)
    (same : b = .absent ↔ now = .absent) :
    s.bathReports now = [] := by
  refine if_pos ?_
  rw [before]
  refine congrArg some ?_
  rw [Bool.eq_iff_iff, bne_iff_ne, bne_iff_ne]
  exact not_congr same

theorem bathReports_new (s : State) (now : BathCond)
    (new : ∀ b, s.wu.bath = some b → ¬(b = .absent ↔ now = .absent)) :
    s.bathReports now = [.cond .bathTemp none (now != .absent)] := by
  refine if_neg fun e => ?_
  cases before : s.wu.bath with
  | none =>
    rw [before] at e
    cases e
  | some b =>
    rw [before] at e
    have same := Option.some.inj e
    rw [Bool.eq_iff_iff, bne_iff_ne, bne_iff_ne] at same
    exact new b before (not_iff_not.1 same)

/-- The entry of BATH_TEMP taken from CLEAR by an occurrence. -/
theorem struck_bath (s : State) (clear : (s.entries[FaultKind.bathTemp.ix]'FaultKind.bathTemp.ix.2).state = .clear) :
    State.latchedOnce (s.struck .bathTemp none) .bathTemp none ∧
      ((s.struck .bathTemp none).entries[FaultKind.bathTemp.ix]'FaultKind.bathTemp.ix.2).presentLine =
        (s.entries[FaultKind.bathTemp.ix]'FaultKind.bathTemp.ix.2).presentLine := by
  have entry := struck_entry s .bathTemp none
  rw [struckEntry_clear s .bathTemp none clear] at entry
  refine ⟨⟨?_, ?_, fun i => ?_⟩, ?_⟩
  all_goals rw [entry]
  · unfold State.latchedEntry
    dsimp only
    split <;> decide
  · rfl
  · have involved : (s.latchedEntry .bathTemp none).involved = Vector.replicate 4 false :=
      involvedAtLatch_none s .bathTemp (by decide)
    rw [involved]
    revert i
    decide
  · rfl

/-- What follows from an evaluation: its report, taken, reaches no dip context. -/
theorem settle_bath (s u : State) (now : BathCond) (entries : u.entries = s.entries) (kept : u.kept = s.kept)
    (agenda : u.agenda = ⟨s.bathReports now, []⟩)
    (spare : s.reactionOf .bathTemp ≠ .stopAll ∨ (s.kept.faults[FaultKind.bathTemp.ix]'FaultKind.bathTemp.ix.2).delay ≠
      0 ∨
      (s.entries[FaultKind.bathTemp.ix]'FaultKind.bathTemp.ix.2).state ≠ .clear) : ∃ entries beacon marks,
    u.settle = { u with entries := entries, beaconT := beacon, link := { u.link with marks := marks },
                        agenda := Agenda.empty } ∧ BathEntries s now entries := by
  by_cases same : ∃ b, s.wu.bath = some b ∧ (b = .absent ↔ now = .absent)
  · obtain ⟨b, before, iff⟩ := same
    have none_made := bathReports_same s now b before iff
    rw [none_made] at agenda
    refine ⟨u.entries, u.beaconT, u.link.marks, (settleFor_of_empty _ u agenda).trans ?_, fun present fresh _ _ => ?_,
      fun absent n => ?_, fun _ _ _ => entries⟩
    · have idle : Agenda.empty = u.agenda := agenda.symm
      rw [idle]
    · rcases fresh with n | n
      · rw [before] at n; cases n
      · rw [before] at n
        exact absurd (iff.1 (Option.some.inj n)) present
    · exact absurd (before.trans (congrArg some (iff.2 absent))) n
  · have new : ∀ b, s.wu.bath = some b → ¬(b = .absent ↔ now = .absent) := fun b before iff => same ⟨b, before, iff⟩
    have made := bathReports_new s now new
    rw [made] at agenda
    have bound : Config.agendaBound = 199 + 1 := rfl
    have first : u.settle = settleFor 199 (State.takeReport { u with agenda := ⟨[], []⟩ }
      (.cond .bathTemp none (now != .absent))) := by
      unfold State.settle
      rw [bound]
      exact settleFor_report 199 u _ [] [] agenda
    by_cases fires : now ≠ .absent ∧ (s.entries[FaultKind.bathTemp.ix]'FaultKind.bathTemp.ix.2).presentLine = false
    · obtain ⟨present, unreported⟩ := fires
      have on : (now != .absent) = true := bne_iff_ne.2 present
      have valued :
          (State.valued { u with agenda := ⟨[], []⟩ } .bathTemp none true).entries[FaultKind.bathTemp.ix]'FaultKind.bathTemp.ix.2 =
          { s.entries[FaultKind.bathTemp.ix]'FaultKind.bathTemp.ix.2 with presentLine := true } := by
        refine (Vector.getElem_set_self (by decide)).trans ?_
        show FaultEntry.keepValue (u.entries[FaultKind.bathTemp.ix]'FaultKind.bathTemp.ix.2) none true = _
        rw [entries]
        rfl
      have taken : State.takeReport { u with agenda := ⟨[], []⟩ } (.cond .bathTemp none true) =
          (State.valued { u with agenda := ⟨[], []⟩ } .bathTemp none true).struck .bathTemp none := by
        refine (takeReport_raises { u with agenda := ⟨[], []⟩ } .bathTemp none ?_ (by decide)).trans
          (occurrence_unnamed _ .bathTemp (by decide) ?_)
        · show (u.entries[FaultKind.bathTemp.ix]'FaultKind.bathTemp.ix.2).presentLine = false
          rw [entries]
          exact unreported
        · rw [valued]
          unfold State.reactionOf at spare ⊢
          rw [show (State.valued { u with agenda := ⟨[], []⟩ } .bathTemp none true).kept = s.kept from kept]
          exact spare
      rw [on, taken] at first
      refine ⟨_, _, _, first.trans (settleFor_of_empty _ _ rfl), fun _ _ _ alone => ?_,
        fun absent => absurd absent present,
        fun b before iff => absurd iff (new b before)⟩
      have latched := struck_bath (State.valued { u with agenda := ⟨[], []⟩ } .bathTemp none true)
        ((congrArg FaultEntry.state valued).trans alone.1)
      exact ⟨latched.1, latched.2.trans (congrArg FaultEntry.presentLine valued)⟩
    · have known : (now != .absent) = true →
          ((State.entries { u with agenda := ⟨[],
                                   []⟩ })[FaultKind.bathTemp.ix]'FaultKind.bathTemp.ix.2).reported none = true := by
        intro on
        show (u.entries[FaultKind.bathTemp.ix]'FaultKind.bathTemp.ix.2).presentLine = true
        rw [entries, ← Bool.not_eq_false]
        exact fun unreported => fires ⟨bne_iff_ne.1 on, unreported⟩
      rw [takeReport_quiet { u with agenda := ⟨[], []⟩ } .bathTemp none _ known] at first
      refine ⟨_, u.beaconT, u.link.marks, first.trans (settleFor_of_empty _ _ rfl), fun present _ unreported _ =>
        absurd ⟨present, unreported⟩ fires, fun absent _ => ?_, fun b before iff => absurd iff (new b before)⟩
      show u.entries.set FaultKind.bathTemp.ix
        ((u.entries[FaultKind.bathTemp.ix]'FaultKind.bathTemp.ix.2).keepValue none (now != .absent)) = _
      rw [entries, absent]
      rfl

/-! ### What the statement asks of the bath temperature (R122) -/

section
variable {s : State}

/-- A temperature that is sampled is judged. -/
theorem bathNow_sampled (s : State) (n : Int) (chan : s.wu.chan = tempChannel) : (s.sampled n n).bathNow =
    if n < s.kept.weigh.limits.bathLow ∨ s.kept.weigh.limits.bathHigh < n then .outOfBand else .absent := by
  have reading : (s.sampled n n).wu.chans[tempChannel]'tempChannel.2 =
      { s.wu.chans[tempChannel]'tempChannel.2 with value := some n, raw := some n, age := 0 } :=
    (store_chans s.wu n n tempChannel).trans (if_pos chan.symm)
  have kept : (s.sampled n n).kept = s.kept := rfl
  unfold State.bathNow
  simp only [reading, kept, Bool.or_eq_true, decide_eq_true_eq]
  rfl

theorem bathTemp_sampled (n : Int) (live : s.ready) (still : ∀ h : Hoist, (s.ctxs[h]'h.2).state.moving = false)
    (spare : s.reactionOf .bathTemp ≠ .stopAll ∨ (s.kept.faults[FaultKind.bathTemp.ix]'FaultKind.bathTemp.ix.2).delay ≠
      0 ∨
      (s.entries[FaultKind.bathTemp.ix]'FaultKind.bathTemp.ix.2).state ≠ .clear)
    (settled : s.wu.settled = some s.wu.chan) (chan : s.wu.chan = tempChannel) :
    ∃ t, exec (.samplePeriodEnd (some n)) s = .next t ∧
      t = { s with wu := t.wu, entries := t.entries, beaconT := t.beaconT, link := t.link } ∧
      t.wu.chans[tempChannel]'tempChannel.2 =
      { s.wu.chans[tempChannel]'tempChannel.2 with value := some n, raw := some n, age := 0 } ∧
      BathEvaluated s t (if n < s.kept.weigh.limits.bathLow ∨ s.kept.weigh.limits.bathHigh < n then .outOfBand
        else .absent) := by
  have now := bathNow_sampled s n chan
  generalize (if n < s.kept.weigh.limits.bathLow ∨ s.kept.weigh.limits.bathHigh < n then BathCond.outOfBand else
    .absent) = cond
    at now ⊢
  have taken := (takeCount_temp s n settled chan).trans (evaluateBath_eq (s.sampled n n))
  rw [now] at taken
  have reading : (s.wu.older.store n n).chans[tempChannel]'tempChannel.2 =
      { s.wu.chans[tempChannel]'tempChannel.2 with value := some n, raw := some n, age := 0 } :=
    (store_chans s.wu n n tempChannel).trans (if_pos chan.symm)
  generalize hu : State.mk _ _ _ _ _ _ _ _ _ _ _ _ _ _ _ _ _ _ _ _ _ _ _ _ _ _ _ = u at taken
  have checked : u.checkAges = u := by
    refine checkAges_passes u (fun h => checkAge_passes u h (.inl ?_)) ?_
    · rw [← hu]; exact still h
    · unfold State.tempSettled
      rw [← hu]
      show ¬(5000 < ((s.wu.older.store n n).chans[tempChannel]'tempChannel.2).age ∧ _)
      rw [reading]
      exact fun ⟨old, _⟩ => absurd old (Nat.not_lt_zero _)
  have idle : s.agenda = Agenda.empty := live.2
  obtain ⟨entries, beacon, marks, ended, evaluated, gone, stays⟩ :=
    settle_bath s u cond (by rw [← hu]; rfl) (by rw [← hu]; rfl)
    (by
      rw [← hu]
      have start : (s.sampled n n).agenda = Agenda.empty := idle
      show Agenda.mk ((s.sampled n n).agenda.reports ++ _) (s.sampled n n).agenda.follow = _
      rw [start]
      rfl) spare
  obtain ⟨link, step⟩ := samplePeriodEnd_next s { u with
    entries := entries, beaconT := beacon, link := { u.link with marks := marks },
      agenda := Agenda.empty } (some n) live
    ((congrArg State.settle ((congrArg State.checkAges taken).trans checked)).trans ended) rfl
  have chosen := nextWu_chosen { u with
    entries := entries, beaconT := beacon, link := { u.link with marks := marks }, agenda := Agenda.empty } (some n)
    (true && s.wu.settled == some s.wu.chan)
  refine ⟨_, step, ?_, ?_, ?_, evaluated, gone, stays⟩
  · rw [← hu, ← idle]
    rfl
  · refine (congrArg (fun v : Vector Chan 5 => v[tempChannel]'tempChannel.2) chosen.chans).trans ?_
    rw [← hu]
    exact reading
  · refine chosen.bath.trans ?_
    rw [← hu]

/-- A temperature in its band that grows too old is stale. -/
theorem bathNow_stale (s : State) (old : 4990 < (s.wu.chans[tempChannel]'tempChannel.2).age)
    (inBand : ∀ v, (s.wu.chans[tempChannel]'tempChannel.2).value = some v →
      s.kept.weigh.limits.bathLow ≤ v ∧ v ≤ s.kept.weigh.limits.bathHigh) : s.missed.bathNow = .stale := by
  have age := missed_age s tempChannel
  have value : (s.missed.wu.chans[tempChannel]'tempChannel.2).value =
    (s.wu.chans[tempChannel]'tempChannel.2).value := by
    have e := congrArg Chan.value (missedPeriod_chans s.wu tempChannel)
    exact e
  have stale : Config.staleAge < (s.missed.wu.chans[tempChannel]'tempChannel.2).age := by
    rw [age]
    show 5000 < _
    omega
  have kept : s.missed.kept = s.kept := rfl
  unfold State.bathNow
  dsimp only
  rw [value, kept]
  cases read : (s.wu.chans[tempChannel]'tempChannel.2).value with
  | none => exact if_pos stale
  | some v =>
    obtain ⟨low, high⟩ := inBand v read
    simp only [decide_eq_false (Int.not_lt.2 low), decide_eq_false (Int.not_lt.2 high), Bool.or_self,
      Bool.false_eq_true, if_false]
    exact if_pos stale

theorem bathTemp_stale (live : s.ready) (still : ∀ h : Hoist, (s.ctxs[h]'h.2).state.moving = false)
    (spare : s.reactionOf .bathTemp ≠ .stopAll ∨ (s.kept.faults[FaultKind.bathTemp.ix]'FaultKind.bathTemp.ix.2).delay ≠
      0 ∨
      (s.entries[FaultKind.bathTemp.ix]'FaultKind.bathTemp.ix.2).state ≠ .clear)
    (old : 4990 < (s.wu.chans[tempChannel]'tempChannel.2).age)
    (young : (s.wu.chans[tempChannel]'tempChannel.2).age ≤ 5000)
    (inBand : ∀ v, (s.wu.chans[tempChannel]'tempChannel.2).value = some v →
      s.kept.weigh.limits.bathLow ≤ v ∧ v ≤ s.kept.weigh.limits.bathHigh) :
    ∃ t, exec (.samplePeriodEnd none) s = .next t ∧
      t = { s with wu := t.wu, entries := t.entries, beaconT := t.beaconT, link := t.link } ∧
      BathEvaluated s t .stale := by
  have checked : s.missed.checkAges = s.missed.evaluateBath := by
    unfold State.checkAges
    dsimp only
    rw [foldl_checkAge_passes s.missed _ fun h _ => checkAge_passes s.missed h (.inl (still h))]
    refine if_pos ?_
    rw [missed_age]
    show 5000 < _ ∧ _ ≤ 5010
    omega
  rw [evaluateBath_eq, bathNow_stale s old inBand] at checked
  generalize hu : State.mk _ _ _ _ _ _ _ _ _ _ _ _ _ _ _ _ _ _ _ _ _ _ _ _ _ _ _ = u at checked
  have idle : s.agenda = Agenda.empty := live.2
  obtain ⟨entries, beacon, marks, ended, evaluated, gone, stays⟩ :=
    settle_bath s u .stale (by rw [← hu]; rfl) (by rw [← hu]; rfl)
    (by
      rw [← hu]
      have start : s.missed.agenda = Agenda.empty := idle
      show Agenda.mk (s.missed.agenda.reports ++ _) s.missed.agenda.follow = _
      rw [start]
      rfl) spare
  obtain ⟨link, step⟩ := samplePeriodEnd_next s { u with
    entries := entries, beaconT := beacon, link := { u.link with marks := marks }, agenda := Agenda.empty } none live
    ((congrArg State.settle checked).trans ended) rfl
  have chosen := nextWu_chosen { u with
    entries := entries, beaconT := beacon, link := { u.link with marks := marks }, agenda := Agenda.empty } none
    (false && s.wu.settled == some s.wu.chan)
  refine ⟨_, step, ?_, ?_, evaluated, gone, stays⟩
  · rw [← hu, ← idle]
    rfl
  · refine chosen.bath.trans ?_
    rw [← hu]

end

end Sys2Proof.Machine
end

section
/-! A sample of the hoist being weighed: it joins the window, which ends the weighing with its mean where it is full and
within the band (R110, R113, R118); and the end of a sample period as a whole. -/

namespace Sys2Proof.Machine

set_option Elab.async false

/-! ### The next period of a weighing (R111, R112) -/

theorem serviceOn_eq (u : State) (v : Service) (accepted : Bool) : u.serviceOn v accepted =
    { v with since := (u.serviceOn v accepted).since, visits := (u.serviceOn v accepted).visits } := by
  unfold State.serviceOn
  split
  · split <;> rfl
  · split <;> rfl

theorem nextWu_served (u : State) (n : Int) (accepted : Bool) (v : Service) (served : u.wu.service = some v) :
    (u.nextWu (some n) accepted).service = some (u.serviceOn v accepted) := by
  have next : u.nextWu (some n) accepted = (u.nextPeriod accepted).wu := rfl
  rw [next]
  unfold State.nextPeriod
  rw [served]
  rfl

theorem nextWu_unserved (u : State) (n : Int) (accepted : Bool) (unserved : u.wu.service = none) :
    (u.nextWu (some n) accepted).service.map Service.req = u.wu.queue.head? := by
  have next : u.nextWu (some n) accepted = (u.nextPeriod accepted).wu := rfl
  rw [next]
  unfold State.nextPeriod
  rw [unserved]
  cases queued : u.wu.queue with
  | nil => exact congrArg (Option.map Service.req) unserved
  | cons q rest => rfl

/-! ### The end of a weighing (R110, R113, R118) -/

/-- The Weighing Unit with a weighing of no waiting hoist ended. -/
def WeighUnit.ended (w : WeighUnit) (q : WeighReq) : WeighUnit :=
  { w with service := none, queue := w.queue.filter fun x => x != q }

theorem endService_eq (u : State) (q : WeighReq) (free : u.wu.waiting[q.hoist]'q.hoist.2 = false) :
    u.endService q = { u with wu := u.wu.ended q } := by
  refine if_neg ?_
  show ¬u.wu.waiting[q.hoist]'q.hoist.2 = true
  rw [free]
  decide

/-- A weighing for a dip context hands its result over. -/
theorem weighEnds_answers (u : State) (q : WeighReq) (value : Option Int) (judged : Option (Nat × Nat))
    (a : Nat) (p : Pass)
    (asked : q.dc = some (a, p)) (free : u.wu.waiting[q.hoist]'q.hoist.2 = false) : u.weighEnds q value judged =
      { u with wu := u.wu.ended q, mail := u.mail.set q.hoist { u.mail[q.hoist]'q.hoist.2 with
        results := (u.mail[q.hoist]'q.hoist.2).results ++
          [⟨a, p, value, (judged.map Prod.fst).getD 0, judged.map Prod.snd⟩] } } := by
  unfold State.weighEnds
  rw [asked]
  exact endService_eq _ q free

/-- A weighing for the host is written into the weigh-result record. -/
theorem weighEnds_records (u : State) (q : WeighReq) (value : Option Int) (judged : Option (Nat × Nat))
    (asked : q.dc = none)
    (free : u.wu.waiting[q.hoist]'q.hoist.2 = false) : u.weighEnds q value judged =
      { u with wu := { u.wu.ended q with
        record := some ⟨q.hoist, value, (judged.map Prod.fst).getD 0, judged.map Prod.snd, u.kept.runtime⟩ } } := by
  unfold State.weighEnds
  rw [asked]
  exact endService_eq _ q free

/-- What a weighing's end leaves, whoever asked for it. -/
theorem weighEnds_ends (u : State) (q : WeighReq) (value : Option Int) (judged : Option (Nat × Nat))
    (free : u.wu.waiting[q.hoist]'q.hoist.2 = false) : ∃ mail record,
    u.weighEnds q value judged = { u with wu := { u.wu.ended q with record := record }, mail := mail } ∧
      (∀ a p, q.dc = some (a, p) → record = u.wu.record ∧ mail[q.hoist]'q.hoist.2 = { u.mail[q.hoist]'q.hoist.2 with
        results := (u.mail[q.hoist]'q.hoist.2).results ++
        [⟨a, p, value, (judged.map Prod.fst).getD 0, judged.map Prod.snd⟩] }) ∧
      (q.dc = none → mail = u.mail ∧ record = some ⟨q.hoist, value, (judged.map Prod.fst).getD 0, judged.map Prod.snd,
        u.kept.runtime⟩) := by
  cases asked : q.dc with
  | none =>
    exact ⟨_, _, weighEnds_records u q value judged asked free, (fun _ _ e => nomatch e), fun _ => ⟨rfl, rfl⟩⟩
  | some dc =>
    obtain ⟨a, p⟩ := dc
    refine ⟨_, _, weighEnds_answers u q value judged a p asked free, fun a' p' e => ?_, (fun e => nomatch e)⟩
    obtain ⟨rfl, rfl⟩ := Prod.mk.inj (Option.some.inj e)
    exact ⟨rfl, hoist_set_same _ _ _⟩

/-! ### A sample of the hoist being weighed (R113) -/

/-- A sample of the hoist being weighed, which no check watches. -/
structure Weighing (s : State) (n x : Int) (v : Service) : Prop where
  live : s.ready
  temp : ¬(4990 < (s.wu.chans[tempChannel]'tempChannel.2).age ∧ (s.wu.chans[tempChannel]'tempChannel.2).age ≤ 5000)
  still : ∀ i : Hoist, i ≠ v.req.hoist → (s.ctxs[i]'i.2).state.moving = false
  settled : s.wu.settled = some s.wu.chan
  chan : s.wu.chan = loadChannel v.req.hoist
  value : x = toLoad (s.kept.weigh.calib[v.req.hoist]'v.req.hoist.2) n
  served : s.wu.service = some v
  forService : s.wu.forService = true
  unwatched : (s.ctxs[v.req.hoist]'v.req.hoist.2).state.monitored = false
  free : s.wu.waiting[v.req.hoist]'v.req.hoist.2 = false

/-- The machine to which a sample of the hoist being weighed has been delivered, before it joins the window. -/
def State.weighSampled (s : State) (n x : Int) (h : Hoist) : State :=
  (s.sampled x n).putSite h ((s.sampled x n).freshSite h)

/-- The window of a weighing with a sample joined, the newest kept. -/
def State.joined (s : State) (v : Service) (x : Int) : List Int := newest s.kept.weigh.limits.window (v.window ++ [x])

/-- A service whose window has taken a sample. -/
def Service.joining (v : Service) (w : List Int) : Service := { v with window := w, since := v.since + 1 }

section
variable {s : State} {n x : Int} {v : Service}

theorem Weighing.taken (g : Weighing s n x v) :
    s.takeCount (some n) = (s.weighSampled n x v.req.hoist).judgeWindow v x := by
  rw [takeCount_load s n v.req.hoist g.settled g.chan, ← g.value, deliverSample_rests (s.sampled x n) _ x g.unwatched]
  unfold State.windowSample
  have served : ((s.sampled x n).putSite v.req.hoist ((s.sampled x n).freshSite v.req.hoist)).wu.service = some v :=
    g.served
  rw [served]
  exact if_pos ⟨rfl, g.forService⟩

/-- The period's end, from the Weighing Unit and the messages that the judgement of the window leaves. -/
theorem Weighing.next (g : Weighing s n x v) (w : WeighUnit) (mail : Vector Mail 4)
    (chans : w.chans = (s.wu.older.store x n).chans)
    (judged : (s.weighSampled n x v.req.hoist).judgeWindow v x =
      { s.weighSampled n x v.req.hoist with wu := w, mail := mail }) : ∃ link,
    exec (.samplePeriodEnd (some n)) s = .next { s with
      ctxs := s.ctxs.set v.req.hoist { s.ctxs[v.req.hoist]'v.req.hoist.2 with starved := false }, mail := mail,
      link := link,
      wu := State.nextWu { s.weighSampled n x v.req.hoist with wu := w, mail := mail } (some n)
        (true && s.wu.settled == some s.wu.chan) } := by
  have states : ∀ i : Hoist, ((s.weighSampled n x v.req.hoist).ctxs[i]'i.2).state.moving = false := by
    intro i
    by_cases e : i = v.req.hoist
    · rw [e]
      refine (congrArg (fun c : DipCtx => c.state.moving) (putSite_ctx _ _ _)).trans ?_
      exact moving_monitored _ g.unwatched
    · exact (congrArg (fun c : DipCtx => c.state.moving) (hoist_set_ne _ v.req.hoist i _ e)).trans (g.still i e)
  obtain ⟨link, step⟩ := samplePeriodEnd_quiet s { s.weighSampled n x v.req.hoist with wu := w, mail := mail }
    (some n) g.live
    (g.taken.trans judged) (fun i => checkAge_passes _ i (.inl (states i))) (tempSettled_of_older _ s.wu (by
      show (w.chans[tempChannel]'tempChannel.2).age = _
      rw [chans, store_chans, if_neg]
      rw [g.chan]
      exact (loadChannel_ne_temp _).symm) g.temp) g.live.2
  refine ⟨link, step.trans ?_⟩
  have drives : (s.weighSampled n x v.req.hoist).drives = s.drives := hoist_set_get _ _
  refine congrArg Host.Outcome.next ?_
  show State.mk _ _ _ _ _ _ _ _ _ (s.weighSampled n x v.req.hoist).drives _ _ _ _ _ _ _ _ _ _ _ _ _ _ _ _ _ = _
  rw [drives]
  rfl

theorem weighSampled_wu (s : State) (n x : Int) (h : Hoist) : (s.weighSampled n x h).wu = s.wu.older.store x n := rfl

theorem weighSampled_mail (s : State) (n x : Int) (h : Hoist) : (s.weighSampled n x h).mail = s.mail :=
    hoist_set_get _ _

/-- What a sample of the hoist being weighed leaves (R113). -/
theorem Weighing.window (g : Weighing s n x v) (room : 0 < s.kept.weigh.limits.window) (w : List Int)
    (joined : w = s.joined v x) : ∃ t, exec (.samplePeriodEnd (some n)) s = .next t ∧
      t = { s with ctxs := t.ctxs, wu := t.wu, mail := t.mail, link := t.link } ∧
      t.ctxs = s.ctxs.set v.req.hoist { s.ctxs[v.req.hoist]'v.req.hoist.2 with starved := false } ∧
      (w.length < s.kept.weigh.limits.window → t.mail = s.mail ∧ t.wu.record = s.wu.record ∧
        t.wu.queue = s.wu.queue ∧ ∃ u, t.wu.service = some u ∧
        u = { v with window := w, since := u.since, visits := u.visits }) ∧
      ∀ d : Nat, s.kept.weigh.limits.window ≤ w.length → (∃ a ∈ w, ∃ b ∈ w, a - b = d) → (∀ a ∈ w, ∀ b ∈ w, a - b ≤ d) →
        (s.kept.weigh.limits.band < d → t.mail = s.mail ∧ t.wu.record = s.wu.record ∧ t.wu.queue = s.wu.queue ∧
          ∃ u, t.wu.service = some u ∧
            u = { v with window := w, since := u.since, visits := u.visits, judged := some (w.length, d) }) ∧
        (d ≤ s.kept.weigh.limits.band → t.wu.queue = s.wu.queue.filter (fun q => q != v.req) ∧
          t.wu.service.map Service.req = t.wu.queue.head? ∧ ∃ m : Int,
          2 * (m * w.length - w.sum).natAbs ≤ w.length ∧
          (2 * (m * w.length - w.sum).natAbs = w.length → w.sum.natAbs ≤ (m * w.length).natAbs) ∧
          (∀ a p, v.req.dc = some (a, p) → t.wu.record = s.wu.record ∧
            t.mail[v.req.hoist]'v.req.hoist.2 = { s.mail[v.req.hoist]'v.req.hoist.2 with
              results := (s.mail[v.req.hoist]'v.req.hoist.2).results ++ [⟨a, p, some m, w.length, some d⟩] }) ∧
          (v.req.dc = none → t.mail = s.mail ∧
            t.wu.record = some ⟨v.req.hoist, some m, w.length, some d, s.kept.runtime⟩)) := by
  have unfolded : (s.weighSampled n x v.req.hoist).judgeWindow v x =
      if w.length < s.kept.weigh.limits.window then (s.weighSampled n x v.req.hoist).modWu fun u =>
        { u with service := some (v.joining w) }
      else if spreadOf w ≤ s.kept.weigh.limits.band then (s.weighSampled n x v.req.hoist).weighEnds v.req
        (some (roundDiv w.sum w.length)) (some (w.length, spreadOf w))
      else (s.weighSampled n x v.req.hoist).modWu fun u =>
        { u with service := some { v.joining w with judged := some (w.length, spreadOf w) } } := by
    rw [joined]
    rfl
  by_cases filling : w.length < s.kept.weigh.limits.window
  · rw [if_pos filling] at unfolded
    obtain ⟨link, step⟩ := g.next { s.wu.older.store x n with service := some (v.joining w) } s.mail rfl
      (unfolded.trans (by rw [← weighSampled_mail s n x v.req.hoist]; rfl))
    refine ⟨_, step, rfl, rfl, fun _ => ⟨rfl, (nextWu_chosen _ _ _).record, (nextWu_chosen _ _ _).queue, _,
      nextWu_served _ n _ (v.joining w) rfl, serviceOn_eq _ (v.joining w) _⟩,
        fun d full => absurd full (Nat.not_le.2 filling)⟩
  · rw [if_neg filling] at unfolded
    by_cases steady : spreadOf w ≤ s.kept.weigh.limits.band
    · rw [if_pos steady] at unfolded
      obtain ⟨mail, record, ended, answers, records⟩ := weighEnds_ends (s.weighSampled n x v.req.hoist) v.req
        (some (roundDiv w.sum w.length)) (some (w.length, spreadOf w)) g.free
      obtain ⟨link, step⟩ := g.next { (s.wu.older.store x n).ended v.req with record := record } mail rfl
        (unfolded.trans ended)
      refine ⟨_, step, rfl, rfl, fun n => absurd n filling, fun d full attained bounded => ?_⟩
      have spread := spreadOf_eq w d attained bounded
      rw [spread] at answers records steady
      refine ⟨fun wide => absurd steady (Nat.not_le.2 wide), fun _ => ⟨(nextWu_chosen _ _ _).queue, ?_,
        roundDiv w.sum w.length,
        (roundDiv_nearest w.sum w.length (by omega)).1, (roundDiv_nearest w.sum w.length (by omega)).2,
          fun a p asked => ?_,
        fun asked => ?_⟩⟩
      · exact (nextWu_unserved _ n _ rfl).trans (congrArg List.head? (nextWu_chosen _ _ _).queue.symm)
      · obtain ⟨same, told⟩ := answers a p asked
        rw [weighSampled_mail] at told
        exact ⟨(nextWu_chosen _ _ _).record.trans same, told⟩
      · obtain ⟨same, written⟩ := records asked
        rw [weighSampled_mail] at same
        exact ⟨same, (nextWu_chosen _ _ _).record.trans written⟩
    · rw [if_neg steady] at unfolded
      obtain ⟨link, step⟩ := g.next { s.wu.older.store x n with
        service := some { v.joining w with judged := some (w.length, spreadOf w) } } s.mail rfl
        (unfolded.trans (by rw [← weighSampled_mail s n x v.req.hoist]; rfl))
      refine ⟨_, step, rfl, rfl, fun n => absurd n filling, fun d full attained bounded => ?_⟩
      have spread := spreadOf_eq w d attained bounded
      refine ⟨fun _ => ⟨rfl, (nextWu_chosen _ _ _).record, (nextWu_chosen _ _ _).queue, _, nextWu_served _ n _
          { v.joining w with judged := some (w.length, spreadOf w) } rfl, ?_⟩,
            fun narrow => absurd (spread ▸ narrow) steady⟩
      rw [← spread]
      exact serviceOn_eq _ { v.joining w with judged := some (w.length, spreadOf w) } _

end

/-- Settles O34: the count, the checks of the state it is delivered to, the ages, and the window of a weighing. -/
theorem samplePeriodReads : Obligations.SamplePeriodReads := by
  unfold Obligations.SamplePeriodReads
  refine ⟨fun s live parked unserved away => ⟨missedPeriod_keeps live parked unserved away,
      fun n switch => switchPeriod_keeps n live parked away switch,
      fun n h settled chan => samplePeriod_stores n h live parked unserved away settled chan⟩,
    fun s h live installed away still => ⟨?_, fun moves => ⟨fun old fed alone => ?_, fun fine => ?_⟩, ?_⟩,
    fun s live still spare => ⟨fun n settled chan => bathTemp_sampled n live still spare settled chan,
      fun old young inBand => bathTemp_stale live still spare old young inBand⟩⟩
  · intro n x w l o p r touch settled chan value apart monitored weighIn latched ordered passed found touched clear snag lost
    exact Sampled.checks ⟨⟨live, monitored, weighIn, by rw [latched]; rfl, ordered, passed, found,
      fun wet => clear (touched.trans wet)⟩, installed, away, still, settled, chan, value, apart, snag,
        lost⟩ touch touched
  · exact missedPeriod_starves h live installed away still moves old fed alone
  · exact missedPeriod_passes h live away still fine
  · intro n x v w settled chan value served own forService unwatched free room joined
    subst own
    exact Weighing.window ⟨live, away, still, settled, chan, value, served, forService, unwatched, free⟩ room w joined

end Sys2Proof.Machine
end

section
/-! What the commands' own operations keep: those built of the shared operations, block by block, are `Steady` too. -/

namespace Sys2Proof.Machine

set_option Elab.async false

/-! ### The Order Queue and the dip cycle (R11 to R15, R51) -/

theorem dropPass2_steady (s : State) (h : Hoist) : Steady s (s.dropPass2 h) :=
  (modOrder_steady s h (fun o => { o with closePending := true }) fun _ => rfl).trans
    ((modCtx_steady _ _ _).trans (returnHeld_steady _ _))

/-- A cancel of a taken order, by the state of its dip context. -/
theorem cancelTaken_steady (s t : State) (o : Order) (e : s.cancelTaken o = some t) : Steady s t := by
  unfold State.cancelTaken at e
  dsimp only at e
  split at e
  case h_1 | h_2 | h_3 => cases e; exact closeUnlowered_steady _ _ _ _
  case h_10 => cases e; exact closeRehang_steady _ _ _
  case h_11 | h_12 =>
    split at e
    · cases e; exact dropPass2_steady s _
    · cases e
  case h_13 => cases e
  all_goals cases e; exact abort_steady _ _ _

theorem startRecal_steady (s : State) (h : Hoist) : Steady s (s.startRecal h) :=
  .ite ((toRecal_steady _ _ _).trans (enterHeld_steady _ _)) (toRecal_steady _ _ _)

theorem readyExpires_steady (s : State) (h : Hoist) : Steady s (s.readyExpires h) := by
  unfold State.readyExpires; split
  · exact motionFails_steady _ _ _ _ _
  · exact modDrive_steady _ _ _
  · exact .refl s

/-! ### The Zinc Book (R73, R76) -/

theorem openBook_steady (s : State) (n : Nat) : Steady s (s.openBook n) :=
  (modKept_steady s Retained.reopen fun _ => reopen_balanced _).trans
    ((bookFinal_steady _ _ _ _).trans (takeAll_steady _))

theorem trimBook_steady (s : State) (n : Nat) : Steady s (s.trimBook n) :=
  .ite (.refl s) ((modKept_steady s _ (trim_balanced _ n)).trans ((judgeNearly_steady _).trans (takeAll_steady _)))

/-! ### The Zone Arbiter (R86, R99) -/

/-- Settings and surfaces are no part of the book. -/
theorem setKettle_steady (s : State) (k : KettleSet) : Steady s (s.setKettle k) := by
  unfold State.setKettle; dsimp only
  exact (modKept_steady s (fun r => { r with kettle := k }) (Retained.balanced_of_eq rfl rfl rfl rfl)).trans
    ((markIf_steady _ _ _).trans (alertClaims_steady _ _))

theorem skim_steady (s : State) (a b : Nat) : Steady s (s.skim a b) :=
  (modKept_steady s (fun r => { r with surfaces := r.surfaces.mapIdx fun i x =>
    if a ≤ i + 1 ∧ i + 1 ≤ b then ⟨false, 0⟩ else x }) (Retained.balanced_of_eq rfl rfl rfl rfl)).trans
    (examine_steady _)

/-! ### The Weighing Unit (R104 to R106) -/

theorem windowSample_steady (s : State) (h : Hoist) (v : Int) : Steady s (s.windowSample h v) := by
  unfold State.windowSample; split
  · exact .ite (judgeWindow_steady _ _ _) (.refl s)
  · exact .refl s

theorem acceptSample_steady (s : State) (n : Int) : Steady s (s.acceptSample n) := by
  unfold State.acceptSample; dsimp only
  refine (modWu_steady s fun w => w.store (s.convert s.wu.chan n) n).trans ?_
  split
  · exact (deliverSample_steady _ _ _).trans (windowSample_steady _ _ _)
  · exact evaluateBath_steady _

theorem takeCount_steady (s : State) (count : Option Int) : Steady s (s.takeCount count) := by
  unfold State.takeCount; dsimp only
  refine (modWu_steady s WeighUnit.older).trans ?_
  split
  · exact modWu_steady _ _
  · exact .ite (acceptSample_steady _ _) (modWu_steady _ _)

theorem checkAges_steady (s : State) : Steady s s.checkAges :=
  have each := steady_foldl State.checkAge checkAge_steady s.installedHoists s
  .ite (each.trans (evaluateBath_steady _)) each

theorem periodEnd_steady (s : State) (count : Option Int) : Steady s (s.periodEnd count) :=
  (takeCount_steady s count).trans ((checkAges_steady _).trans ((settle_steady _).trans
    (.ite (afterMissed_steady _) (nextPeriod_steady _ _))))

/-! ### The Level Unit (R127, R130 to R134) -/

theorem takeCapture_steady (s : State) (h : Hoist) (c : Capture) : Steady s (s.takeCapture h c) :=
  .ite (.refl s) (.ite (.ite (modCtx_steady _ _ _) (.refl s)) (modLu_steady _ _))

theorem mismatchCheck_steady (s : State) (est : Nat) : Steady s (s.mismatchCheck est) :=
  .ite ((modLu_steady _ _).trans (report_steady _ _)) (modLu_steady _ _)

theorem decideFeed_steady (s : State) (est : Nat) : Steady s (s.decideFeed est) :=
  .ite (.of_eq rfl rfl rfl rfl rfl rfl) (.refl s)

theorem acceptCapture_steady (s : State) (depth : Nat) : Steady s (s.acceptCapture depth) := by
  unfold State.acceptCapture; dsimp only
  refine (modLu_steady s fun l => { l with ring := ringAdd l.ring depth }).trans ?_
  split
  · exact (mismatchCheck_steady _ _).trans (decideFeed_steady _ _)
  · exact .refl _

theorem processCapture_steady (s : State) (h : Hoist) (c : Capture) : Steady s (s.processCapture h c) := by
  unfold State.processCapture; dsimp only
  have taken := modLu_steady s fun l => { l with fifos := l.fifos.set h (l.fifos[h].drop 1) }
  exact (Steady.ite (taken.trans (acceptCapture_steady _ _)) taken).trans (modLu_steady _ _)

/-! ### Bench mode (R153, R155) -/

theorem benchSet_steady (s : State) (h : Hoist) (f : BenchFields) : Steady s (s.benchSet h f) := by
  have levels : Steady s { s.modDrive h fun d => { d.endBurst .replaced with
      dir := yes f.dir, brakeRel := yes f.brake, permit := yes f.permit,
      burst := if f.steps = 0 then none else some { left := f.steps, rate := f.rate, issued := 0 },
      benchStepped := (d.endBurst .replaced).benchStepped || f.steps != 0 } with benchBeacon := yes f.beacon } :=
    .of_eq rfl rfl rfl rfl rfl rfl
  exact .ite levels (levels.trans (burstMeets_steady _ h))

theorem leaveBench_steady (s : State) : Steady s s.leaveBench :=
  Steady.trans (b := State.parkedPermits { s with bench := false, drives := s.drives.map fun d =>
    { DriveIf.leaveBench d with brakeRel := false } }) (.of_eq rfl rfl rfl rfl rfl rfl) (takeAll_steady _)

/-! ### The Feeder Line (R161 to R168) -/

theorem startFeed_steady (s : State) (source : FeedSource) (n : Nat) : Steady s (s.startFeed source n) :=
  (grantReserve_steady s 1).trans ((modFeeder_steady _ _ rfl).trans (mark_steady _ _))

theorem endFeed_steady (s : State) (next : FeedState) (outcome : FeedOutcome) (n : Nat) (total : Option Nat) :
    Steady s (s.endFeed next outcome n total) :=
  (modFeeder_steady s _ rfl).trans (mark_steady _ _)

theorem settleOver_steady (s : State) : Steady s s.settleOver :=
  (modFeeder_steady s _ rfl).trans (.ite (modLu_steady _ _) (.refl _))

theorem enterSettle_steady (s : State) : Steady s s.enterSettle :=
  have entered := modFeeder_steady s
    (fun f => { f with state := .settle, settleT := some (s.kept.feed.numbers.settle * 10) }) rfl
  .ite (entered.trans (settleOver_steady _)) entered

theorem loadFeeder_steady (s : State) : Steady s s.loadFeeder := modFeeder_steady s _ rfl

theorem unexpected_steady (s : State) : Steady s s.unexpected := modFeeder_steady s _ rfl

theorem feedAccepted_steady (s : State) : Steady s s.feedAccepted :=
  (writeAddition_steady s).trans ((modFeeder_steady _ _ rfl).trans ((modLu_steady _ _).trans (loadFeeder_steady _)))

theorem feedDeclined_steady (s : State) (n : Nat) : Steady s (s.feedDeclined n) :=
  (endFeed_steady s _ _ _ _).trans (returnReserve_steady _ _)

theorem feedDrop_steady (s : State) (n : Nat) : Steady s (s.feedDrop n) := by
  unfold State.feedDrop; split
  · exact .ite ((modFeeder_steady s _ rfl).trans (raiseAddition_steady _ _ _ _)) (.refl s)
  · exact .refl s

theorem feedDone_steady (s : State) (n : Nat) : Steady s (s.feedDone n) := by
  unfold State.feedDone; dsimp only
  refine Steady.trans ?_ ((endFeed_steady _ _ _ _ _).trans (enterSettle_steady _))
  split
  · exact finaliseAddition_steady _ _ _ _ _
  · exact .refl s

theorem feedUnanswered_steady (s : State) : Steady s s.feedUnanswered :=
  (endFeed_steady s _ _ _ _).trans ((report_steady _ _).trans (returnReserve_steady _ _))

theorem feedUnconfirmed_steady (s : State) : Steady s s.feedUnconfirmed := by
  unfold State.feedUnconfirmed; dsimp only
  refine Steady.trans ?_ ((endFeed_steady _ _ _ _ _).trans ((report_steady _ _).trans (enterSettle_steady _)))
  split
  · exact finaliseAddition_steady _ _ _ _ _
  · exact .refl s

theorem frameAtRest_steady (s : State) (kind : Nat) : Steady s (s.frameAtRest kind) :=
  (unexpected_steady s).trans (markIf_steady _ _ _)

theorem frameRequested_steady (s : State) (kind : Nat) (payload : List Byte) :
    Steady s (s.frameRequested kind payload) :=
  .ite (.ite (.refl s) (feedAccepted_steady s))
    (.ite (.ite (.refl s) (feedDeclined_steady s _)) (unexpected_steady s))

theorem frameFeeding_steady (s : State) (kind : Nat) (payload : List Byte) : Steady s (s.frameFeeding kind payload) :=
  (loadFeeder_steady s).trans (.ite (.ite (.refl _) (feedDrop_steady _ _))
    (.ite (.ite (.refl _) (feedDone_steady _ _)) (unexpected_steady _)))

/-! ### The Fault Collector (R180, R182) -/

theorem acknowledge_steady (s : State) (k : FaultKind) : Steady s (s.acknowledge k) :=
  (modEntry_steady _ _ _).trans ((markIf_steady _ _ _).trans (inhibitEnd_steady _ _))

theorem alarmExpires_steady (s : State) (k : FaultKind) : Steady s (s.alarmExpires k) :=
  (modEntry_steady _ _ _).trans (applyReaction_steady _ _ _)

end Sys2Proof.Machine
end

section
/-! The book in balance (R62, R63) and the held zones in runway order (R90): what every command keeps of them, together,
since the commands that touch neither are the same. Whatever is `Steady` keeps both; what is left are the replies, the
relay, the lines, the order table and the settings, which belong to neither, and the two resets. -/

namespace Sys2Proof.Machine

set_option Elab.async false

/-! ### The relation -/

/-- From `s` to `t` a balanced book stays balanced and held zones in runway order stay so. -/
structure Upholds (s t : State) : Prop where
  book : s.kept.balanced → t.kept.balanced
  runway : runwayOrdered s.holders → runwayOrdered t.holders

theorem Upholds.refl (s : State) : Upholds s s := ⟨id, id⟩

theorem Upholds.trans {a b c : State} (x : Upholds a b) (y : Upholds b c) : Upholds a c :=
  ⟨y.book ∘ x.book, y.runway ∘ x.runway⟩

theorem Upholds.ite {p : Prop} [Decidable p] {s a b : State} (x : Upholds s a) (y : Upholds s b) :
    Upholds s (if p then a else b) := by
  split
  · exact x
  · exact y

theorem Steady.upholds {s t : State} (x : Steady s t) : Upholds s t := ⟨x.book, x.runway⟩

/-- An operation that leaves the book's four values and the holders alone. -/
theorem Upholds.of_apart {s t : State} (journal : t.kept.journal = s.kept.journal := by rfl)
    (base : t.kept.base = s.kept.base := by rfl) (inventory : t.kept.inventory = s.kept.inventory := by rfl)
    (totals : t.kept.totals = s.kept.totals := by rfl) (holders : t.holders = s.holders := by rfl) : Upholds s t :=
  ⟨Retained.balanced_of_eq journal base inventory totals, by rw [holders]; exact id⟩

theorem upholds_foldl {α : Type} (f : State → α → State) (hf : ∀ s x, Upholds s (f s x)) (l : List α) (s : State) :
    Upholds s (l.foldl f s) := by
  induction l generalizing s with
  | nil => exact .refl s
  | cons x xs ih => exact (hf s x).trans (ih (f s x))

/-! ### Around a command -/

theorem finish_upholds (s : State) : Upholds s s.finish := by
  have sent : Upholds s.settle s.settle.transmit := by rw [transmit_only_link]; exact .of_apart
  exact (settle_steady s).upholds.trans sent

theorem whileRunning_upholds (s : State) (f : State → State) (hf : Upholds s (f s)) : Upholds s (s.whileRunning f) :=
  .ite (hf.trans (finish_upholds _)) (.refl s)

theorem received_upholds (s : State) (f : State → State) (hf : ∀ s, Upholds s (f s)) : Upholds s (s.received f) := by
  have whole : Upholds s s.unbuilt := .of_apart
  exact whileRunning_upholds s _ (.ite (whole.trans .of_apart) (whole.trans (hf _)))

/-- A request upholds both where its owner does: its reply belongs to neither. -/
theorem request_upholds (s : State) (k : ReqKind) (tag : Nat) (f : State → Answer)
    (hf : ∀ s, Upholds s (f s).state) : Upholds s (s.request k tag f) :=
  received_upholds s _ fun s => (hf s).trans .of_apart

theorem answer_upholds {p : Prop} [Decidable p] {s : State} {a b : Answer} (x : Upholds s a.state)
    (y : Upholds s b.state) : Upholds s (if p then a else b).state := by
  split
  · exact x
  · exact y

/-- A request of one hoist, whichever its number names. -/
theorem request_forHoist_upholds (s : State) (k : ReqKind) (tag n : Nat) (f : State → Hoist → Answer)
    (hf : ∀ s h, Upholds s (f s h).state) : Upholds s (s.request k tag fun s => s.forHoist n (f s)) := by
  refine request_upholds s k tag _ fun s => ?_
  unfold State.forHoist; split
  · exact hf s _
  · exact .refl s

/-- A read answers, or refuses, with the state it found. -/
theorem read_upholds (s : State) (k : ReqKind) (tag : Nat) (f : State → Answer) (hf : ∀ s, (f s).state = s) :
    Upholds s (s.request k tag f) :=
  request_upholds s k tag f fun s => by rw [hf]; exact .refl s

end Sys2Proof.Machine
end

section
/-! The book's balance and the runway order through every command (R62, R63, R90), and the obligation on the book. -/

namespace Sys2Proof.Machine

set_option Elab.async false

/-! ### The two resets (R82 to R84, R102) -/

/-- No zone is held after a reset. -/
theorem runwayOrdered_of_none : runwayOrdered (Vector.replicate 12 none) := by
  intro y z i j held _ _
  have free : (Vector.replicate 12 (none : Option Hoist))[y] = none := Vector.getElem_replicate _
  rw [free] at held; cases held

theorem restart_upholds (s : State) : Upholds s s.restart := by
  obtain ⟨full, m, b, reports, e⟩ := restart_only s
  rw [e]
  exact ⟨interrupt_balanced s.kept, fun _ => runwayOrdered_of_none⟩

/-- The retained area a power-on finds is balanced: its own, or the empty one of a cold start. -/
theorem foundArea_balanced (s : State) (balanced : s.kept.balanced) : s.foundArea.balanced := by
  unfold State.foundArea; split
  · exact ⟨rfl, rfl⟩
  · exact balanced

theorem powerOn_upholds (s : State) (pins : PowerOnPins) : Upholds s (s.powerOn pins) := by
  obtain ⟨full, m, reports, e⟩ := powerOn_only s pins
  rw [e]
  exact ⟨fun balanced => interrupt_balanced _ (foundArea_balanced s balanced), fun _ => runwayOrdered_of_none⟩

/-! ### Orders and hoists -/

theorem orderPost_upholds (s : State) (tag : Nat) (p : PostFields) : Upholds s (s.carryOut (.orderPost tag p)) := by
  refine request_upholds s _ tag _ fun s => ?_
  cases s.postCheck p with
  | some r => exact .refl s
  | none =>
    dsimp only
    unfold State.forHoist
    split
    · exact .of_apart
    · exact .refl s

theorem cancelAnswer_upholds (s : State) (found : Option Order) : Upholds s (s.cancelAnswer found).state := by
  cases found with
  | none => exact .refl s
  | some o =>
    refine answer_upholds (.refl s) (answer_upholds (filter_steady s _).upholds ?_)
    split
    · rename_i t e
      exact (cancelTaken_steady s t o e).upholds
    · exact .refl s

theorem orderCancel_upholds (s : State) (tag n : Nat) : Upholds s (s.carryOut (.orderCancel tag n)) := by
  have asked := exec_request s (.orderCancel tag n) tag rfl
  rw [Host.Outcome.next.inj (asked.symm.trans (exec_orderCancel s tag n))]
  exact request_upholds s _ tag _ fun s => cancelAnswer_upholds s _

theorem hoistRun_upholds (s : State) (tag n : Nat) : Upholds s (s.carryOut (.hoistRun tag n)) :=
  request_forHoist_upholds s _ tag n _ fun s h =>
    have on := modCtx_steady s h fun c => { c with runEnable := true }
    answer_upholds (on.trans ((startRecal_steady _ h).trans (followUp_steady _ _))).upholds
      (on.trans (followUp_steady _ _)).upholds

theorem hoistResume_upholds (s : State) (tag n : Nat) : Upholds s (s.carryOut (.hoistResume tag n)) := by
  refine request_forHoist_upholds s _ tag n _ fun s h => ?_
  split
  · exact answer_upholds (.refl s) (resumeFrom_steady s h _).upholds
  · exact .refl s

/-! ### The book, the zones and the Weighing Unit -/

theorem bookPost_upholds (s : State) (tag k : Nat) (mass : Int) (note : Nat) :
    Upholds s (s.carryOut (.bookPost tag k mass note)) := by
  refine request_upholds s _ tag _ fun s => ?_
  split
  · exact .refl s
  · exact answer_upholds (.refl s) (answer_upholds (.refl s) (answer_upholds (.refl s)
      (bookFinal_steady s _ _ _).upholds))

theorem skimDone_upholds (s : State) (tag a b : Nat) : Upholds s (s.carryOut (.skimDone tag a b)) := by
  refine request_upholds s _ tag _ fun s => answer_upholds ?_ (.refl s)
  split
  · exact .refl s
  · exact (skim_steady s a b).upholds

theorem setWeigh_upholds (s : State) (w : WeighSet) : Upholds s (s.setWeigh w) :=
  have set : Upholds s ((s.modKept fun r => { r with weigh := w }).modWu fun u =>
    { u with fresh := u.fresh || s.scanChanges w }) := .of_apart
  .ite set (set.trans (evaluateBath_steady _).upholds)

theorem weighSetup_upholds (s : State) (tag : Nat) (v : Option WeighFields) :
    Upholds s (s.carryOut (.weighSetup tag v)) := by
  refine request_upholds s _ tag _ fun s => ?_
  cases v with
  | none => exact .refl s
  | some v =>
    dsimp only; split
    · exact setWeigh_upholds s _
    · exact .refl s

/-! ### The Feeder Line -/

theorem feed_upholds (s : State) (tag n : Nat) : Upholds s (s.carryOut (.feed tag n)) := by
  refine request_upholds s _ tag _ fun s => answer_upholds ?_ (.refl s)
  split
  · exact .refl s
  · exact (startFeed_steady s _ n).upholds

theorem feederRelay_upholds (s : State) (tag k : Nat) (p : List Byte) :
    Upholds s (s.carryOut (.feederRelay tag k p)) := by
  unfold State.carryOut ownerOutcome execFeederRelay
  refine received_upholds s _ fun s => ?_
  split
  · exact .of_apart
  · exact .of_apart

/-- A frame is a relay's answer, or is taken by the state of the line. -/
theorem feederFrame_upholds (s : State) (kind : Nat) (payload : List Byte) :
    Upholds s (s.feederFrame kind payload) := by
  unfold State.feederFrame; dsimp only
  have whole := modFeeder_steady s (fun f =>
    { f with rx := [], malformed := if malformed kind payload then bump16 f.malformed else f.malformed }) rfl
  refine whole.upholds.trans ?_
  generalize s.modFeeder _ = t
  split
  · exact .of_apart
  · exact (frameAtRest_steady t kind).upholds
  · exact (frameAtRest_steady t kind).upholds
  · exact (frameRequested_steady t kind payload).upholds
  · exact (frameFeeding_steady t kind payload).upholds

theorem feederByte_upholds (s : State) (b : Byte) : Upholds s (s.feederByte b) := by
  unfold State.feederByte; dsimp only
  have built : Upholds s (s.modFeeder fun f => { f with rx := (receive Config.feederStart 2 s.feeder.rx b).1 }) :=
    .of_apart
  split
  · exact built
  · exact built.trans .of_apart
  · exact built.trans .of_apart
  · exact built.trans (feederFrame_upholds _ _ _)

theorem feederBytes_upholds (s : State) (bytes : List Byte) : Upholds s (bytes.foldl State.feederByte s) :=
  upholds_foldl State.feederByte feederByte_upholds bytes s

/-! ### The Fault Collector -/

theorem setFault_upholds (s : State) (k : FaultKind) (f : FaultSet) : Upholds s (s.setFault k f) := by
  unfold State.setFault
  have set : Upholds s (s.modKept fun r => { r with faults := r.faults.set k.ix f }) := .of_apart
  exact (Upholds.ite (set.trans (applyReaction_steady _ _ _).upholds) set).trans (inhibitEnd_steady _ _).upholds

theorem setBeacon_upholds (s : State) (b : FaultSetupBody) : Upholds s (s.setBeacon b).state := by
  cases b with
  | read => exact .refl s
  | beaconMin _ => exact answer_upholds .of_apart (.refl s)
  | settings _ _ _ => exact .refl s

theorem setKind_upholds (s : State) (k : FaultKind) (b : FaultSetupBody) : Upholds s (s.setKind k b).state := by
  cases b with
  | read => exact .refl s
  | beaconMin _ => exact .refl s
  | settings r d f =>
    unfold State.setKind; dsimp only; split
    · exact answer_upholds (setFault_upholds s k _) (.refl s)
    · exact .refl s

theorem faultSetup_upholds (s : State) (tag k : Nat) (b : FaultSetupBody) :
    Upholds s (s.carryOut (.faultSetup tag k b)) := by
  refine request_upholds s _ tag _ fun s => answer_upholds (setBeacon_upholds s b) ?_
  split
  · exact setKind_upholds s _ b
  · exact .refl s

theorem faultAck_upholds (s : State) (tag k : Nat) : Upholds s (s.carryOut (.faultAck tag k)) := by
  refine request_upholds s _ tag _ fun s => ?_
  split
  · exact .refl s
  · exact answer_upholds (.refl s) (answer_upholds (.refl s) (acknowledge_steady s _).upholds)

/-! ### Every request -/

theorem benchNotices_upholds (s : State) (tag : Nat) : Upholds s (s.carryOut (.benchNotices tag)) := by
  refine request_upholds s _ tag _ fun s => ?_
  have one (s : State) (c : NoticeClass) : Upholds s (s.mark c) := by
    obtain ⟨m, e⟩ := mark_only s c
    rw [e]; exact .of_apart
  have marked := upholds_foldl State.mark one noticeClasses s
  generalize noticeClasses.foldl State.mark s = t at marked ⊢
  exact answer_upholds marked (.refl s)

theorem setProfile_upholds (s : State) (i : Nat) (p : Profile) : Upholds s (s.modKept fun r => r.setProfile i p) := by
  refine ⟨?_, id⟩
  change s.kept.balanced → (s.kept.setProfile i p).balanced
  unfold Retained.setProfile; split
  · exact Retained.balanced_of_eq rfl rfl rfl rfl
  · exact id

theorem orderQuery_upholds (s : State) (tag n : Nat) : Upholds s (s.carryOut (.orderQuery tag n)) := by
  refine read_upholds s _ tag _ fun s => ?_
  split <;> rfl

theorem profileRead_upholds (s : State) (tag n : Nat) : Upholds s (s.carryOut (.profileRead tag n)) := by
  refine read_upholds s _ tag _ fun s => ?_
  split <;> rfl

theorem levelRead_upholds (s : State) (tag : Nat) (n : Option Nat) : Upholds s (s.carryOut (.levelRead tag n)) := by
  refine read_upholds s _ tag _ fun s => ?_
  cases n with
  | none => rfl
  | some n => dsimp only; split <;> rfl

theorem carryOut_upholds (s : State) (i : Instr) : Upholds s (s.carryOut i) := by
  cases i with
  | restart tag => exact request_upholds s _ tag _ restart_upholds
  | noticeSetup tag v | cycleSetup tag v | levelSetup tag v | driveSetup tag v | feedSetup tag v =>
    refine request_upholds s _ tag _ fun s => ?_
    cases v with
    | none => exact .refl s
    | some v => exact answer_upholds .of_apart (.refl s)
  | inputRead tag => exact request_upholds s _ tag _ fun _ => .of_apart
  | orderPost tag p => exact orderPost_upholds s tag p
  | orderCancel tag n => exact orderCancel_upholds s tag n
  | orderQuery tag n => exact orderQuery_upholds s tag n
  | profileWrite tag i f =>
    exact request_upholds s _ tag _ fun s => answer_upholds (setProfile_upholds s i _) (.refl s)
  | profileRead tag n => exact profileRead_upholds s tag n
  | hoistRun tag n => exact hoistRun_upholds s tag n
  | hoistStop tag n => exact request_forHoist_upholds s _ tag n _ fun _ _ => .of_apart
  | hoistHold tag n =>
    exact request_forHoist_upholds s _ tag n _ fun s h => answer_upholds (.refl s) (enterHeld_steady s h).upholds
  | hoistResume tag n => exact hoistResume_upholds s tag n
  | hoistAbort tag n =>
    exact request_forHoist_upholds s _ tag n _ fun s h => answer_upholds (.refl s) (abort_steady s h _).upholds
  | hoistStatus tag n => exact request_forHoist_upholds s _ tag n _ fun s _ => .refl s
  | rehangDone tag n =>
    exact request_forHoist_upholds s _ tag n _ fun s h => answer_upholds (rehangDone_steady s h).upholds (.refl s)
  | bookOpen tag n =>
    exact request_upholds s _ tag _ fun s =>
      answer_upholds (answer_upholds (.refl s) (openBook_steady s n).upholds) (.refl s)
  | bookPost tag k m n => exact bookPost_upholds s tag k m n
  | bookTrim tag n =>
    exact request_upholds s _ tag _ fun s => answer_upholds (trimBook_steady s n).upholds (.refl s)
  | kettleSetup tag v =>
    refine request_upholds s _ tag _ fun s => ?_
    cases v with
    | none => exact .refl s
    | some v => exact answer_upholds (setKettle_steady s v).upholds (.refl s)
  | skimDone tag a b => exact skimDone_upholds s tag a b
  | weighNow tag n =>
    exact request_forHoist_upholds s _ tag n _ fun s _ =>
      answer_upholds (.refl s) (answer_upholds (.refl s) .of_apart)
  | weighSetup tag v => exact weighSetup_upholds s tag v
  | levelRead tag n => exact levelRead_upholds s tag n
  | benchEnter tag =>
    refine request_upholds s _ tag _ fun s => answer_upholds (.refl s) (answer_upholds ?_ (.refl s))
    exact .of_apart
  | benchDrive tag f =>
    refine request_upholds s _ tag _ fun s => answer_upholds (.refl s) ?_
    unfold State.forHoist; split
    · exact answer_upholds (benchSet_steady s _ f).upholds (.refl s)
    · exact .refl s
  | benchNotices tag => exact benchNotices_upholds s tag
  | benchExit tag =>
    exact request_upholds s _ tag _ fun s => answer_upholds (leaveBench_steady s).upholds (.refl s)
  | feed tag n => exact feed_upholds s tag n
  | feederRelay tag k p => exact feederRelay_upholds s tag k p
  | faultAck tag k => exact faultAck_upholds s tag k
  | faultSetup tag k b => exact faultSetup_upholds s tag k b
  | faultList tag n =>
    refine request_upholds s _ tag _ fun s => ?_
    cases n with
    | none => exact .refl s
    | some n => exact answer_upholds (.refl s) (.refl s)
  | identify tag | status tag | queueList tag | bookSummary tag | zoneStatus tag | weighRead tag | feedRead tag =>
    exact read_upholds s _ tag _ fun _ => rfl
  | bookRead tag n => exact read_upholds s _ tag _ fun _ => rfl
  | _ => exact .refl s

/-! ### Bytes received (R190, R191) -/

theorem judgeFrame_upholds (s : State) (code tag : Nat) (payload : List Byte) :
    Upholds s (s.judgeFrame code tag payload) := by
  have answered (r : Result) : Upholds s (s.addReply code tag r []).finish :=
    Upholds.trans .of_apart (finish_upholds _)
  unfold State.judgeFrame
  refine .ite .of_apart ?_
  split
  · exact answered _
  · exact .ite (carryOut_upholds s _) (answered _)

theorem linkByte_upholds (s : State) (b : Byte) : Upholds s (s.linkByte b) := by
  unfold State.linkByte; dsimp only
  have built : Upholds s (s.modLink fun l => { l with rx := (receive Config.linkStart 3 s.link.rx b).1 }) := .of_apart
  split
  · exact built
  · exact built.trans .of_apart
  · exact built.trans .of_apart
  · exact built.trans (judgeFrame_upholds _ _ _ _)

theorem linkBytes_upholds (s : State) (bytes : List Byte) : Upholds s (bytes.foldl State.linkByte s) :=
  upholds_foldl State.linkByte linkByte_upholds bytes s

/-! ### Every command -/

/-- A row that the running part carries out. -/
theorem row_upholds (s : State) (f : State → State) (hf : Upholds s (f s)) :
    ∃ t, (.next (s.whileRunning f) : Effect) = .next t ∧ Upholds s t :=
  ⟨_, rfl, whileRunning_upholds s f hf⟩

theorem row_steady (s : State) (f : State → State) (hf : Steady s (f s)) :
    ∃ t, (.next (s.whileRunning f) : Effect) = .next t ∧ Upholds s t :=
  row_upholds s f hf.upholds

theorem change_upholds (s : State) (h : Hoist) (line : InputLine) (level : Bool) :
    ∃ t, exec (line.change h level) s = .next t ∧ Upholds s t := by
  rw [exec_change]
  have set : Upholds s (s.lined h line level) := .of_apart
  exact row_upholds s _ (.ite (.refl s) (set.trans (acts_steady line h level _).upholds))

theorem drivePowerChange_upholds (s : State) (level : Bool) :
    ∃ t, exec (.drivePowerChange level) s = .next t ∧ Upholds s t := by
  refine row_upholds s _ (.ite (.refl s) ?_)
  obtain ⟨m, e⟩ := markIf_only ({ s with drivePower := level }.modLink fun l => { l with powerLatch := true })
    (!s.link.powerLatch) .input
  dsimp only
  rw [e]
  exact .of_apart

theorem powerLoss_upholds (s : State) (supply : Bool) :
    ∃ t, exec (.powerLoss supply) s = .next t ∧ Upholds s t :=
  ⟨_, rfl, .ite .of_apart (.ite .of_apart (.refl s))⟩

/-- The messages a dip context takes (R27, R30, R31, R33 to R35, R40). -/
theorem mail_upholds (s : State) (h : Hoist) (c : Instr)
    (mail : c = .claimGrant h ∨ c = .motionReached h ∨ c = .motionFailed h ∨ c = .weighResult h) :
    ∃ t, exec c s = .next t ∧ Upholds s t := by
  rcases mail with rfl | rfl | rfl | rfl
  all_goals refine row_steady s _ ?_; split
  · exact (modMail_steady _ _ _).trans (takeGrant_steady _ _ _)
  · exact .refl s
  · exact (modMail_steady _ _ _).trans (takeReached_steady _ _ _)
  · exact .refl s
  · exact (modMail_steady _ _ _).trans (enterHeld_steady _ _)
  · exact .refl s
  · exact (modMail_steady _ _ _).trans (takeResult_steady _ _ _)
  · exact .refl s

/-- What the Level Unit takes and processes (R127, R129, R130). -/
theorem level_upholds (s : State) (c : Instr)
    (level : (∃ h, c = .captureArrival h ∨ c = .hoistViewReport h) ∨ c = .captureProcessStep) :
    ∃ t, exec c s = .next t ∧ Upholds s t := by
  obtain ⟨h, rfl | rfl⟩ | rfl := level
  · refine row_steady s _ ?_
    split
    · exact (modMail_steady _ _ _).trans (takeCapture_steady _ _ _)
    · exact .refl s
  · refine row_steady s _ ?_
    split
    · exact (modMail_steady _ _ _).trans (modLu_steady _ _)
    · exact .refl s
  · refine row_steady s _ (.ite ?_ (.refl s))
    split
    · exact processCapture_steady _ _ _
    · exact .refl s

theorem weighTimerExpiry_upholds (s : State) : ∃ t, exec .weighTimerExpiry s = .next t ∧ Upholds s t := by
  refine row_steady s _ ?_
  split
  · exact .ite (weighEnds_steady _ _ _ _) (.refl s)
  · exact .refl s

theorem autoFeedRequest_upholds (s : State) : ∃ t, exec .autoFeedRequest s = .next t ∧ Upholds s t := by
  refine row_upholds s _ ?_
  split
  · exact .refl s
  · rename_i n rest _
    have taken : Upholds s { s with autoRequests := rest } := .of_apart
    exact .ite (taken.trans (startFeed_steady _ _ _).upholds) taken

theorem dispenseSent_upholds (s : State) : ∃ t, exec .dispenseSent s = .next t ∧ Upholds s t := by
  refine row_upholds s _ ?_
  split
  · exact .ite .of_apart .of_apart
  · exact .refl s

theorem relayFrameSent_upholds (s : State) : ∃ t, exec .relayFrameSent s = .next t ∧ Upholds s t := by
  refine row_upholds s _ ?_
  split
  · exact .of_apart
  · exact .refl s

theorem relayHoldExpiry_upholds (s : State) : ∃ t, exec .relayHoldExpiry s = .next t ∧ Upholds s t := by
  refine row_upholds s _ ?_
  split
  · exact .ite .of_apart (.refl s)
  · exact .refl s

theorem feederTimerExpiry_upholds (s : State) : ∃ t, exec .feederTimerExpiry s = .next t ∧ Upholds s t := by
  refine row_steady s _ (.ite ?_ (.refl s))
  split
  · exact feedUnanswered_steady s
  · exact feedUnconfirmed_steady s
  · exact .refl s

/-- Every command keeps the book balanced and the held zones in runway order. -/
theorem exec_upholds (c : Instr) (s : State) : ∃ t, exec c s = .next t ∧ Upholds s t := by
  cases requested : c.linkTag? with
  | some tag => exact ⟨_, exec_request s c tag requested, carryOut_upholds s c⟩
  | none =>
    cases c with
    | powerOn pins => exact ⟨_, rfl, (powerOn_upholds s pins).trans (finish_upholds _)⟩
    | powerLoss supply => exact powerLoss_upholds s supply
    | retentionSupplyLoss => exact ⟨_, rfl, .of_apart⟩
    | txFrameEnd => exact row_upholds s _ .of_apart
    | clFrameRejected bytes => exact row_upholds s _ (linkBytes_upholds s bytes)
    | clFrameGap bytes => exact row_upholds s _ ((linkBytes_upholds s bytes).trans .of_apart)
    | readyChange h level => exact change_upholds s h .ready level
    | driveFaultChange h level => exact change_upholds s h .driveFault level
    | topChange h level => exact change_upholds s h .top level
    | alignedChange h level => exact change_upholds s h .aligned level
    | areaClearChange h level => exact change_upholds s h .areaClear level
    | rehangInputChange h level => exact change_upholds s h .rehang level
    | drivePowerChange level => exact drivePowerChange_upholds s level
    | stepPulse h => exact row_steady s _ (pulse_steady s h)
    | readyTimeout h => exact row_steady s _ (.ite (readyExpires_steady s h) (.refl s))
    | claimGrant h | motionReached h | motionFailed h | weighResult h => exact mail_upholds s h _ (by simp)
    | alignTimeout h => exact row_steady s _ (.ite (closeUnlowered_steady s h _ _) (.refl s))
    | dwellTimerExpiry h =>
      exact row_steady s _ (.ite (.refl s) (.ite (toLifting_steady s h) (modCtx_steady _ _ _)))
    | drainTimerExpiry h =>
      exact row_steady s _
        (.ite (.refl s) (.ite ((modCtx_steady _ _ _).trans (drainCheck_steady _ _)) (modCtx_steady _ _ _)))
    | dwellOverrun h => exact row_steady s _ ((modCtx_steady _ _ _).trans (checkOverrun_steady _ h))
    | samplePeriodEnd count => exact row_steady s _ (periodEnd_steady s count)
    | weighTimerExpiry => exact weighTimerExpiry_upholds s
    | captureArrival h | hoistViewReport h | captureProcessStep => exact level_upholds s _ (by simp)
    | autoFeedRequest => exact autoFeedRequest_upholds s
    | dispenseSent => exact dispenseSent_upholds s
    | relayFrameSent => exact relayFrameSent_upholds s
    | feederFrameDiscarded bytes => exact row_upholds s _ (feederBytes_upholds s bytes)
    | feederFrameGap bytes => exact row_upholds s _ ((feederBytes_upholds s bytes).trans .of_apart)
    | accept p | decline p | drop p | done p | feederOtherFrame k p =>
      exact row_upholds s _ (feederFrame_upholds s _ p)
    | feederTimerExpiry => exact feederTimerExpiry_upholds s
    | settleTimerExpiry => exact row_steady s _ (.ite (settleOver_steady s) (.refl s))
    | relayHoldExpiry => exact relayHoldExpiry_upholds s
    | alarmTimerExpiry kind => exact row_steady s _ (.ite (alarmExpires_steady s _) (.refl s))
    | beaconTimerExpiry => exact row_upholds s _ (.ite .of_apart (.refl s))
    | claimWaitAlert h => exact row_steady s _ (alertClaims_steady s _)
    | runtimeTick => exact row_upholds s _ .of_apart
    | _ => cases requested

/-- Every step does: the front command, or a tenth of a second. -/
theorem step_upholds (s t : State) (stepped : step s = .next t) : Upholds s t := by
  unfold step at stepped
  split at stepped
  · obtain rfl := Host.Outcome.next.inj stepped
    exact .ite .of_apart (.refl s)
  · rename_i c rest _
    obtain ⟨u, taken, upheld⟩ := exec_upholds c { s with pending := rest }
    obtain rfl := Host.Outcome.next.inj (taken.symm.trans stepped)
    exact ⟨upheld.book, upheld.runway⟩

/-- Settles O56: every write, raise, trim and reset of the book moves base, journal, inventory and totals together. -/
theorem bookStaysBalanced : Obligations.BookStaysBalanced := by
  unfold Obligations.BookStaysBalanced
  exact fun s t stepped => (step_upholds s t stepped).book

end Sys2Proof.Machine
end

section
/-! The Zinc Book's requests that change it: BOOK_OPEN, BOOK_POST, BOOK_TRIM (R73, R74, R76). Each is an answer of its
owner, and what it leaves is the book changed, with take attempts that come to nothing where no order waits. -/

namespace Sys2Proof.Machine

set_option Elab.async false

/-! ### An entry written (R58, R62, R63) -/

theorem EntryKind.ix_inj {j k : EntryKind} (e : j.ix = k.ix) : j = k := by
  revert e; cases j <;> cases k <;> decide

section
variable (r : Retained) (e : Entry)

/-- The kind's count rises by one and stops at its end, its sum moves by the amount. -/
theorem write_total : (r.write e).totals[e.kind.ix] =
    ⟨min 4294967295 (r.totals[e.kind.ix].count + 1), r.totals[e.kind.ix].sum + e.amount⟩ :=
  Vector.getElem_set_self e.kind.ix.isLt

theorem write_total_other (j : EntryKind) (other : j ≠ e.kind) : (r.write e).totals[j.ix] = r.totals[j.ix] :=
  Vector.getElem_set_ne e.kind.ix.isLt j.ix.isLt fun same => other (EntryKind.ix_inj (Fin.ext same.symm))

end

/-! ### What a request on the book leaves -/

/-- A machine whose book has changed: its retained area, the nearly-full mark and the marks, and the take attempts that
an event of R9 leaves. -/
def State.booked (s : State) (r : Retained) (full : Bool) (marks : Vector Bool 6) (takes : List Follow) : State :=
  { s with kept := r, nearlyFull := full, link := { s.link with marks := marks },
           agenda := ⟨s.agenda.reports, s.agenda.follow ++ takes⟩ }

theorem bookFinal_booked (s : State) (k : EntryKind) (amount : Int) (note : Option Nat) : ∃ full marks,
    s.bookFinal k amount note = s.booked (s.kept.write (Entry.fixed k s.kept.runtime amount note)) full marks [] := by
  unfold State.bookFinal
  obtain ⟨m, marked⟩ := mark_only (s.modKept fun r => r.write (Entry.fixed k r.runtime amount note)) .book
  rw [marked]
  obtain ⟨full, m, judged⟩ := judgeNearly_only { s.modKept fun r => r.write (Entry.fixed k r.runtime amount note) with
    link := { s.link with marks := m } }
  refine ⟨full, m, judged.trans ?_⟩
  unfold State.booked
  rw [List.append_nil]
  rfl

theorem openBook_booked (s : State) (n : Nat) : ∃ full marks, s.openBook n =
    s.booked (s.kept.reopen.write (Entry.fixed .opening s.kept.runtime n none)) full marks
      (s.takesAfterReturn 1) := by
  obtain ⟨full, m, written⟩ := bookFinal_booked (s.modKept Retained.reopen) .opening n none
  unfold State.openBook
  rw [written, takeAll_eq]
  refine ⟨full, m, ?_⟩
  unfold State.booked
  rw [List.append_nil]
  rfl

theorem trimList_stays (n : Nat) (l : List Entry) (none_removed : (trimList n l).1 = []) : (trimList n l).2 = l := by
  cases l with
  | nil => rfl
  | cons e es =>
    unfold trimList at none_removed ⊢
    split at none_removed
    · cases none_removed
    · rename_i stays
      rw [if_neg stays]

theorem trim_of_none (r : Retained) (n : Nat) (none_removed : (trimList n r.journal).1 = []) : r.trim n = r := by
  unfold Retained.trim
  dsimp only
  rw [trimList_stays n _ none_removed, none_removed, show amounts [] = 0 from rfl, Int.add_zero]

/-- A trim that removes nothing leaves the area as it is, and no take attempt. -/
theorem trimBook_booked (s : State) (n : Nat) : ∃ full marks, s.trimBook n =
    s.booked (s.kept.trim n) full marks (s.takesAfterReturn (trimList n s.kept.journal).1.length) := by
  unfold State.trimBook State.takesAfterReturn
  dsimp only
  split
  · rename_i none_removed
    refine ⟨s.nearlyFull, s.link.marks, ?_⟩
    unfold State.booked
    rw [trim_of_none _ n (List.eq_nil_of_length_eq_zero none_removed), List.append_nil]
  · obtain ⟨full, m, judged⟩ := judgeNearly_only (s.modKept fun r => r.trim n)
    rw [judged, takeAll_eq]
    exact ⟨full, m, rfl⟩

/-- Where no order is QUEUED, a line-wide event of R9 comes to nothing. -/
theorem takes_rest (s t : State) (q : t.noneQueued) (n : Nat) : ∀ y ∈ s.takesAfterReturn n, y.resting t := by
  intro y due
  unfold State.takesAfterReturn at due
  split at due
  · cases due
  · obtain ⟨h, _, rfl⟩ := List.mem_map.1 due
    exact .inl (offered_of_noneQueued t h q)

/-- A request that has changed the book, with take attempts that come to nothing: the change and the reply. -/
theorem request_booked (s : State) (l : s.listening) (k : ReqKind) (tag : Nat) (f : State → Answer) (r : Retained)
    (full : Bool) (marks : Vector Bool 6) (takes : List Follow) (fields : List Field)
    (e : f s.unbuilt = ⟨s.unbuilt.booked r full marks takes, .ok, fields⟩) (rests : ∀ y ∈ takes, y.resting s)
    (few : takes.length ≤ 4) : ∃ link,
    (.next (s.request k tag f) : Effect) = .next { s with kept := r, nearlyFull := full, link := link } ∧
    Replies s { s with kept := r, nearlyFull := full, link := link } k tag .ok fields := by
  have idle : s.agenda = Agenda.empty := l.1.2
  have due : (s.unbuilt.booked r full marks takes).agenda = ⟨[], takes⟩ := by
    have here : s.unbuilt.agenda = Agenda.empty := idle
    unfold State.booked
    dsimp only
    rw [here]; rfl
  have rests' : ∀ y ∈ takes, y.resting (s.unbuilt.booked r full marks takes) := by
    intro y hy
    have here := rests y hy
    cases y with
    | take h => exact here
    | rehang h => exact here
  obtain ⟨link, finished, sent⟩ := finish_quiet _ [] takes [replyTo k tag .ok fields] due trivial rests'
    (by rw [List.length_nil]; omega)
  refine ⟨link, congrArg Host.Outcome.next ((request_of_listening s k tag f l).trans ?_), sent.owed⟩
  have answered := congrArg (fun a : Answer => (a.state.addReply k.code tag a.result a.fields).settle.transmit) e
  refine answered.trans (finished.trans ?_)
  rw [← idle]
  rfl

/-! ### BOOK_OPEN (R73) -/

theorem openBusy_iff (s : State) : s.openBusy = true ↔
    s.kept.bookOpen = true ∧ (s.kept.journal ≠ [] ∨ s.reserved ≠ 0 ∨ s.kept.seqSpent = true) := by
  simp [State.openBusy, or_assoc]

/-- What the owner of BOOK_OPEN answers. -/
def State.openAnswer (s : State) (n : Nat) : Answer :=
  if within n 0 20000000 then
    if s.openBusy then s.refuse .busy else (s.openBook n).okay [fN 4 s.kept.nextSeq]
  else s.refuse .badValue

theorem exec_bookOpen (s : State) (tag n : Nat) :
    exec (.bookOpen tag n) s = .next (s.request .bookOpen tag fun s => s.openAnswer n) := rfl

theorem within_opening (n : Nat) : within n 0 20000000 = true ↔ n ≤ 20000000 := by simp [within]

theorem bookOpen_outside (s : State) (tag n : Nat) (l : s.listening) (outside : 20000000 < n) :
    exec (.bookOpen tag n) s = .next (s.replied .bookOpen tag .badValue) :=
  (exec_bookOpen s tag n).trans (request_answered s l .bookOpen tag _ .badValue []
    (if_neg fun inside => Nat.not_le.2 outside ((within_opening n).1 inside)))

theorem bookOpen_busy (s : State) (tag n : Nat) (l : s.listening) (inside : n ≤ 20000000) (busy : s.openBusy = true) :
    exec (.bookOpen tag n) s = .next (s.replied .bookOpen tag .busy) :=
  (exec_bookOpen s tag n).trans (request_answered s l .bookOpen tag _ .busy []
    ((if_pos ((within_opening n).2 inside)).trans (if_pos busy)))

/-- The retained area after an opening. -/
def Retained.opened (r : Retained) (n : Nat) : Retained := r.reopen.write (Entry.fixed .opening r.runtime n none)

theorem bookOpen_opens (s : State) (tag n : Nat) (l : s.listening) (inside : n ≤ 20000000) (free : ¬s.openBusy = true)
    (q : s.noneQueued) : ∃ full link,
    exec (.bookOpen tag n) s = .next { s with kept := s.kept.opened n, nearlyFull := full, link := link } ∧
    Replies s { s with kept := s.kept.opened n, nearlyFull := full, link := link } .bookOpen tag .ok
      [fN 4 s.kept.nextSeq] := by
  obtain ⟨full, marks, opened⟩ := openBook_booked s.unbuilt n
  have answer : s.unbuilt.openAnswer n = (s.unbuilt.openBook n).okay [fN 4 s.kept.nextSeq] :=
    (if_pos ((within_opening n).2 inside)).trans (if_neg free)
  rw [opened] at answer
  obtain ⟨link, taken, replies⟩ := request_booked s l .bookOpen tag (fun s => s.openAnswer n) _ full marks _ _ answer
    (takes_rest s.unbuilt s q 1) (takesAfterReturn_length s.unbuilt 1)
  exact ⟨full, link, (exec_bookOpen s tag n).trans taken, replies⟩

/-- Settles O27: the owner refuses, or reopens the book and writes one entry. -/
theorem bookOpens : Obligations.BookOpens := by
  unfold Obligations.BookOpens
  refine fun s tag n l => ⟨bookOpen_outside s tag n l, fun inside isOpen stands =>
    bookOpen_busy s tag n l inside ((openBusy_iff s).2 ⟨isOpen, stands⟩), fun inside q free => ?_⟩
  have notBusy : ¬s.openBusy = true := by
    rw [openBusy_iff]
    rintro ⟨isOpen, stands⟩
    rcases free with closed | ⟨empty, unreserved, unspent⟩
    · rw [closed] at isOpen; cases isOpen
    · simp [empty, unreserved, unspent] at stands
  obtain ⟨full, link, taken, replies⟩ := bookOpen_opens s tag n l inside notBusy q
  have total (k : EntryKind) : s.kept.reopen.totals[k.ix] = ⟨0, 0⟩ := Vector.getElem_replicate _
  refine ⟨_, taken, replies, rfl, ?_, ⟨_, rfl, rfl, rfl, rfl, rfl, rfl, rfl⟩, ?_, fun k other => ?_, rfl⟩
  · simp [Retained.opened, Retained.write, Retained.addTotal, Retained.reopen, Entry.fixed, Entry.blank]
  · refine (write_total s.kept.reopen (Entry.fixed .opening s.kept.runtime n none)).trans ?_
    rw [show s.kept.reopen.totals[(Entry.fixed .opening s.kept.runtime n none).kind.ix] = ⟨0, 0⟩ from total .opening]
    simp [Entry.fixed, Entry.blank]
  · exact (write_total_other s.kept.reopen (Entry.fixed .opening s.kept.runtime n none) k other).trans (total k)

/-! ### BOOK_POST (R74) -/

/-- The kinds that a post may carry. -/
def EntryKind.posted (k : EntryKind) : Prop := k = .dross ∨ k = .ash ∨ k = .correction

theorem postKind?_code (k : EntryKind) (posted : k.posted) : postKind? k.code = some k := by
  obtain rfl | rfl | rfl := posted <;> rfl

theorem postKind?_eq_none (code : Nat) (other : code ≠ 3 ∧ code ≠ 4 ∧ code ≠ 5) : postKind? code = none := by
  obtain ⟨dross, ash, correction⟩ := other
  unfold postKind?
  split
  · exact absurd rfl dross
  · exact absurd rfl ash
  · exact absurd rfl correction
  · rfl

theorem postMassOk_eq_false (k : EntryKind) (mass : Int) : postMassOk k mass = false ↔
    (k = .correction ∧ (mass = 0 ∨ mass < -1000000 ∨ 1000000 < mass)) ∨
    (k ≠ .correction ∧ (mass < 1 ∨ 1000000 < mass)) := by
  have range (lo hi : Int) : withinInt mass lo hi = false ↔ mass < lo ∨ hi < mass := by
    unfold withinInt
    rw [decide_eq_false_iff_not, not_and_or, not_le, not_le]
  cases k <;> simp [postMassOk, range, or_iff_not_imp_left]

theorem postAmount_eq (k : EntryKind) (mass : Int) : postAmount k mass = if k = .correction then mass else -mass := by
  cases k <;> rfl

theorem postFull_iff (s : State) : s.postFull = true ↔ s.free = 0 ∨ s.kept.seqLeft ≤ s.reserved := by
  simp [State.postFull]

/-- What the owner of BOOK_POST answers for a kind that may be posted. -/
def State.postAnswer (s : State) (k : EntryKind) (mass : Int) (note : Nat) : Answer :=
  if !postMassOk k mass then s.refuse .badValue
  else if !s.kept.bookOpen then s.refuse .bookClosed
  else if s.postFull then s.refuse .bookFull
  else (s.bookFinal k (postAmount k mass) (some note)).okay
    [fN 4 s.kept.nextSeq, (8, s.kept.inventory + postAmount k mass)]

theorem exec_bookPost (s : State) (tag : Nat) (k : EntryKind) (mass : Int) (note : Nat) (posted : k.posted) :
    exec (.bookPost tag k.code mass note) s =
      .next (s.request .bookPost tag fun s => s.postAnswer k mass note) := by
  show (.next (s.request .bookPost tag fun s => match postKind? k.code with
    | none => s.refuse .badValue
    | some k => s.postAnswer k mass note) : Effect) = _
  rw [postKind?_code k posted]

theorem bookPost_unknown (s : State) (tag code : Nat) (mass : Int) (note : Nat) (l : s.listening)
    (other : code ≠ 3 ∧ code ≠ 4 ∧ code ≠ 5) :
    exec (.bookPost tag code mass note) s = .next (s.replied .bookPost tag .badValue) := by
  refine request_answered s l .bookPost tag _ .badValue [] ?_
  simp only [postKind?_eq_none code other]
  rfl

/-- The retained area after a post. -/
def Retained.posted (r : Retained) (k : EntryKind) (amount : Int) (note : Nat) : Retained :=
  r.write (Entry.fixed k r.runtime amount (some note))

theorem bookPost_books (s : State) (tag : Nat) (k : EntryKind) (mass : Int) (note : Nat) (l : s.listening)
    (posted : k.posted) (massOk : postMassOk k mass = true) (isOpen : s.kept.bookOpen = true)
    (room : s.postFull = false) : ∃ full link,
    exec (.bookPost tag k.code mass note) s =
      .next { s with kept := s.kept.posted k (postAmount k mass) note, nearlyFull := full, link := link } ∧
    Replies s { s with kept := s.kept.posted k (postAmount k mass) note, nearlyFull := full, link := link }
      .bookPost tag .ok [fN 4 s.kept.nextSeq, (8, s.kept.inventory + postAmount k mass)] := by
  have isOpen' : s.unbuilt.kept.bookOpen = true := isOpen
  have room' : s.unbuilt.postFull = false := room
  obtain ⟨full, marks, written⟩ := bookFinal_booked s.unbuilt k (postAmount k mass) (some note)
  obtain ⟨link, taken, replies⟩ := request_booked s l .bookPost tag (fun s => s.postAnswer k mass note)
    (s.kept.posted k (postAmount k mass) note) full marks []
    [fN 4 s.kept.nextSeq, (8, s.kept.inventory + postAmount k mass)]
    (by
      simp only [State.postAnswer, massOk, isOpen', room', written, Bool.not_true, Bool.false_eq_true, if_false]
      rfl)
    (fun y hy => nomatch hy) (Nat.zero_le 4)
  exact ⟨full, link, (exec_bookPost s tag k mass note posted).trans taken, replies⟩

/-- Settles O28: the checks in their order, and the entry written. -/
theorem postBooked : Obligations.PostBooked := by
  unfold Obligations.PostBooked
  refine fun s tag code note mass l => ⟨bookPost_unknown s tag code mass note l, ?_⟩
  rintro k posted rfl
  have refused (r : Result) (e : s.unbuilt.postAnswer k mass note = s.unbuilt.refuse r) :
      exec (.bookPost tag k.code mass note) s = .next (s.replied .bookPost tag r) :=
    (exec_bookPost s tag k mass note posted).trans (request_answered s l .bookPost tag _ r [] e)
  simp only [← postMassOk_eq_false, ← postFull_iff]
  split
  · rename_i outside
    exact refused .badValue (by simp [State.postAnswer, outside])
  rename_i inside
  have massOk : postMassOk k mass = true := by simpa using inside
  split
  · rename_i closed
    have closed' : s.unbuilt.kept.bookOpen = false := closed
    exact refused .bookClosed (by simp [State.postAnswer, massOk, closed'])
  rename_i isOpen
  have isOpen : s.kept.bookOpen = true := by simpa using isOpen
  split
  · rename_i none_free
    have isOpen' : s.unbuilt.kept.bookOpen = true := isOpen
    have none_free' : s.unbuilt.postFull = true := none_free
    exact refused .bookFull (by simp [State.postAnswer, massOk, isOpen', none_free'])
  rename_i room
  obtain ⟨full, link, taken, replies⟩ := bookPost_books s tag k mass note l posted massOk isOpen (by simpa using room)
  rw [← postAmount_eq]
  exact ⟨_, taken, replies, rfl, ⟨_, rfl, rfl, rfl, rfl, rfl, rfl, rfl, rfl⟩, rfl, rfl, write_total s.kept _,
    fun j other => write_total_other s.kept _ j other⟩

/-! ### BOOK_TRIM (R76) -/

/-- The fields of BOOK_TRIM's reply (R76). -/
def State.trimFields (s : State) (n : Nat) : List Field :=
  fOptN 4 (s.kept.trimLast n) ++ [fN 2 (s.trimBook n).used] ++
    (if (s.kept.trimLast n).isNone then [fN 1 (s.kept.trimReason n)] else [])

/-- What the owner of BOOK_TRIM answers. -/
def State.trimAnswer (s : State) (n : Nat) : Answer :=
  if s.kept.bookOpen then (s.trimBook n).okay (s.trimFields n) else s.refuse .bookClosed

theorem exec_bookTrim (s : State) (tag n : Nat) :
    exec (.bookTrim tag n) s = .next (s.request .bookTrim tag fun s => s.trimAnswer n) := rfl

theorem bookTrim_closed (s : State) (tag n : Nat) (l : s.listening) (closed : s.kept.bookOpen = false) :
    exec (.bookTrim tag n) s = .next (s.replied .bookTrim tag .bookClosed) :=
  (exec_bookTrim s tag n).trans (request_answered s l .bookTrim tag _ .bookClosed []
    (if_neg fun isOpen => Bool.false_ne_true (closed.symm.trans isOpen)))

theorem bookTrim_trims (s : State) (tag n : Nat) (l : s.listening) (isOpen : s.kept.bookOpen = true)
    (q : s.noneQueued) : ∃ full link fields,
    exec (.bookTrim tag n) s = .next { s with kept := s.kept.trim n, nearlyFull := full, link := link } ∧
    Replies s { s with kept := s.kept.trim n, nearlyFull := full, link := link } .bookTrim tag .ok fields := by
  obtain ⟨full, marks, trimmed⟩ := trimBook_booked s.unbuilt n
  have answer : s.unbuilt.trimAnswer n = (s.unbuilt.trimBook n).okay (s.unbuilt.trimFields n) := if_pos isOpen
  rw [trimmed] at answer
  obtain ⟨link, taken, replies⟩ := request_booked s l .bookTrim tag (fun s => s.trimAnswer n) _ full marks _ _ answer
    (takes_rest s.unbuilt s q _) (takesAfterReturn_length s.unbuilt _)
  exact ⟨full, link, _, (exec_bookTrim s tag n).trans taken, replies⟩

/-- Settles O29: the run of FINAL entries at the oldest end leaves the journal for the base. -/
theorem trimMovesToBase : Obligations.TrimMovesToBase := by
  unfold Obligations.TrimMovesToBase
  refine fun s tag n l => ⟨bookTrim_closed s tag n l, fun isOpen q => ?_⟩
  obtain ⟨full, link, fields, taken, replies⟩ := bookTrim_trims s tag n l isOpen q
  refine ⟨_, taken, rfl, ?_, ?_, fields, replies⟩
  · exact congrArg Prod.snd (trimList_eq n s.kept.journal)
  · exact congrArg (fun removed => s.kept.base + amounts removed) (congrArg Prod.fst (trimList_eq n s.kept.journal))

end Sys2Proof.Machine
end

section
/-! The run-time counter and the alert of a waiting claim (R80, R96), and what a part that does not run keeps (R80, R81,
R202). -/

namespace Sys2Proof.Machine

set_option Elab.async false

/-! ### RUNTIME_TICK and CLAIM_WAIT_ALERT (R80, R96) -/

/-- A claim that is due is marked alerted; one marked already stays so. -/
theorem alert_claim (s : State) (h : Hoist) (c : Claim) :
    (if ((c.hoist == h) && s.alertDue c) = true then { c with alerted := true } else c) =
      if c.hoist = h ∧ s.kept.kettle.waitAlert < s.kept.runtime - c.arrival then { c with alerted := true } else c := by
  cases marked : c.alerted with
  | false => simp [State.alertDue, marked]
  | true =>
    have same : ({ c with alerted := true } : Claim) = c := by rw [← marked]
    rw [same, ite_self, ite_self]

theorem alertClaims_one (s : State) (h : Hoist) : ∃ marks, s.alertClaims (fun x => x == h) =
    { s with waits := s.waits.map fun c =>
               if c.hoist = h ∧ s.kept.kettle.waitAlert < s.kept.runtime - c.arrival then { c with alerted := true }
               else c,
             link := { s.link with marks := marks } } := by
  unfold State.alertClaims
  dsimp only
  simp only [alert_claim]
  exact markIf_only _ _ _

/-- Settles O30: the counter rises, and the waiting claims of the hoist that are due are marked. -/
theorem runtimeCountsAndAlerts : Obligations.RuntimeCountsAndAlerts := by
  unfold Obligations.RuntimeCountsAndAlerts
  refine ⟨fun s live => ?_, fun s h live => ?_⟩
  · obtain ⟨link, taken, _⟩ := whileRunning_idle s _ (fun s =>
      { s.modKept fun r => { r with runtime := min 4294967295 (r.runtime + 1) } with tenths := 0 }) live rfl live.2
    exact ⟨_, taken, rfl⟩
  · obtain ⟨marks, alerted⟩ := alertClaims_one s h
    obtain ⟨link, taken, _⟩ := whileRunning_idle s _ (fun s => s.alertClaims fun x => x == h) live alerted live.2
    exact ⟨_, taken, rfl, rfl⟩

/-! ### A part that does not run (R80, R81, R202) -/

/-- Only the supplies act on a part that does not run. -/
theorem exec_not_running (s : State) (c : Instr) (off : s.power ≠ .running) (notOn : ∀ p, c ≠ .powerOn p)
    (notLoss : ∀ b, c ≠ .powerLoss b) (notRetention : c ≠ .retentionSupplyLoss) : exec c s = .next s := by
  cases c with
  | powerOn pins => exact absurd rfl (notOn pins)
  | powerLoss supply => exact absurd rfl (notLoss supply)
  | retentionSupplyLoss => exact absurd rfl notRetention
  | _ => exact congrArg Host.Outcome.next (if_neg off)

/-- Settles O3: the rows of the running part find it off, and each loss by the power condition it finds. -/
theorem powerConditionsKept : Obligations.PowerConditionsKept := by
  unfold Obligations.PowerConditionsKept
  refine ⟨exec_not_running, fun s => ⟨rfl, fun running => ?_, fun off => ?_, fun unpowered => ?_, fun powered => ?_⟩⟩
  · exact congrArg Host.Outcome.next (if_pos running)
  · exact congrArg Host.Outcome.next (if_neg off)
  · have lost : (s.checkGood && s.power != .unpowered) = false := by rw [unpowered, bne_self_eq_false, Bool.and_false]
    exact congrArg (fun good => Host.Outcome.next { s with vbak := false, checkGood := good }) lost
  · have stays : (s.checkGood && s.power != .unpowered) = s.checkGood := by
      rw [bne_iff_ne.2 powered, Bool.and_true]
    exact congrArg (fun good => Host.Outcome.next { s with vbak := false, checkGood := good }) stays

end Sys2Proof.Machine
end

section
/-! A power-on over the retained area (R82, R83): RETAINED_LOST is the first report after a cold start, and no later one
takes its entry back. -/

namespace Sys2Proof.Machine

set_option Elab.async false

/-! ### Reports worked off over parked dip contexts (R179, R181) -/

/-- Over parked dip contexts an occurrence is its entry, its beacon and its mark alone. -/
theorem occurrence_parked (s : State) (k : FaultKind) (who : Option Hoist) (p : s.allParked) :
    s.occurrence k who = s.struck k who := by
  have p' : (s.struck k who).allParked := p
  cases state : (s.entries[k.ix]'k.ix.2).state with
  | clear =>
    by_cases at_once : (s.kept.faults[k.ix]'k.ix.2).delay = 0
    · rw [occurrence_latches s k who state at_once, foldl_fixed _ _ fun h => enterHeld_of_parked _ h (p' h).1,
        foldl_fixed _ _ fun h => react_of_parked _ _ h p', ite_self]
    · exact occurrence_delayed s k who state at_once
  | alarm => exact occurrence_alarm s k who (by rw [state]; decide) (by rw [state]; decide)
  | active =>
    rw [occurrence_active s k who state]
    cases s.gained k who with
    | none => rfl
    | some h => exact react_of_parked _ _ h p'

/-- The entry of a kind is ACTIVE. -/
abbrev State.hasActive (s : State) (k : FaultKind) : Prop := (s.entries[k.ix]'k.ix.2).state = .active

/-- An occurrence leaves an ACTIVE entry ACTIVE, its own or another's. -/
theorem struck_hasActive (s : State) (j k : FaultKind) (who : Option Hoist) (a : s.hasActive k) :
    (s.struck j who).hasActive k := by
  by_cases same : k = j
  · subst same
    have latched : (s.entries[k.ix]'k.ix.2).state ≠ .clear := by rw [a]; decide
    refine (congrArg FaultEntry.state (struck_entry s k who)).trans ?_
    unfold State.struckEntry
    rw [if_neg latched]
    exact a
  · exact (congrArg FaultEntry.state (struck_other s j k who (FaultKind.ix_ne same))).trans a

/-- An occurrence without an alarm delay makes a CLEAR entry ACTIVE. -/
theorem struck_latches (s : State) (k : FaultKind) (who : Option Hoist)
    (clear : (s.entries[k.ix]'k.ix.2).state = .clear)
    (at_once : (s.kept.faults[k.ix]'k.ix.2).delay = 0) : (s.struck k who).hasActive k := by
  refine (congrArg FaultEntry.state (struck_entry s k who)).trans ?_
  rw [struckEntry_clear s k who clear]
  exact if_pos at_once

theorem keepValue_state (e : FaultEntry) (who : Option Hoist) (present : Bool) :
    (e.keepValue who present).state = e.state := by
  cases who <;> rfl

/-- The value of a condition leaves an entry's state alone. -/
theorem valued_hasActive (s : State) (j k : FaultKind) (who : Option Hoist) (present : Bool) (a : s.hasActive k) :
    (s.valued j who present).hasActive k := by
  by_cases same : k = j
  · subst same
    refine (congrArg FaultEntry.state (Vector.getElem_set_self k.ix.isLt)).trans ?_
    exact (keepValue_state _ who present).trans a
  · exact (congrArg FaultEntry.state (valued_other s j who present k (FaultKind.ix_ne same))).trans a

theorem takeReport_hasActive (s : State) (r : FaultReport) (k : FaultKind) (p : s.allParked) (a : s.hasActive k) :
    (s.takeReport r).hasActive k := by
  cases r with
  | occur j who =>
    have taken : s.takeReport (.occur j who) = s.struck j who := occurrence_parked s j who p
    rw [taken]
    exact struck_hasActive s j k who a
  | cond j who present =>
    have kept : State.hasActive (s.valued j who present) k := valued_hasActive s j k who present a
    have struck : (s.valued j who present).occurrence j who = (s.valued j who present).struck j who :=
      occurrence_parked _ j who p
    show State.hasActive (if _ then (s.valued j who present).occurrence j who else s.valued j who present) k
    split
    · rw [struck]
      exact struck_hasActive _ j k who kept
    · exact kept

theorem settleFor_hasActive (n : Nat) (s : State) (k : FaultKind) (reports : List FaultReport)
    (due : s.agenda = ⟨reports, []⟩) (p : s.allParked) (a : s.hasActive k) : (settleFor n s).hasActive k := by
  induction n generalizing s reports with
  | zero => exact a
  | succ n ih =>
    cases reports with
    | nil => rw [settleFor_of_empty _ s due]; exact a
    | cons r rs =>
      have p' : State.allParked { s with agenda := ⟨rs, []⟩ } := p
      obtain ⟨entries, b, m, taken⟩ := takeReport_of_parked { s with agenda := ⟨rs, []⟩ } r p'
      have still := takeReport_hasActive { s with agenda := ⟨rs, []⟩ } r k p' a
      rw [settleFor_report n s r rs [] due]
      rw [taken] at still ⊢
      exact ih _ rs rfl p still

/-! ### The first report of a cold start (R83) -/

theorem foldl_report_appends (f : State → Hoist → FaultReport) (l : List Hoist) (s : State) :
    ∃ reports, l.foldl (fun s h => s.report (f s h)) s =
      { s with agenda := ⟨s.agenda.reports ++ reports, s.agenda.follow⟩ } := by
  induction l generalizing s with
  | nil => exact ⟨[], by rw [List.append_nil]; rfl⟩
  | cons h hs ih =>
    obtain ⟨reports, e⟩ := ih (s.report (f s h))
    exact ⟨f s h :: reports, by rw [List.foldl_cons, e]; simp⟩

/-- The lines are reported after what was reported before. -/
theorem reportLines_appends (s : State) :
    ∃ reports, s.reportLines.agenda = ⟨s.agenda.reports ++ reports, s.agenda.follow⟩ := by
  obtain ⟨reports, e⟩ := foldl_report_appends (fun s h => .cond .driveFault (some h) s.inputs[h].driveFault) hoists s
  unfold State.reportLines
  rw [e]
  exact ⟨reports ++ _, congrArg (Agenda.mk · s.agenda.follow) (List.append_assoc _ _ _)⟩

theorem powerOn_cold_agenda (s : State) (pins : PowerOnPins) (bad : s.checkGood = false) :
    ∃ reports, (s.powerOn pins).agenda = ⟨.occur .retainedLost none :: reports, []⟩ := by
  unfold State.powerOn
  dsimp only
  generalize hu : (s.freshBlocks pins _ _).finishCutShort.markSkimDue = u
  have nothing : u.agenda = Agenda.empty := by
    obtain ⟨full, m, cut⟩ := finishCutShort_only (s.freshBlocks pins (if !s.checkGood then Retained.cold else s.kept)
      (!s.checkGood))
    rw [← hu, cut]
    unfold State.markSkimDue
    rw [markIf_agenda]
    rfl
  have cold : (!s.checkGood) = true := by rw [bad]; rfl
  obtain ⟨reports, e⟩ := reportLines_appends (u.report (.occur .retainedLost none))
  refine ⟨reports, ?_⟩
  rw [if_pos cold, e]
  simp [nothing, Agenda.empty]

theorem powerOn_allParked (s : State) (pins : PowerOnPins) : (s.powerOn pins).allParked := by
  obtain ⟨full, m, reports, on⟩ := powerOn_only s pins
  rw [on]
  intro h
  dsimp only
  rw [freshBlocks_ctx]
  exact ⟨rfl, rfl⟩

/-- After a cold start RETAINED_LOST is ACTIVE: its delay is 0 (R83, R175). -/
theorem powerOn_cold_hasActive (s : State) (pins : PowerOnPins) (bad : s.checkGood = false) :
    (s.powerOn pins).settle.hasActive .retainedLost := by
  obtain ⟨reports, due⟩ := powerOn_cold_agenda s pins bad
  have parked := powerOn_allParked s pins
  obtain ⟨full, m, _, on⟩ := powerOn_only s pins
  have clear : ((s.powerOn pins).entries[FaultKind.retainedLost.ix]'FaultKind.retainedLost.ix.2).state = .clear := by
    rw [on]; exact congrArg FaultEntry.state (Vector.getElem_replicate _)
  have at_once : ((s.powerOn pins).kept.faults[FaultKind.retainedLost.ix]'FaultKind.retainedLost.ix.2).delay = 0 := by
    rw [on]
    unfold State.foundArea
    rw [bad]
    rfl
  generalize s.powerOn pins = u at due parked clear at_once ⊢
  have taken : State.takeReport { u with agenda := ⟨reports, []⟩ } (.occur .retainedLost none) =
      State.struck { u with agenda := ⟨reports, []⟩ } .retainedLost none := occurrence_parked _ _ _ parked
  have latched : State.hasActive _ .retainedLost :=
    struck_latches { u with agenda := ⟨reports, []⟩ } .retainedLost none clear at_once
  have first : u.settle = settleFor 199 (State.struck { u with agenda := ⟨reports, []⟩ } .retainedLost none) :=
    (settleFor_report 199 u _ reports [] due).trans (congrArg _ taken)
  rw [first]
  exact settleFor_hasActive 199 _ _ reports rfl parked latched

/-! ### POWER_ON (R82, R83) -/

/-- Settles O6: the area found is kept with its open entries finalised, and after a cold start its loss is latched. -/
theorem powerOnRetainedArea : Obligations.PowerOnRetainedArea := by
  unfold Obligations.PowerOnRetainedArea
  intro s pins
  obtain ⟨full, m, reports, on⟩ := powerOn_only s pins
  obtain ⟨entries, b, m, tx, replies, a, finished, _⟩ :=
    finish_of_parked (s.powerOn pins) (powerOn_allParked s pins) (by rw [on])
  have kept : (s.powerOn pins).finish.kept =
      { s.foundArea with journal := s.foundArea.journal.map (Entry.interrupt s.foundArea.runtime) } := by
    rw [finished, on]
  have good : (s.powerOn pins).finish.checkGood = true := by rw [finished, on]; rfl
  have entries : (s.powerOn pins).finish.entries = (s.powerOn pins).settle.entries := by
    rw [State.finish, transmit_only_link]
  refine ⟨(s.powerOn pins).finish, rfl, fun bad => ⟨?_, ?_, good⟩, fun agrees => ?_⟩
  · have found : s.foundArea = Retained.cold := by unfold State.foundArea; rw [bad]; rfl
    rw [kept, found]; rfl
  · rw [entries]
    exact powerOn_cold_hasActive s pins bad
  · have found : s.foundArea = s.kept := by unfold State.foundArea; rw [agrees]; rfl
    rw [kept, found]
    exact ⟨rfl, rfl⟩

end Sys2Proof.Machine
end

section
/-! The held zones in runway order after every step (R90), and the requests of the kettle family that change more than a
record of settings: KETTLE_SETUP (R86, R96), SKIM_DONE (R99) and WEIGH_SETUP (R109, R122, R123). -/

namespace Sys2Proof.Machine

set_option Elab.async false

/-! ### The runway order (R90) -/

/-- Settles O57: only a grant gives a hoist new zones, and it asks for a grantable claim (`grant_runway`);
a release and a reset give zones up. -/
theorem runwayStaysOrdered : Obligations.RunwayStaysOrdered := by
  unfold Obligations.RunwayStaysOrdered
  exact fun s t stepped => (step_upholds s t stepped).runway

/-! ### A request that changes more than the link -/

/-- The replies owed are no part of what is worked off. -/
theorem settle_owing (s : State) (rs : List Reply) : (s.owing rs).settle = s.settle.owing rs := by
  unfold State.owing
  rw [settle_withReplies, (settle_steady s).replies]

/-- A request the part takes leaves its owner's state with the agenda worked off, and one reply joins those owed. -/
theorem request_settled (s : State) (l : s.listening) (k : ReqKind) (tag : Nat) (f : State → Answer) (u : State)
    (r : Result) (fields : List Field) (e : f s.unbuilt = ⟨u, r, fields⟩) : ∃ link,
    (.next (s.request k tag f) : Effect) = .next { u.settle with link := link } ∧
    link.owed = u.link.owed ++ [replyTo k tag r fields] := by
  obtain ⟨link, sent, joined⟩ := transmit_sent u.settle [replyTo k tag r fields]
  have answered := congrArg (fun a : Answer => (a.state.addReply k.code tag a.result a.fields).settle.transmit) e
  refine ⟨link, congrArg Host.Outcome.next ?_, ?_⟩
  · calc s.request k tag f
      _ = (u.owing [replyTo k tag r fields]).settle.transmit := (request_of_listening s k tag f l).trans answered
      _ = (u.settle.owing [replyTo k tag r fields]).transmit := by rw [settle_owing]
      _ = { u.settle with link := link } := sent
  · rw [joined.owed, steady_owed (settle_steady u)]

/-- A request whose owner leaves nothing to do leaves its owner's state. -/
theorem request_idle (s : State) (l : s.listening) (k : ReqKind) (tag : Nat) (f : State → Answer) (u : State)
    (r : Result) (fields : List Field) (e : f s.unbuilt = ⟨u, r, fields⟩) (idle : u.agenda = Agenda.empty) : ∃ link,
    (.next (s.request k tag f) : Effect) = .next { u with link := link } ∧
    link.owed = u.link.owed ++ [replyTo k tag r fields] := by
  have taken := request_settled s l k tag f u r fields e
  rwa [settle_of_empty u idle] at taken

/-! ### KETTLE_SETUP (R86, R96) -/

theorem KettleSet.ok_iff (k : KettleSet) : k.ok = true ↔ (500 ≤ k.floor ∧ k.floor ≤ 8000) ∧ k.clearance ≤ 4000 ∧
    (1 ≤ k.skimLimit ∧ k.skimLimit ≤ 255) ∧ (10 ≤ k.waitAlert ∧ k.waitAlert ≤ 3600) ∧ k.clearance < k.floor := by
  simp [KettleSet.ok, within, and_assoc]

/-- The claims of every hoist that wait longer than the alert in force are marked. -/
theorem alertClaims_all (s : State) : ∃ marks, s.alertClaims (fun _ => true) =
    { s with waits := s.waits.map fun c =>
               if s.kept.kettle.waitAlert < s.kept.runtime - c.arrival then { c with alerted := true } else c,
             link := { s.link with marks := marks } } := by
  have alerted (c : Claim) : (if (true && s.alertDue c) = true then { c with alerted := true } else c) =
      if s.kept.kettle.waitAlert < s.kept.runtime - c.arrival then { c with alerted := true } else c := by
    simpa using alert_claim s c.hoist c
  unfold State.alertClaims
  dsimp only
  simp only [alerted]
  exact markIf_only _ _ _

theorem setKettle_only (s : State) (k : KettleSet) : ∃ marks, s.setKettle k =
    { s with kept := { s.kept with kettle := k },
             waits := s.waits.map fun c =>
               if k.waitAlert < s.kept.runtime - c.arrival then { c with alerted := true } else c,
             link := { s.link with marks := marks } } := by
  unfold State.setKettle
  dsimp only
  generalize (zones.any fun z => _) = due
  obtain ⟨m, marked⟩ := markIf_only (s.modKept fun r => { r with kettle := k }) due .zone
  rw [marked]
  exact alertClaims_all _

theorem kettleSetup_replaced (s : State) (l : s.listening) (tag : Nat) (k : KettleSet) (ok : k.ok = true) :
    ∃ t, exec (.kettleSetup tag (some k)) s = .next t ∧
      t = { s with kept := { s.kept with kettle := k }, waits := t.waits, link := t.link } ∧
      Replies s t .kettleSetup tag .ok ∧
      t.waits = s.waits.map fun c =>
        if k.waitAlert < s.kept.runtime - c.arrival then { c with alerted := true } else c := by
  obtain ⟨marks, set⟩ := setKettle_only s.unbuilt k
  obtain ⟨link, taken, owed⟩ := request_idle s l .kettleSetup tag
    (fun s => if k.ok then (s.setKettle k).okay else s.refuse .badValue) _ .ok []
    ((if_pos ok).trans (congrArg (State.okay ·) set)) l.1.2
  exact ⟨_, taken, rfl, owed, rfl⟩

/-! ### SKIM_DONE (R90, R92, R93, R99) -/

theorem spanOk_iff (a b : Nat) : spanOk a b = true ↔ 1 ≤ a ∧ a ≤ b ∧ b ≤ 12 := decide_eq_true_iff

/-- The first held zone of a span is the one below which no zone of the span is held. -/
theorem firstHeld_first (s : State) (a b : Nat) (z : Fin 12) (h : Hoist) (inside : a ≤ zoneNo z ∧ zoneNo z ≤ b)
    (held : s.holders[z]'z.2 = some h)
    (below : ∀ y : Fin 12, y < z → a ≤ zoneNo y → s.holders[y]'y.2 = none) : s.firstHeld a b = some (z, h) := by
  have found : zones.find? (fun z => inSpan a b z && (s.holders[z]'z.2).isSome) = some z := by
    refine (Fin.find?_eq_find?_finRange (n := 12)).symm.trans (Fin.find?_eq_some_iff.2 ⟨?_, fun y lower => ?_⟩)
    · rw [held]
      exact Bool.and_eq_true_iff.2 ⟨decide_eq_true inside, rfl⟩
    · by_cases reached : a ≤ zoneNo y
      · rw [below y lower reached]
        exact Bool.and_false _
      · have outside : inSpan a b y = false := decide_eq_false fun inside => reached inside.1
        rw [outside, Bool.false_and]
  unfold State.firstHeld
  simp only [Fin.getElem_fin] at found ⊢
  rw [found]
  exact congrArg (Option.map _) held

theorem firstHeld_free (s : State) (a b : Nat)
    (free : ∀ z : Fin 12, a ≤ zoneNo z → zoneNo z ≤ b → s.holders[z]'z.2 = none) : s.firstHeld a b = none := by
  have none_held : zones.find? (fun z => inSpan a b z && (s.holders[z]'z.2).isSome) = none := by
    refine List.find?_eq_none.2 fun z _ held => ?_
    obtain ⟨inside, held⟩ := Bool.and_eq_true_iff.1 held
    obtain ⟨low, high⟩ := of_decide_eq_true inside
    rw [free z low high] at held
    cases held
  unfold State.firstHeld
  simp only [Fin.getElem_fin] at none_held ⊢
  rw [none_held]

/-- The surfaces after a skim of a span (R99). -/
def Retained.skimmed (r : Retained) (a b : Nat) : Retained :=
  { r with surfaces := r.surfaces.mapIdx fun i x => if a ≤ i + 1 ∧ i + 1 ≤ b then ⟨false, 0⟩ else x }

theorem skimmed_surface (r : Retained) (a b : Nat) (z : Fin 12) : (r.skimmed a b).surfaces[z]'z.2 =
    if a ≤ zoneNo z ∧ zoneNo z ≤ b then ⟨false, 0⟩ else r.surfaces[z]'z.2 :=
  Vector.getElem_mapIdx z.2

theorem skim_eq (s : State) (a b : Nat) : s.skim a b = State.examine { s with kept := s.kept.skimmed a b } := rfl

/-- A skim changes the surfaces, and by the examination of the wait list the zones, the list and the mail. -/
theorem skim_only (s : State) (a b : Nat) : s.skim a b =
    { s with kept := s.kept.skimmed a b, holders := (s.skim a b).holders, waits := (s.skim a b).waits,
             mail := (s.skim a b).mail } := by
  rw [skim_eq]
  exact (examine_only _).1

/-- The owner of SKIM_DONE. -/
def State.skimAnswer (s : State) (a b : Nat) : Answer :=
  if spanOk a b then
    match s.firstHeld a b with
    | some (z, h) => s.refuse .zoneHeld [fN 1 (zoneNo z), fN 1 (hoistNo h)]
    | none => (s.skim a b).okay
  else s.refuse .badValue

theorem exec_skimDone (s : State) (tag a b : Nat) :
    exec (.skimDone tag a b) s = .next (s.request .skimDone tag fun s => s.skimAnswer a b) := rfl

theorem skimDone_noSpan (s : State) (l : s.listening) (tag a b : Nat) (wrong : ¬(1 ≤ a ∧ a ≤ b ∧ b ≤ 12)) :
    exec (.skimDone tag a b) s = .next (s.replied .skimDone tag .badValue) := by
  rw [exec_skimDone]
  exact request_answered s l .skimDone tag _ _ _ (if_neg fun ok => wrong ((spanOk_iff a b).1 ok))

theorem skimDone_held (s : State) (l : s.listening) (tag a b : Nat) (span : 1 ≤ a ∧ a ≤ b ∧ b ≤ 12) (z : Fin 12)
    (h : Hoist) (first : s.firstHeld a b = some (z, h)) : exec (.skimDone tag a b) s =
      .next (s.replied .skimDone tag .zoneHeld [fN 1 (zoneNo z), fN 1 (hoistNo h)]) := by
  have first' : s.unbuilt.firstHeld a b = some (z, h) := first
  rw [exec_skimDone]
  refine request_answered s l .skimDone tag _ _ _ ?_
  unfold State.skimAnswer
  rw [if_pos ((spanOk_iff a b).2 span), first']
  rfl

theorem skimDone_free (s : State) (l : s.listening) (tag a b : Nat) (span : 1 ≤ a ∧ a ≤ b ∧ b ≤ 12)
    (free : s.firstHeld a b = none) : ∃ t, exec (.skimDone tag a b) s = .next t ∧ Replies s t .skimDone tag .ok ∧
      t = { s with kept := { s.kept with surfaces := t.kept.surfaces }, holders := t.holders, waits := t.waits,
                   mail := t.mail, link := t.link } ∧
      (∀ z : Fin 12, t.kept.surfaces[z]'z.2 =
        if a ≤ zoneNo z ∧ zoneNo z ≤ b then ⟨false, 0⟩ else s.kept.surfaces[z]'z.2) ∧ Examined s t := by
  have free' : s.unbuilt.firstHeld a b = none := free
  have skimmed := skim_only s.unbuilt a b
  have answer : s.unbuilt.skimAnswer a b = ⟨s.unbuilt.skim a b, .ok, []⟩ := by
    unfold State.skimAnswer
    rw [if_pos ((spanOk_iff a b).2 span), free']
    rfl
  have idle : (s.unbuilt.skim a b).agenda = Agenda.empty := by
    rw [skimmed]
    exact l.1.2
  have unlinked : (s.unbuilt.skim a b).link.owed = s.link.owed := by
    rw [skimmed]
    rfl
  have kept : (s.unbuilt.skim a b).kept = s.kept.skimmed a b := by
    rw [skimmed]
    rfl
  obtain ⟨link, taken, owed⟩ := request_idle s l .skimDone tag (fun s => s.skimAnswer a b) _ .ok []
    answer idle
  refine ⟨_, (exec_skimDone s tag a b).trans taken, owed.trans (congrArg (· ++ _) unlinked), ?_, fun z => ?_, ?_⟩
  · dsimp only
    conv_lhs => rw [skimmed]
    rw [kept]
    rfl
  · dsimp only
    simp only [kept]
    exact skimmed_surface s.kept a b z
  · exact examine_says { s.unbuilt with kept := s.kept.skimmed a b }

/-- Settles O31: the span is judged, its first held zone is looked for, and a free span is skimmed. -/
theorem skimCleansZones : Obligations.SkimCleansZones := by
  unfold Obligations.SkimCleansZones
  intro s tag a b l
  refine ⟨skimDone_noSpan s l tag a b, fun z h span inside held below => ?_, fun span free => ?_⟩
  · exact skimDone_held s l tag a b span z h (firstHeld_first s a b z h inside held below)
  · exact skimDone_free s l tag a b span (firstHeld_free s a b free)

/-! ### WEIGH_SETUP (R109, R122, R123) -/

/-- New weigh settings in force, the bath band not yet judged: a change of the scan starts it afresh (R109, R116). -/
def State.reweighed (s : State) (w : WeighSet) : State :=
  { s with kept := { s.kept with weigh := w }, wu := { s.wu with fresh := s.wu.fresh || s.scanChanges w } }

/-- The bath band is as it was. -/
abbrev State.sameBand (s : State) (w : WeighSet) : Prop :=
  w.limits.bathLow = s.kept.weigh.limits.bathLow ∧ w.limits.bathHigh = s.kept.weigh.limits.bathHigh

theorem setWeigh_sameBand (s : State) (w : WeighSet) (same : s.sameBand w) : s.setWeigh w = s.reweighed w :=
  if_pos ⟨same.1.symm, same.2.symm⟩

theorem setWeigh_newBand (s : State) (w : WeighSet) (new : ¬s.sameBand w) :
    s.setWeigh w = (s.reweighed w).evaluateBath :=
  if_neg fun same => new ⟨same.1.symm, same.2.symm⟩

/-- A new occurrence of BATH_TEMP latches no STOP_ALL that is applied at once (R177, R179). -/
abbrev State.bathSpares (s : State) : Prop :=
  s.reactionOf .bathTemp ≠ .stopAll ∨ (s.kept.faults[FaultKind.bathTemp.ix]'FaultKind.bathTemp.ix.2).delay ≠ 0 ∨
  (s.entries[FaultKind.bathTemp.ix]'FaultKind.bathTemp.ix.2).state ≠ .clear

/-- A new mode makes the scan start afresh (R109). -/
theorem reweighed_fresh (s : State) (w : WeighSet) (new : w.mode ≠ s.kept.weigh.mode) :
    (s.reweighed w).wu.fresh = true := by
  have changes : s.scanChanges w = true := by
    unfold State.scanChanges
    dsimp only
    rw [bne_iff_ne.2 new.symm, Bool.true_or]
  unfold State.reweighed
  dsimp only
  rw [changes, Bool.or_true]

/-- Of the retained area only the weigh settings change, and nothing of the link, whether or not the band is judged. -/
theorem setWeigh_only (s : State) (w : WeighSet) :
    (s.setWeigh w).kept = { s.kept with weigh := w } ∧ (s.setWeigh w).link = s.link := by
  by_cases same : s.sameBand w
  · rw [setWeigh_sameBand s w same]
    exact ⟨rfl, rfl⟩
  · rw [setWeigh_newBand s w same, evaluateBath_eq]
    exact ⟨rfl, rfl⟩

/-- Where the band is as it was, nothing is left to be worked off. -/
theorem setWeigh_settle_sameBand (s : State) (w : WeighSet) (idle : s.agenda = Agenda.empty) (same : s.sameBand w) :
    (s.setWeigh w).settle = s.reweighed w := by
  rw [setWeigh_sameBand s w same]
  exact settle_of_empty _ idle

/-- Where a latch of BATH_TEMP stops nothing, a new band changes its entry, the beacon and the marks at most. -/
theorem setWeigh_settle_spare (s : State) (w : WeighSet) (idle : s.agenda = Agenda.empty) (spare : s.bathSpares) :
    ∃ bath entries beacon marks, (s.setWeigh w).settle =
      { s.reweighed w with wu := { (s.reweighed w).wu with bath := bath }, entries := entries, beaconT := beacon,
                           link := { s.link with marks := marks } } := by
  by_cases same : s.sameBand w
  · exact ⟨s.wu.bath, s.entries, s.beaconT, s.link.marks, setWeigh_settle_sameBand s w idle same⟩
  · have agenda : (s.reweighed w).evaluateBath.agenda =
        ⟨(s.reweighed w).bathReports (s.reweighed w).bathNow, []⟩ := by
      have idle' : (s.reweighed w).agenda = Agenda.empty := idle
      rw [evaluateBath_eq, idle']
      rfl
    obtain ⟨entries, beacon, marks, ended, _⟩ := settle_bath (s.reweighed w) (s.reweighed w).evaluateBath
      (s.reweighed w).bathNow (by rw [evaluateBath_eq]) (by rw [evaluateBath_eq]) agenda spare
    refine ⟨some (s.reweighed w).bathNow, entries, beacon, marks, ?_⟩
    rw [setWeigh_newBand s w same, ended, evaluateBath_eq, ← idle]
    rfl

/-- The owner of a WEIGH_SETUP that carries settings. -/
def State.weighAnswer (s : State) (f : WeighFields) : Answer :=
  match s.weighSet? f with
  | some w => (s.setWeigh w).okay
  | none => s.refuse .badValue

theorem exec_weighSetup (s : State) (tag : Nat) (f : WeighFields) :
    exec (.weighSetup tag (some f)) s = .next (s.request .weighSetup tag fun s => s.weighAnswer f) := rfl

theorem weighSetup_refused (s : State) (l : s.listening) (tag : Nat) (f : WeighFields) (bad : s.weighSet? f = none) :
    exec (.weighSetup tag (some f)) s = .next (s.replied .weighSetup tag .badValue) := by
  have bad' : s.unbuilt.weighSet? f = none := bad
  rw [exec_weighSetup]
  refine request_answered s l .weighSetup tag _ _ _ ?_
  unfold State.weighAnswer
  rw [bad']
  rfl

theorem weighSetup_replaced (s : State) (l : s.listening) (tag : Nat) (f : WeighFields) (w : WeighSet)
    (set : s.weighSet? f = some w) : ∃ link,
    exec (.weighSetup tag (some f)) s = .next { (s.unbuilt.setWeigh w).settle with link := link } ∧
    link.owed = s.link.owed ++ [replyTo .weighSetup tag .ok []] := by
  have set' : s.unbuilt.weighSet? f = some w := set
  have answer : s.unbuilt.weighAnswer f = ⟨s.unbuilt.setWeigh w, .ok, []⟩ := by
    unfold State.weighAnswer
    rw [set']
    rfl
  obtain ⟨link, taken, owed⟩ := request_settled s l .weighSetup tag (fun s => s.weighAnswer f) _ .ok [] answer
  obtain ⟨_, unlinked⟩ := setWeigh_only s.unbuilt w
  refine ⟨link, (exec_weighSetup s tag f).trans taken, owed.trans ?_⟩
  rw [unlinked]
  rfl

/-- The settings in force after the step are the new ones, whatever a new band brings. -/
theorem setWeigh_settle_weigh (s : State) (w : WeighSet) : (s.setWeigh w).settle.kept.weigh = w := by
  obtain ⟨weigh, _⟩ := (settle_steady (s.setWeigh w)).settings
  rw [weigh, (setWeigh_only s w).1]

/-- Settles O12: each setup is judged whole; a new band is judged within the step, and so are the waiting claims. -/
theorem weighAndKettleSettingsReplaced : Obligations.WeighAndKettleSettingsReplaced := by
  unfold Obligations.WeighAndKettleSettingsReplaced
  refine ⟨fun s tag f l => ⟨weighSetup_refused s l tag f, fun w set => ?_⟩, fun s tag k l => ?_⟩
  · obtain ⟨link, taken, owed⟩ := weighSetup_replaced s l tag f w set
    refine ⟨_, taken, owed, setWeigh_settle_weigh s.unbuilt w, fun same => ?_, fun spare => ?_⟩
    · rw [setWeigh_settle_sameBand s.unbuilt w l.1.2 same]
      exact ⟨rfl, reweighed_fresh s w⟩
    · obtain ⟨bath, entries, beacon, marks, settled⟩ := setWeigh_settle_spare s.unbuilt w l.1.2 spare
      rw [settled]
      exact ⟨rfl, reweighed_fresh s w⟩
  · simp only [← KettleSet.ok_iff]
    by_cases ok : k.ok = true
    · simp only [if_pos ok]
      exact kettleSetup_replaced s l tag k ok
    · simp only [if_neg ok]
      exact ⟨_, request_answered s l .kettleSetup tag _ _ _ (if_neg ok), rfl⟩

end Sys2Proof.Machine
end

section
/-! WEIGH_NOW and the weigh timer (R114, R117, R125): a request judged and queued, a service ended UNSTABLE by its timer
at zero, and an expiry that finds none such. -/

namespace Sys2Proof.Machine

/-! ### WEIGH_NOW (R117) -/

/-- The owner of WEIGH_NOW, once the hoist is found. -/
def State.weighNowAnswer (s : State) (h : Hoist) : Answer :=
  if s.ctxs[h].state ≠ .parked then s.refuse .wrongState
  else if s.wu.queue.any fun q => q.hoist == h then s.refuse .busy
  else (s.modWu fun w => { w with queue := w.queue ++ [⟨h, none⟩] }).okay [fN 1 s.wu.queue.length]

theorem exec_weighNow (s : State) (tag n : Nat) :
    exec (.weighNow tag n) s = .next (s.request .weighNow tag fun s => s.forHoist n s.weighNowAnswer) := rfl

/-- A hoist has a request in a queue, as the model looks for it. -/
theorem queue_any_hoist (queue : List WeighReq) (h : Hoist) :
    (queue.any fun q => q.hoist == h) = true ↔ ∃ q ∈ queue, q.hoist = h := by
  simp only [List.any_eq_true, beq_iff_eq]

/-- The host's request joins at the newest end. -/
def State.hostAsked (s : State) (h : Hoist) : State :=
  { s with wu := { s.wu with queue := s.wu.queue ++ [⟨h, none⟩] } }

section
variable (s : State) (h : Hoist)

theorem weighNowAnswer_wrongState (busy : s.ctxs[h].state ≠ .parked) : s.weighNowAnswer h = ⟨s, .wrongState, []⟩ :=
  if_pos busy

theorem weighNowAnswer_busy (parked : s.ctxs[h].state = .parked) (asked : ∃ q ∈ s.wu.queue, q.hoist = h) :
    s.weighNowAnswer h = ⟨s, .busy, []⟩ :=
  (if_neg (not_not.2 parked)).trans (if_pos ((queue_any_hoist _ h).2 asked))

theorem weighNowAnswer_okay (parked : s.ctxs[h].state = .parked) (free : ∀ q ∈ s.wu.queue, q.hoist ≠ h) :
    s.weighNowAnswer h = ⟨s.hostAsked h, .ok, [fN 1 s.wu.queue.length]⟩ := by
  have unasked : ¬(s.wu.queue.any fun q => q.hoist == h) = true := fun found =>
    have ⟨q, queued, own⟩ := (queue_any_hoist _ h).1 found
    free q queued own
  exact (if_neg (not_not.2 parked)).trans (if_neg unasked)

end

/-- WEIGH_NOW on an installed hoist is its owner's answer. -/
theorem weighNow_answered (s t : State) (tag n : Nat) (h : Hoist) (r : Result) (fields : List Field) (l : s.listening)
    (named : s.hoist? n = some h) (answer : s.unbuilt.weighNowAnswer h = ⟨t.unbuilt, r, fields⟩)
    (idle : t.agenda = Agenda.empty) : exec (.weighNow tag n) s = .next (t.replied .weighNow tag r fields) := by
  rw [exec_weighNow]
  exact congrArg _ (request_forHoist_replied s l .weighNow tag n h named State.weighNowAnswer t r fields answer idle)

/-! ### The weigh timer (R114, R125) -/

/-- What an expiry of the weigh timer makes of the state. -/
def State.weighTimeout (s : State) : State :=
  match s.wu.service with
  | some v => if v.timer = 0 then s.weighEnds v.req none v.judged else s
  | none => s

theorem exec_weighTimerExpiry (s : State) :
    exec .weighTimerExpiry s = .next (s.whileRunning State.weighTimeout) := rfl

theorem weighTimeout_runs (s : State) (running : ∀ v, s.wu.service = some v → v.timer ≠ 0) : s.weighTimeout = s := by
  unfold State.weighTimeout
  cases served : s.wu.service with
  | none => rfl
  | some v => exact if_neg (running v served)

theorem weighTimeout_ends (s : State) (v : Service) (served : s.wu.service = some v) (atZero : v.timer = 0) :
    s.weighTimeout = s.weighEnds v.req none v.judged := by
  unfold State.weighTimeout
  rw [served]
  exact if_pos atZero

theorem weighTimerExpiry_runs (s : State) (live : s.ready) (running : ∀ v, s.wu.service = some v → v.timer ≠ 0) :
    ∃ t, exec .weighTimerExpiry s = .next t ∧ t = { s with link := t.link } := by
  obtain ⟨link, step, _⟩ := whileRunning_idle s s _ live (weighTimeout_runs s running) live.2
  exact ⟨_, (exec_weighTimerExpiry s).trans step, rfl⟩

/-- A service whose timer stands at zero ends without a value. -/
theorem weighTimerExpiry_ends (s : State) (v : Service) (live : s.ready) (served : s.wu.service = some v)
    (atZero : v.timer = 0) (free : s.wu.waiting[v.req.hoist]'v.req.hoist.2 = false) : ∃ mail record link,
    exec .weighTimerExpiry s =
      .next { s with wu := { s.wu.ended v.req with record := record }, mail := mail, link := link } ∧
    (∀ a p, v.req.dc = some (a, p) → record = s.wu.record ∧
      mail[v.req.hoist]'v.req.hoist.2 = { s.mail[v.req.hoist]'v.req.hoist.2 with
        results := (s.mail[v.req.hoist]'v.req.hoist.2).results ++
          [⟨a, p, none, (v.judged.map Prod.fst).getD 0, v.judged.map Prod.snd⟩] }) ∧
    (v.req.dc = none → mail = s.mail ∧ record = some ⟨v.req.hoist, none, (v.judged.map Prod.fst).getD 0,
      v.judged.map Prod.snd, s.kept.runtime⟩) := by
  obtain ⟨mail, record, ended, answers, records⟩ := weighEnds_ends s v.req none v.judged free
  obtain ⟨link, step, _⟩ := whileRunning_idle s _ _ live ((weighTimeout_ends s v served atZero).trans ended) live.2
  exact ⟨mail, record, link, (exec_weighTimerExpiry s).trans step, answers, records⟩

/-- Settles O33: WEIGH_NOW by its owner's three answers, the expiry by whether it finds a service's timer at zero. -/
theorem weighingAskedAndTimedOut : Obligations.WeighingAskedAndTimedOut := by
  unfold Obligations.WeighingAskedAndTimedOut
  refine ⟨fun s tag n h l named => ⟨fun busy => ?_, fun parked asked => ?_, fun parked free => ?_⟩,
    weighTimerExpiry_runs, fun s v live served atZero free => ?_⟩
  · exact weighNow_answered s s tag n h _ _ l named (weighNowAnswer_wrongState s.unbuilt h busy) l.1.2
  · exact weighNow_answered s s tag n h _ _ l named (weighNowAnswer_busy s.unbuilt h parked asked) l.1.2
  · exact weighNow_answered s (s.hostAsked h) tag n h _ _ l named (weighNowAnswer_okay s.unbuilt h parked free) l.1.2
  · obtain ⟨mail, record, link, step, answers, records⟩ := weighTimerExpiry_ends s v live served atZero free
    refine ⟨_, step, rfl, rfl, answers, fun host => ?_⟩
    obtain ⟨same, written⟩ := records host
    exact ⟨same, _, written, rfl, rfl, rfl, rfl⟩

end Sys2Proof.Machine
end

section
/-! The Level Unit's messages at their arrival: a capture discarded, missed or stored, a state report that becomes the
view (R127 to R129). -/

namespace Sys2Proof.Machine

/-! ### A capture judged at its arrival (R127, R128) -/

/-- The oldest message of a hoist to the Level Unit is taken. -/
def State.levelTaken (s : State) (h : Hoist) (ms : List LevelMsg) : State :=
  { s with mail := s.mail.set h { s.mail[h] with level := ms } }

section
variable (s : State) (h : Hoist) (c : Capture)

theorem takeCapture_frozen (frozen : s.lu.frozen = true) : s.takeCapture h c = s := if_pos frozen

theorem takeCapture_full (unfrozen : s.lu.frozen = false) (full : 4 ≤ s.lu.fifos[h].length) :
    s.takeCapture h c = s.captureMissed c :=
  (if_neg (ne_true_of_eq_false unfrozen)).trans (if_pos full)

theorem takeCapture_stored (unfrozen : s.lu.frozen = false) (room : s.lu.fifos[h].length < 4) :
    s.takeCapture h c = { s with lu := { s.lu with
      fifos := s.lu.fifos.set h (s.lu.fifos[h] ++ [{ c with displaced := s.otherInZinc h }]) } } :=
  (if_neg (ne_true_of_eq_false unfrozen)).trans (if_neg (Nat.not_le.2 room))

theorem captureMissed_only : ∃ ctxs, s.captureMissed c = { s with ctxs := ctxs } := by
  unfold State.captureMissed
  dsimp only
  split
  · exact ⟨_, rfl⟩
  · exact ⟨s.ctxs, rfl⟩

/-- CAPTURE_MISSED reaches the pass the capture belongs to (log entry 31). -/
theorem captureMissed_own (tag : (s.ctxs[c.hoist]'c.hoist.2).order.map OrderRef.tag = some c.tag)
    (pass : (s.ctxs[c.hoist]'c.hoist.2).pass = some c.pass) :
    s.captureMissed c = s.modCtx c.hoist fun x => { x with flags := { x.flags with captureMissed := true } } :=
  if_pos ⟨tag, pass⟩

/-- An arrival changes the FIFOs or the flags of a pass at most. -/
theorem takeCapture_only : ∃ lu ctxs, s.takeCapture h c = { s with lu := lu, ctxs := ctxs } := by
  cases frozen : s.lu.frozen with
  | true => exact ⟨s.lu, s.ctxs, takeCapture_frozen s h c frozen⟩
  | false =>
    rcases Nat.lt_or_ge s.lu.fifos[h].length 4 with room | full
    · exact ⟨_, s.ctxs, takeCapture_stored s h c frozen room⟩
    · obtain ⟨ctxs, missed⟩ := captureMissed_only s c
      exact ⟨s.lu, ctxs, (takeCapture_full s h c frozen full).trans missed⟩

end

/-! ### The two rows -/

/-- What the arrival of a capture makes of the state. -/
def State.captureArrives (h : Hoist) (s : State) : State :=
  match s.mail[h].level with
  | .capture c :: ms => (s.levelTaken h ms).takeCapture h c
  | _ => s

theorem exec_captureArrival (s : State) (h : Hoist) :
    exec (.captureArrival h) s = .next (s.whileRunning (State.captureArrives h)) := rfl

/-- What a state report makes of the state. -/
def State.viewArrives (h : Hoist) (s : State) : State :=
  match s.mail[h].level with
  | .view v :: ms => (s.levelTaken h ms).modLu fun l => { l with views := l.views.set h v }
  | _ => s

theorem exec_hoistViewReport (s : State) (h : Hoist) :
    exec (.hoistViewReport h) s = .next (s.whileRunning (State.viewArrives h)) := rfl

theorem captureArrival_taken (s : State) (h : Hoist) (c : Capture) (ms : List LevelMsg) (live : s.ready)
    (oldest : s.mail[h].level = .capture c :: ms) : ∃ link,
    exec (.captureArrival h) s = .next { (s.levelTaken h ms).takeCapture h c with link := link } := by
  have arrives : s.captureArrives h = (s.levelTaken h ms).takeCapture h c := by
    unfold State.captureArrives
    rw [oldest]
  obtain ⟨lu, ctxs, only⟩ := takeCapture_only (s.levelTaken h ms) h c
  obtain ⟨link, step, _⟩ := whileRunning_idle s _ _ live arrives (by rw [only]; exact live.2)
  exact ⟨link, (exec_captureArrival s h).trans step⟩

theorem hoistViewReport_taken (s : State) (h : Hoist) (v : HoistView) (ms : List LevelMsg) (live : s.ready)
    (oldest : s.mail[h].level = .view v :: ms) : ∃ link, exec (.hoistViewReport h) s =
      .next { s.levelTaken h ms with lu := { s.lu with views := s.lu.views.set h v }, link := link } := by
  have arrives : s.viewArrives h = { s.levelTaken h ms with lu := { s.lu with views := s.lu.views.set h v } } := by
    unfold State.viewArrives
    rw [oldest]
    rfl
  obtain ⟨link, step, _⟩ := whileRunning_idle s _ _ live arrives live.2
  exact ⟨link, (exec_hoistViewReport s h).trans step⟩

/-- Settles O37: a capture by the three answers in their order, a state report by the view it becomes. -/
theorem captureAndViewArrive : Obligations.CaptureAndViewArrive := by
  unfold Obligations.CaptureAndViewArrive
  refine ⟨fun s h c ms live oldest own => ?_, fun s h v ms live oldest => ?_⟩
  · obtain ⟨link, step⟩ := captureArrival_taken s h c ms live oldest
    obtain ⟨lu, ctxs, only⟩ := takeCapture_only (s.levelTaken h ms) h c
    refine ⟨_, step, by rw [only]; rfl, by rw [only]; exact hoist_set_same _ h _, fun frozen => ?_,
      fun unfrozen full => ?_, fun unfrozen room => ?_⟩
    · rw [takeCapture_frozen (s.levelTaken h ms) h c frozen]
      exact ⟨rfl, rfl⟩
    · rw [takeCapture_full (s.levelTaken h ms) h c unfrozen full]
      obtain ⟨ctxs, missed⟩ := captureMissed_only (s.levelTaken h ms) c
      refine ⟨by rw [missed]; rfl, fun tag pass => ?_⟩
      subst own
      rw [captureMissed_own (s.levelTaken c.hoist ms) c tag pass]
      exact hoist_set_same _ c.hoist _
    · rw [takeCapture_stored (s.levelTaken h ms) h c unfrozen room]
      exact ⟨rfl, rfl, hoist_set_same _ h _, fun i ne => hoist_set_ne _ h i _ ne⟩
  · obtain ⟨link, step⟩ := hoistViewReport_taken s h v ms live oldest
    exact ⟨_, step, rfl, hoist_set_same _ h _, rfl, hoist_set_same _ h _,
      fun i ne => ⟨hoist_set_ne _ h i _ ne, hoist_set_ne _ h i _ ne⟩⟩

end Sys2Proof.Machine
end

section
/-! One capture alone in the FIFOs, processed while the kettle is quiet: discarded, or entered into the ring with the
mismatch check and the auto-feed decision (R130 to R134). -/

namespace Sys2Proof.Machine

/-! ### An occurrence that names no hoist, at the end of a step (R177, R179) -/

/-- An occurrence that a CLEAR entry takes latches it with no hoist involved. -/
theorem struck_unnamed (s : State) (k : FaultKind) (other : k ≠ .drivePowerLoss)
    (clear : (s.entries[k.ix]'k.ix.2).state = .clear) : State.latchedOnce (s.struck k none) k none := by
  have entry : (s.struck k none).entries[k.ix]'k.ix.2 = s.latchedEntry k none :=
    (struck_entry s k none).trans (struckEntry_clear s k none clear)
  have involved : (s.latchedEntry k none).involved = Vector.replicate 4 false := involvedAtLatch_none s k other
  refine ⟨?_, ?_, fun i => ?_⟩
  all_goals rw [entry]
  · unfold State.latchedEntry
    dsimp only
    split <;> decide
  · rfl
  · rw [involved]
    exact Vector.getElem_replicate i.isLt

/-- A step that ends with an occurrence that names no hoist and that a CLEAR entry takes alone. -/
theorem finish_unnamed (s : State) (k : FaultKind) (other : k ≠ .drivePowerLoss) (alone : s.latchesAlone k)
    (a : s.agenda = ⟨[.occur k none], []⟩) : ∃ link entries beacon,
    s.settle.transmit = { s with entries := entries, beaconT := beacon, link := link, agenda := Agenda.empty } ∧
      State.latchedOnce { s with entries := entries } k none := by
  obtain ⟨clear, spare⟩ := alone
  have taken : State.occurrence { s with agenda := ⟨[], []⟩ } k none =
      State.struck { s with agenda := ⟨[], []⟩ } k none :=
    occurrence_unnamed { s with agenda := ⟨[], []⟩ } k other
      (spare.imp (fun low stop => absurd low (by rw [show s.reactionOf k = .stopAll from stop]; decide)) .inl)
  obtain ⟨link, finished, _⟩ := finish_report s _ [] (.occur k none) [] [] [] [] a trivial taken rfl trivial
    (fun _ none_there => nomatch none_there) (Nat.zero_le _)
  exact ⟨link, _, _, finished, struck_unnamed { s with agenda := ⟨[], []⟩ } k other clear⟩

/-! ### The capture that is next (R130) -/

/-- The older of a capture found before and the head of a hoist's FIFO. -/
def State.oldestOf (s : State) (best : Option (Hoist × Capture)) (h : Hoist) : Option (Hoist × Capture) :=
  match best, s.lu.fifos[h].head? with
  | some (x, a), some b => if b.time < a.time then some (h, b) else some (x, a)
  | none, some b => some (h, b)
  | best, none => best

theorem nextCapture_eq (s : State) : s.nextCapture = hoists.foldl s.oldestOf none := rfl

section
variable {s : State} {h : Hoist} {c : Capture} (own : s.lu.fifos[h] = [c])
  (others : ∀ i : Hoist, i ≠ h → s.lu.fifos[i] = [])

include others in
theorem oldestOf_empty (best : Option (Hoist × Capture)) (i : Hoist) (ne : i ≠ h) : s.oldestOf best i = best := by
  unfold State.oldestOf
  rw [others i ne]
  cases best <;> rfl

include own in
theorem oldestOf_own (best : Option (Hoist × Capture)) (mine : best = none ∨ best = some (h, c)) :
    s.oldestOf best h = some (h, c) := by
  unfold State.oldestOf
  rw [own]
  rcases mine with rfl | rfl
  · rfl
  · exact if_neg (Nat.lt_irrefl _)

include own others in
/-- The fold over the hoists finds the one capture, once it has met its hoist. -/
theorem foldl_oldestOf_alone (l : List Hoist) (best : Option (Hoist × Capture))
    (found : best = some (h, c) ∨ best = none ∧ h ∈ l) : l.foldl s.oldestOf best = some (h, c) := by
  induction l generalizing best with
  | nil => exact found.resolve_right fun n => nomatch n.2
  | cons i l ih =>
    rw [List.foldl_cons]
    by_cases same : i = h
    · subst same
      exact ih _ (.inl (oldestOf_own own best (found.symm.imp_left And.left)))
    · rw [oldestOf_empty others best i same]
      exact ih best (found.imp_right fun ⟨fresh, m⟩ => ⟨fresh, (List.mem_cons.1 m).resolve_left (Ne.symm same)⟩)

include own others in
theorem nextCapture_alone : s.nextCapture = some (h, c) :=
  foldl_oldestOf_alone own others hoists none (.inr ⟨rfl, mem_hoists h⟩)

end

/-- What a step of processing makes of the state. -/
def State.processNext (s : State) : State :=
  if s.quiet then
    match s.nextCapture with
    | some (h, c) => s.processCapture h c
    | none => s
  else s

theorem exec_captureProcessStep (s : State) :
    exec .captureProcessStep s = .next (s.whileRunning State.processNext) := rfl

theorem processNext_of (s : State) (h : Hoist) (c : Capture) (quiet : s.quiet = true)
    (next : s.nextCapture = some (h, c)) : s.processNext = s.processCapture h c := by
  unfold State.processNext
  rw [if_pos quiet, next]

/-! ### A capture discarded (R131) -/

/-- The record of a processed capture (R130). -/
def Capture.processed (c : Capture) (outcome : CaptureOutcome) : Processed :=
  { hoist := c.hoist, tag := c.tag, pass := c.pass, time := c.time, outcome := outcome }

section
variable (s : State) (h : Hoist) (c : Capture)

theorem judgeCapture_displaced (displaced : c.displaced = true) : s.judgeCapture c = .displaced := if_pos displaced

theorem judgeCapture_aged (still : c.displaced = false) (old : 10 * s.kept.level.ageLimit < s.tenthsCount - c.time) :
    s.judgeCapture c = .aged := (if_neg (ne_true_of_eq_false still)).trans (if_pos old)

theorem judgeCapture_accepted (still : c.displaced = false)
    (young : s.tenthsCount - c.time ≤ 10 * s.kept.level.ageLimit) : s.judgeCapture c = .accepted :=
  (if_neg (ne_true_of_eq_false still)).trans (if_neg (Nat.not_lt.2 young))

/-- A discarded capture leaves its FIFO and its record. -/
theorem processCapture_discarded (outcome : CaptureOutcome) (judged : s.judgeCapture c = outcome)
    (discarded : outcome ≠ .accepted) : s.processCapture h c =
      { s with lu := { s.lu with
        fifos := s.lu.fifos.set h (s.lu.fifos[h].drop 1), lastProcessed := some (c.processed outcome) } } := by
  unfold State.processCapture
  dsimp only
  rw [judged, if_neg discarded]
  rfl

end

/-- The step of a discarded capture that waits alone. -/
theorem captureProcessStep_discards (s : State) (h : Hoist) (c : Capture) (outcome : CaptureOutcome) (live : s.ready)
    (quiet : s.quiet = true) (own : s.lu.fifos[h] = [c]) (others : ∀ i : Hoist, i ≠ h → s.lu.fifos[i] = [])
    (judged : s.judgeCapture c = outcome) (discarded : outcome ≠ .accepted) : ∃ t,
    exec .captureProcessStep s = .next t ∧ t = { s with lu := t.lu, link := t.link } ∧
      t.lu.fifos[h] = [] ∧ t.lu.ring = s.lu.ring ∧ t.lu.lastProcessed = some (c.processed outcome) := by
  obtain ⟨link, step, _⟩ := whileRunning_idle s _ _ live
    ((processNext_of s h c quiet (nextCapture_alone own others)).trans
      (processCapture_discarded s h c outcome judged discarded)) live.2
  refine ⟨_, (exec_captureProcessStep s).trans step, rfl, (hoist_set_same _ h _).trans ?_, rfl, rfl⟩
  rw [own]
  rfl

/-! ### A capture accepted (R132 to R134) -/

/-- The reports of a mismatch check (R133). -/
def State.mismatchReports (s : State) (est : Nat) : List FaultReport :=
  if s.kept.level.band < ((est : Int) - s.predicted).natAbs then [.occur .levelMismatch none] else []

/-- The most recent auto-feed request after a decision (R134). -/
def State.lastAutoAfter (s : State) (est : Nat) : Option (Nat × Nat) :=
  if s.wantsFeed est then some (s.feedCount est, s.kept.runtime) else s.lu.lastAuto

/-- The auto-feed requests in transit after a decision (R134). -/
def State.autoRequestsAfter (s : State) (est : Nat) : List Nat :=
  if s.wantsFeed est then s.autoRequests ++ [s.feedCount est] else s.autoRequests

/-- What the acceptance of a capture makes of the state, before its mismatch is taken. -/
def State.accepting (s : State) (h : Hoist) (c : Capture) (est : Nat) : State :=
  { s with
    lu := { s.lu with
      fifos := s.lu.fifos.set h (s.lu.fifos[h].drop 1), ring := ringAdd s.lu.ring c.depth,
      lastCheck := some (s.predicted, (est : Int) - s.predicted), lastAuto := s.lastAutoAfter est,
      lastProcessed := some (c.processed .accepted) },
    autoRequests := s.autoRequestsAfter est,
    agenda := ⟨s.agenda.reports ++ s.mismatchReports est, s.agenda.follow⟩ }

section
variable (s : State) (est : Nat)

theorem mismatchCheck_eq : s.mismatchCheck est =
    { s with lu := { s.lu with lastCheck := some (s.predicted, (est : Int) - s.predicted) },
             agenda := ⟨s.agenda.reports ++ s.mismatchReports est, s.agenda.follow⟩ } := by
  unfold State.mismatchCheck State.mismatchReports
  dsimp only
  split
  · rfl
  · rw [List.append_nil]
    rfl

theorem decideFeed_eq : s.decideFeed est =
    { s with lu := { s.lu with lastAuto := s.lastAutoAfter est }, autoRequests := s.autoRequestsAfter est } := by
  unfold State.decideFeed State.lastAutoAfter State.autoRequestsAfter
  split <;> rfl

theorem ringMean_ringAdd (ring : List Nat) (depth : Nat) : ringMean (ringAdd ring depth) =
    some ((2 * (ringAdd ring depth).sum + (ringAdd ring depth).length) / (2 * (ringAdd ring depth).length)) := by
  refine if_neg ?_
  unfold ringAdd
  simp

theorem wantsFeed_eq : s.wantsFeed est = (s.kept.feed.auto && decide (s.kept.feed.numbers.threshold < est) &&
    decide (s.feeder.state = .idle) && s.feeder.relay.isNone && s.autoRequests.isEmpty && s.kept.bookOpen &&
    decide (s.kept.journal.length + s.reserved < 256)) := by
  have free : decide (1 ≤ s.free) = decide (s.kept.journal.length + s.reserved < 256) := by
    refine decide_eq_decide.2 ?_
    unfold State.free State.used Config.journalSize
    omega
  have idle : (s.feeder.state == FeedState.idle) = decide (s.feeder.state = .idle) := beq_eq_decide _ _
  unfold State.wantsFeed
  rw [free, idle]

/-- A feed is asked for only while no request is in transit. -/
theorem autoRequests_of_wantsFeed (feeds : s.wantsFeed est = true) : s.autoRequests = [] := by
  unfold State.wantsFeed at feeds
  simp only [Bool.and_eq_true, List.isEmpty_iff] at feeds
  obtain ⟨⟨⟨_, unasked⟩, _⟩, _⟩ := feeds
  exact unasked

theorem processCapture_accepted (h : Hoist) (c : Capture) (judged : s.judgeCapture c = .accepted)
    (mean : ringMean (ringAdd s.lu.ring c.depth) = some est) : s.processCapture h c = s.accepting h c est := by
  unfold State.processCapture State.acceptCapture
  dsimp only [modLu_lu]
  rw [judged, if_pos rfl, mean]
  dsimp only
  rw [decideFeed_eq, mismatchCheck_eq]
  rfl

end

section
variable {s : State} {est : Nat}

theorem mismatchReports_beyond (beyond : s.kept.level.band < ((est : Int) - s.predicted).natAbs) :
    s.mismatchReports est = [.occur .levelMismatch none] := if_pos beyond

theorem mismatchReports_within (within : ((est : Int) - s.predicted).natAbs ≤ s.kept.level.band) :
    s.mismatchReports est = [] := if_neg (Nat.not_lt.2 within)

/-- The end of the step, by the mismatch check: LEVEL_MISMATCH latched, or the entries as they were. -/
theorem accepting_ends (h : Hoist) (c : Capture) (idle : s.agenda = Agenda.empty)
    (alone : s.kept.level.band < ((est : Int) - s.predicted).natAbs → s.latchesAlone .levelMismatch) :
    ∃ link entries beacon, (s.accepting h c est).settle.transmit =
      { s.accepting h c est with entries := entries, beaconT := beacon, link := link, agenda := s.agenda } ∧
    (s.kept.level.band < ((est : Int) - s.predicted).natAbs →
      State.latchedOnce { s with entries := entries } .levelMismatch none) ∧
    (((est : Int) - s.predicted).natAbs ≤ s.kept.level.band → entries = s.entries ∧ beacon = s.beaconT) := by
  have agenda : (s.accepting h c est).agenda = ⟨s.mismatchReports est, []⟩ := by
    unfold State.accepting
    rw [idle]
    rfl
  rw [idle]
  rcases Nat.lt_or_ge s.kept.level.band ((est : Int) - s.predicted).natAbs with beyond | within
  · rw [mismatchReports_beyond beyond] at agenda
    obtain ⟨link, entries, beacon, ends, latched⟩ :=
      finish_unnamed (s.accepting h c est) .levelMismatch (by decide) (alone beyond) agenda
    exact ⟨link, entries, beacon, ends, fun _ => latched, fun within => absurd beyond (Nat.not_lt.2 within)⟩
  · rw [mismatchReports_within within] at agenda
    obtain ⟨link, ends, _⟩ := finish_quiet (s.accepting h c est) [] [] [] agenda trivial
      (fun _ none_there => nomatch none_there) (Nat.zero_le _)
    rw [owing_nil] at ends
    exact ⟨link, s.entries, s.beaconT, ends, fun beyond => absurd beyond (Nat.not_lt.2 within), fun _ => ⟨rfl, rfl⟩⟩

end

/-- The step of an accepted capture that waits alone. -/
theorem captureProcessStep_accepts (s : State) (h : Hoist) (c : Capture) (est : Nat) (live : s.ready)
    (quiet : s.quiet = true) (own : s.lu.fifos[h] = [c]) (others : ∀ i : Hoist, i ≠ h → s.lu.fifos[i] = [])
    (still : c.displaced = false) (young : s.tenthsCount - c.time ≤ 10 * s.kept.level.ageLimit)
    (mean : ringMean (ringAdd s.lu.ring c.depth) = some est)
    (alone : s.kept.level.band < ((est : Int) - s.predicted).natAbs → s.latchesAlone .levelMismatch) :
    ∃ link entries beacon, exec .captureProcessStep s = .next
      { s with
        lu := { s.lu with
          fifos := s.lu.fifos.set h [], ring := ringAdd s.lu.ring c.depth,
          lastCheck := some (s.predicted, (est : Int) - s.predicted), lastAuto := s.lastAutoAfter est,
          lastProcessed := some (c.processed .accepted) },
        autoRequests := s.autoRequestsAfter est, entries := entries, beaconT := beacon, link := link } ∧
    (s.kept.level.band < ((est : Int) - s.predicted).natAbs →
      State.latchedOnce { s with entries := entries } .levelMismatch none) ∧
    (((est : Int) - s.predicted).natAbs ≤ s.kept.level.band → entries = s.entries ∧ beacon = s.beaconT) := by
  have processed : s.processNext = s.accepting h c est :=
    (processNext_of s h c quiet (nextCapture_alone own others)).trans
      (processCapture_accepted s est h c (judgeCapture_accepted s c still young) mean)
  obtain ⟨link, entries, beacon, ends, checked⟩ := accepting_ends h c live.2 alone
  refine ⟨link, entries, beacon, ?_, checked⟩
  rw [exec_captureProcessStep, whileRunning_of_ready s _ live, processed, ends]
  unfold State.accepting
  rw [own]
  rfl

/-- Settles O38: a capture alone, by its judgement; an accepted one by its mismatch check and its auto-feed decision. -/
theorem captureProcessed : Obligations.CaptureProcessed := by
  unfold Obligations.CaptureProcessed
  refine ⟨fun s h c live quiet own others => ⟨fun displaced => ?_, fun still old => ?_,
    fun still young off est mean within => ?_⟩,
    fun s h c ring est asks live quiet own others still young added mean asked alone => ?_⟩
  · exact captureProcessStep_discards s h c .displaced live quiet own others (judgeCapture_displaced s c displaced)
      (by decide)
  · exact captureProcessStep_discards s h c .aged live quiet own others (judgeCapture_aged s c still old) (by decide)
  · obtain ⟨link, entries, beacon, step, _, same⟩ := captureProcessStep_accepts s h c est live quiet own others still
      young (mean ▸ ringMean_ringAdd _ _) fun beyond => absurd beyond (Nat.not_lt.2 within)
    have unasked : s.wantsFeed est = false := by simp [wantsFeed_eq, off]
    have requests : s.autoRequestsAfter est = s.autoRequests := if_neg (ne_true_of_eq_false unasked)
    obtain ⟨rfl, rfl⟩ := same within
    rw [requests] at step
    exact ⟨_, step, rfl, hoist_set_same _ h _, rfl, rfl, rfl⟩
  · subst added
    obtain ⟨link, entries, beacon, step, latched, same⟩ := captureProcessStep_accepts s h c est live quiet own others
      still young (mean ▸ ringMean_ringAdd _ _) alone
    have wants : s.wantsFeed est = asks := (wantsFeed_eq s est).trans asked.symm
    refine ⟨_, step, rfl, rfl, latched, same, fun no => ?_, fun count yes counted => ?_⟩
    · have unasked : ¬s.wantsFeed est = true := by rw [wants, no]; decide
      exact ⟨if_neg unasked, if_neg unasked⟩
    · have feeds := wants.trans yes
      have requests : s.autoRequestsAfter est = [s.feedCount est] :=
        (if_pos feeds).trans (by rw [autoRequests_of_wantsFeed s est feeds]; rfl)
      have ingots : s.feedCount est = count := counted.symm
      exact ⟨requests.trans (by rw [ingots]), (if_pos feeds).trans (by rw [ingots])⟩

end Sys2Proof.Machine
end

section
/-! Bench mode: entered with every station at rest, its notices, a burst driven, and its end (R152 to R155). -/

namespace Sys2Proof.Machine

set_option Elab.async false

/-! ### A burst ended (R141) -/

/-- A burst that runs ends with its outcome and its pulses; without one nothing changes. -/
theorem endBurst_eq (d : DriveIf) (how : BurstEnd) : d.endBurst how =
    { d with burst := none, readyT := if d.burst.isSome then none else d.readyT,
             lastBurst := (d.burst.map fun b => (how, b.issued)).or d.lastBurst } := by
  unfold DriveIf.endBurst
  cases running : d.burst with
  | some b => rfl
  | none =>
    cases d
    cases running
    rfl

theorem endBurst_of_burst (d : DriveIf) (how : BurstEnd) (b : Burst) (bursts : d.burst = some b) :
    d.endBurst how = { d with burst := none, readyT := none, lastBurst := some (how, b.issued) } := by
  rw [endBurst_eq, bursts]
  rfl

theorem endBurst_of_none (d : DriveIf) (how : BurstEnd) (still : d.burst = none) : d.endBurst how = d := by
  unfold DriveIf.endBurst
  rw [still]

/-! ### BENCH_ENTER (R152) -/

theorem anyBusy_eq_true (s : State) : s.anyBusy = true ↔ ∃ h : Hoist, (s.ctxs[h]'h.2).state ≠ .parked := by
  unfold State.anyBusy
  rw [List.any_eq_true]
  exact ⟨fun ⟨h, _, busy⟩ => ⟨h, bne_iff_ne.1 busy⟩, fun ⟨h, busy⟩ => ⟨h, List.mem_finRange h, bne_iff_ne.2 busy⟩⟩

theorem inFlight_eq_true (f : FeedState) : f.inFlight = true ↔ f = .requested ∨ f = .feeding := by
  cases f <;> decide

theorem benchAllowed_eq_false (s : State) : s.benchAllowed = false ↔ s.link.straps.benchPermit = false ∨
    (∃ h : Hoist, (s.ctxs[h]'h.2).state ≠ .parked) ∨ s.feeder.state = .requested ∨ s.feeder.state = .feeding := by
  rw [← anyBusy_eq_true, ← inFlight_eq_true]
  unfold State.benchAllowed
  cases s.link.straps.benchPermit <;> cases s.anyBusy <;> simp

theorem benchAllowed_of (s : State) (strap : s.link.straps.benchPermit = true)
    (parked : ∀ h : Hoist, (s.ctxs[h]'h.2).state = .parked)
    (none_fed : s.feeder.state = .idle ∨ s.feeder.state = .settle) : s.benchAllowed = true := by
  refine Bool.of_not_eq_false fun refused => ?_
  rcases (benchAllowed_eq_false s).1 refused with off | ⟨h, busy⟩ | fed
  · rw [strap] at off; cases off
  · exact busy (parked h)
  · rcases none_fed with e | e <;> rw [e] at fed <;> simp at fed

/-- What the owner of BENCH_ENTER answers. -/
def State.enterAnswer (s : State) : Answer :=
  if s.bench then s.okay
  else if s.benchAllowed then
    { s with bench := true, benchBeacon := false, drives := s.drives.map DriveIf.enterBench }.okay
  else s.refuse .notPermitted

theorem exec_benchEnter (s : State) (tag : Nat) :
    exec (.benchEnter tag) s = .next (s.request .benchEnter tag State.enterAnswer) := rfl

theorem benchEnter_again (s : State) (tag : Nat) (l : s.listening) (on : s.bench = true) :
    exec (.benchEnter tag) s = .next (s.replied .benchEnter tag .ok) :=
  (exec_benchEnter s tag).trans (request_answered s l .benchEnter tag _ .ok [] (if_pos on))

theorem benchEnter_refused (s : State) (tag : Nat) (l : s.listening) (off : s.bench = false)
    (refused : s.benchAllowed = false) : exec (.benchEnter tag) s = .next (s.replied .benchEnter tag .notPermitted) :=
  (exec_benchEnter s tag).trans (request_answered s l .benchEnter tag _ .notPermitted []
    ((if_neg (ne_true_of_eq_false off)).trans (if_neg (ne_true_of_eq_false refused))))

theorem benchEnter_entered (s : State) (tag : Nat) (l : s.listening) (off : s.bench = false)
    (allowed : s.benchAllowed = true) : ∃ link, exec (.benchEnter tag) s = .next
      { s with bench := true, benchBeacon := false, drives := s.drives.map DriveIf.enterBench, link := link } ∧
    link.owed = s.link.owed ++ [replyTo .benchEnter tag .ok []] := by
  obtain ⟨link, taken, owed⟩ := request_idle s l .benchEnter tag State.enterAnswer
    { s.unbuilt with bench := true, benchBeacon := false, drives := s.drives.map DriveIf.enterBench } .ok []
    ((if_neg (ne_true_of_eq_false off)).trans (if_pos allowed)) l.1.2
  exact ⟨link, (exec_benchEnter s tag).trans taken, owed⟩

/-! ### BENCH_NOTICES (R154) -/

/-- The marks after several classes are marked (R196). -/
def notedAll (enabled : Vector Bool 6) (cs : List NoticeClass) (marks : Vector Bool 6) : Vector Bool 6 :=
  cs.foldl (fun m c => noted enabled true c m) marks

theorem foldl_mark (s : State) (cs : List NoticeClass) : cs.foldl State.mark s =
    { s with link := { s.link with marks := notedAll s.kept.notices cs s.link.marks } } := by
  induction cs generalizing s with
  | nil => rfl
  | cons c cs ih => rw [List.foldl_cons, ih, mark_eq]; rfl

theorem notedAll_get (enabled : Vector Bool 6) (cs : List NoticeClass) (c : NoticeClass) (marks : Vector Bool 6) :
    (notedAll enabled cs marks)[c.ix]'c.ix.2 = (marks[c.ix]'c.ix.2 || (decide (c ∈ cs) && enabled[c.ix]'c.ix.2)) := by
  induction cs generalizing marks with
  | nil => simp [notedAll]
  | cons d cs ih =>
    refine (ih (noted enabled true d marks)).trans ?_
    by_cases same : c = d
    · subst same
      rw [noted_same]
      cases enabled[c.ix]'c.ix.2 <;> simp
    · rw [noted_other enabled true d c marks same]
      simp [same]

theorem mem_noticeClasses (c : NoticeClass) : c ∈ noticeClasses := by
  cases c <;> decide

theorem benchNotices_refused (s : State) (tag : Nat) (l : s.listening) (off : s.bench = false) :
    exec (.benchNotices tag) s = .next (s.replied .benchNotices tag .notPermitted) :=
  request_answered s l .benchNotices tag _ .notPermitted [] (if_neg (ne_true_of_eq_false off))

/-- A reply that joins leaves the marks as they are. -/
theorem withReply_marks (l : Link) (r : Reply) : (l.withReply r).marks = l.marks := by
  unfold Link.withReply
  split <;> rfl

/-- Every enabled class marked (R154). -/
def State.allMarked (s : State) : State :=
  { s with link := { s.link with marks := notedAll s.kept.notices noticeClasses s.link.marks } }

theorem benchNotices_marked (s : State) (tag : Nat) (l : s.listening) (on : s.bench = true) :
    exec (.benchNotices tag) s = .next (s.allMarked.replied .benchNotices tag .ok) := by
  have taken := request_replied s .benchNotices tag
    (fun s => if s.bench then (noticeClasses.foldl State.mark s).okay else s.refuse .notPermitted) l s.unbuilt.allMarked
    .ok [] ((if_pos on).trans (congrArg (State.okay ·) (foldl_mark s.unbuilt noticeClasses))) l.1.2 rfl
  exact congrArg Host.Outcome.next (taken.trans (replied_rx s.allMarked _ _ _ _))

/-! ### BENCH_EXIT (R155) -/

/-- The machine as BENCH_EXIT leaves it, before the line-wide event of R9. -/
def State.benchLeft (s : State) : State :=
  State.parkedPermits { s with
    bench := false, drives := s.drives.map fun d => { DriveIf.leaveBench d with brakeRel := false } }

theorem leaveBench_eq (s : State) : s.leaveBench = { s.benchLeft with
    agenda := ⟨s.agenda.reports, s.agenda.follow ++ s.installedHoists.map .take⟩ } := takeAll_eq s.benchLeft

theorem benchLeft_drive (s : State) (h : Hoist) : s.benchLeft.drives[h]'h.2 =
    { (s.drives[h]'h.2).endBurst .replaced with
      known := (s.drives[h]'h.2).known && !(s.drives[h]'h.2).benchStepped, step := false, brakeRel := false,
      permit := decide (h.val ≤ s.link.straps.hoists.val) } := by
  unfold State.benchLeft State.parkedPermits DriveIf.leaveBench
  simp only [Fin.getElem_fin, Vector.getElem_mapIdx, Vector.getElem_map, endBurst_eq]

theorem benchExit_refused (s : State) (tag : Nat) (l : s.listening) (off : s.bench = false) :
    exec (.benchExit tag) s = .next (s.replied .benchExit tag .wrongState) :=
  request_answered s l .benchExit tag _ .wrongState [] (if_neg (ne_true_of_eq_false off))

/-- Where no order is QUEUED, the take attempts that follow come to nothing (R9). -/
theorem leaveBench_settles (s : State) (idle : s.agenda = Agenda.empty) (q : s.noneQueued) :
    s.leaveBench.settle = s.benchLeft := by
  have few : (s.installedHoists.map Follow.take).length ≤ 200 := by
    rw [List.length_map]
    exact (List.length_filter_le _ _).trans (by decide)
  rw [leaveBench_eq, idle]
  refine (settle_quiet { s.benchLeft with agenda := ⟨[], s.installedHoists.map .take⟩ } [] (s.installedHoists.map .take)
    rfl rfl (fun x hx => ?_) (by rw [List.length_nil, Nat.zero_add]; exact few)).trans ?_
  · obtain ⟨h, _, rfl⟩ := List.mem_map.1 hx
    exact offered_of_noneQueued { s.benchLeft with agenda := ⟨[], s.installedHoists.map .take⟩ } h q
  · rw [← idle]
    rfl

theorem benchExit_left (s : State) (tag : Nat) (l : s.listening) (on : s.bench = true) (q : s.noneQueued) : ∃ link,
    exec (.benchExit tag) s = .next { s.benchLeft with link := link } ∧
    link.owed = s.link.owed ++ [replyTo .benchExit tag .ok [fN 1 s.madeUnknown]] := by
  obtain ⟨link, taken, owed⟩ := request_settled s l .benchExit tag
    (fun s => if s.bench then s.leaveBench.okay [fN 1 s.madeUnknown] else s.refuse .wrongState)
    s.unbuilt.leaveBench .ok [fN 1 s.madeUnknown] (if_pos on)
  rw [leaveBench_settles s.unbuilt l.1.2 q] at taken
  rw [leaveBench_eq] at owed
  exact ⟨link, taken, owed⟩

/-- Settles O39: every request of bench mode but BENCH_DRIVE, refused or carried out over the four drives. -/
theorem benchEnteredAndLeft : Obligations.BenchEnteredAndLeft := by
  unfold Obligations.BenchEnteredAndLeft
  refine ⟨fun s tag l => ⟨benchEnter_again s tag l,
    fun off barred => benchEnter_refused s tag l off ((benchAllowed_eq_false s).2 barred),
    fun off strap parked none_fed => ?_, benchNotices_refused s tag l, fun on => ?_⟩,
    fun s tag l => ⟨benchExit_refused s tag l, fun on q => ?_⟩⟩
  · obtain ⟨link, entered, owed⟩ := benchEnter_entered s tag l off (benchAllowed_of s strap parked none_fed)
    exact ⟨_, entered, rfl, owed, fun h => Vector.getElem_map _ _⟩
  · refine ⟨_, benchNotices_marked s tag l on, rfl, withReply_owed _ _, fun c => ?_⟩
    refine (congrArg (fun m : Vector Bool 6 => m[c.ix]'c.ix.2) (withReply_marks _ _)).trans ?_
    refine (notedAll_get _ _ c _).trans ?_
    rw [decide_eq_true (mem_noticeClasses c), Bool.true_and]
  · obtain ⟨link, left, owed⟩ := benchExit_left s tag l on q
    refine ⟨_, left, rfl, ⟨_, owed⟩, fun h => ?_⟩
    have drive := benchLeft_drive s h
    rw [endBurst_eq] at drive
    have field {α : Type} (f : DriveIf → α) := congrArg f drive
    refine ⟨field DriveIf.known, field DriveIf.burst, field DriveIf.brakeRel, field DriveIf.step, field DriveIf.dir,
      field DriveIf.count, field DriveIf.permit, fun b running => (field DriveIf.lastBurst).trans ?_⟩
    have burst : (s.drives[h]'h.2).burst = some b := running
    rw [burst]
    rfl

/-! ### BENCH_DRIVE (R153) -/

theorem yes_eq (n : Nat) : yes n = decide (n = 1) := rfl

/-- A drive whose levels BENCH_DRIVE has set, with the burst it starts (R153). -/
def DriveIf.benchDriven (d : DriveIf) (f : BenchFields) : DriveIf :=
  { d with dir := decide (f.dir = 1), brakeRel := decide (f.brake = 1), permit := decide (f.permit = 1),
           burst := if f.steps = 0 then none else some { left := f.steps, rate := f.rate, issued := 0 },
           benchStepped := d.benchStepped || f.steps != 0 }

theorem burstMeets_of_clear (s : State) (h : Hoist) (clear : s.driveClear h) : s.burstMeets h = s := by
  obtain ⟨ready, faultless, untopped⟩ := clear
  unfold State.burstMeets
  rw [faultless, untopped, ready]
  rfl

/-- With the drive clear and no burst before, the levels are set and the burst runs on. -/
theorem benchSet_eq (s : State) (h : Hoist) (f : BenchFields) (clear : s.driveClear h)
    (still : (s.drives[h]'h.2).burst = none) : s.benchSet h f =
      { s with drives := s.drives.set h ((s.drives[h]'h.2).benchDriven f), benchBeacon := decide (f.beacon = 1) } := by
  have same := endBurst_of_none (s.drives[h]'h.2) .replaced still
  have set : State.modDrive s h (fun d => (d.endBurst .replaced).benchDriven f) =
      { s with drives := s.drives.set h ((s.drives[h]'h.2).benchDriven f) } :=
    congrArg (fun d : DriveIf => { s with drives := s.drives.set h (d.benchDriven f) }) same
  unfold State.benchSet
  simp only [yes_eq]
  unfold DriveIf.benchDriven at set ⊢
  rw [set]
  split
  · rfl
  · exact burstMeets_of_clear _ h clear

/-- What the owner of BENCH_DRIVE answers. -/
def State.driveAnswer (f : BenchFields) (s : State) : Answer :=
  if !s.bench then s.refuse .notPermitted
  else s.forHoist f.hoist fun h =>
    if f.ok then (s.benchSet h f).okay (s.drives[h]'h.2).burstFields else s.refuse .badValue

theorem exec_benchDrive (s : State) (tag : Nat) (f : BenchFields) :
    exec (.benchDrive tag f) s = .next (s.request .benchDrive tag (State.driveAnswer f)) := rfl

/-- In bench mode an installed station's BENCH_DRIVE is judged by its fields. -/
theorem driveAnswer_installed (s : State) (f : BenchFields) (h : Hoist) (on : s.bench = true)
    (named : s.hoist? f.hoist = some h) : s.driveAnswer f =
      if f.ok then (s.benchSet h f).okay (s.drives[h]'h.2).burstFields else s.refuse .badValue := by
  unfold State.driveAnswer State.forHoist
  rw [on, named]
  rfl

/-- Settles O40: the checks in their order, then the levels set and the burst begun. -/
theorem benchDriven : Obligations.BenchDriven := by
  unfold Obligations.BenchDriven
  refine fun s tag f l => ⟨fun off => ?_, fun on unnamed => ?_, fun h on named => ⟨fun bad => ?_,
    fun ok clear still => ?_⟩⟩
  · refine (exec_benchDrive s tag f).trans (request_answered s l .benchDrive tag _ .notPermitted [] (if_pos ?_))
    exact congrArg (!·) off
  · refine (exec_benchDrive s tag f).trans (request_answered s l .benchDrive tag _ .notInstalled [] ?_)
    have on' : s.unbuilt.bench = true := on
    have unnamed' : s.unbuilt.hoist? f.hoist = none := unnamed
    unfold State.driveAnswer State.forHoist
    rw [on', unnamed']
    rfl
  · exact (exec_benchDrive s tag f).trans (request_answered s l .benchDrive tag _ .badValue []
      ((driveAnswer_installed s.unbuilt f h on named).trans (if_neg (ne_true_of_eq_false bad))))
  · obtain ⟨link, taken, owed⟩ := request_idle s l .benchDrive tag (State.driveAnswer f) _ .ok
      (s.drives[h]'h.2).burstFields (((driveAnswer_installed s.unbuilt f h on named).trans (if_pos ok)).trans
        (congrArg (fun u : State => u.okay (s.drives[h]'h.2).burstFields) (benchSet_eq s.unbuilt h f clear still)))
      l.1.2
    exact ⟨_, (exec_benchDrive s tag f).trans taken, rfl, owed, hoist_set_same _ h _,
      fun i ne => hoist_set_ne _ h i _ ne⟩

end Sys2Proof.Machine
end

section
/-! A motion in progress and what ends it: the STEP pulse, the ready-wait timer, and the changes of READY, TOP and
DRIVE_FAULT (R143 to R149, R153). -/

namespace Sys2Proof.Machine

set_option Elab.async false

/-! ### The drive of one hoist changed -/

theorem modDrive_drive (s : State) (h : Hoist) (f : DriveIf → DriveIf) :
    (s.modDrive h f).drives[h]'h.2 = f (s.drives[h]'h.2) := hoist_set_same _ h _

theorem modDrive_other (s : State) (h i : Hoist) (f : DriveIf → DriveIf) (ne : i ≠ h) :
    (s.modDrive h f).drives[i]'i.2 = s.drives[i]'i.2 := hoist_set_ne _ h i _ ne

theorem modDrive_modDrive (s : State) (h : Hoist) (f g : DriveIf → DriveIf) :
    (s.modDrive h f).modDrive h g = s.modDrive h fun d => g (f d) := by
  unfold State.modDrive
  simp only [Fin.getElem_fin, Vector.getElem_set_self, Vector.set_set]

/-! ### The end of a motion, reached or failed (R144) -/

/-- A drive whose motion has ended: no pulses, the brake on. -/
def DriveIf.braked (d : DriveIf) : DriveIf := { d with motion := none, readyT := none, brakeRel := false }

/-- The messages of a hoist with a motion report in transit (log entry 10). -/
def Mail.reported (m : Mail) (r : MotionReport) : Mail := { m with motions := m.motions ++ [r] }

/-- The machine after the motion of a hoist has ended with its report. -/
def State.motionOver (s : State) (h : Hoist) (r : MotionReport) : State :=
  { s with drives := s.drives.set h (s.drives[h]'h.2).braked, mail := s.mail.set h ((s.mail[h]'h.2).reported r) }

section
variable (s : State) (h : Hoist) (r : MotionReport)

theorem motionOver_drive : (s.motionOver h r).drives[h]'h.2 = (s.drives[h]'h.2).braked := hoist_set_same _ h _

theorem motionOver_mail : (s.motionOver h r).mail[h]'h.2 = (s.mail[h]'h.2).reported r := hoist_set_same _ h _

theorem motionOver_modDrive (f : DriveIf → DriveIf) :
    ((s.modDrive h f).motionOver h r).drives[h]'h.2 = (f (s.drives[h]'h.2)).braked :=
  (motionOver_drive (s.modDrive h f) h r).trans (congrArg DriveIf.braked (modDrive_drive s h f))

theorem motionOver_others (i : Hoist) (ne : i ≠ h) : (s.motionOver h r).drives[i]'i.2 = s.drives[i]'i.2 ∧
    (s.motionOver h r).mail[i]'i.2 = s.mail[i]'i.2 := ⟨hoist_set_ne _ h i _ ne, hoist_set_ne _ h i _ ne⟩

end

/-- At a clear station the end of a motion reports both conditions of R38 absent. -/
theorem stopMotion_eq (s : State) (h : Hoist) (clear : s.stationClear h) : s.stopMotion h =
    { s with drives := s.drives.set h (s.drives[h]'h.2).braked,
             agenda := ⟨s.agenda.reports ++ absentConds h, s.agenda.follow⟩ } := by
  have absent := conds_of_unwatched (s.haltMotion h) h _ ((s.haltMotion h).drives[h]'h.2)
    (unwatched_of_clear (s.haltMotion h) h ((s.haltMotion h).ctxs[h]'h.2) clear)
  unfold State.stopMotion
  rw [reportConds_eq, absent]
  rfl

theorem motionDone_eq (s : State) (h : Hoist) (m : Moved) (clear : s.stationClear h) (idle : s.agenda = Agenda.empty) :
    s.motionDone h m = { s.motionOver h ⟨m, none⟩ with agenda := ⟨absentConds h, []⟩ } := by
  unfold State.motionDone
  rw [stopMotion_eq s h clear, idle]
  rfl

theorem motionFails_eq (s : State) (h : Hoist) (m : Moved) (cause : FailCause) (k : FaultKind)
    (clear : s.stationClear h) (idle : s.agenda = Agenda.empty) : s.motionFails h m cause k =
      { s.motionOver h ⟨m, some cause⟩ with agenda := ⟨absentConds h ++ [.occur k (some h)], []⟩ } := by
  unfold State.motionFails
  rw [stopMotion_eq s h clear, idle]
  rfl

/-- The step in which a motion is reached leaves its report in transit and the conditions' values. -/
theorem motionDone_ends (s : State) (h : Hoist) (m : Moved) (clear : s.stationClear h)
    (idle : s.agenda = Agenda.empty) : ∃ entries link, (s.motionDone h m).settle.transmit =
      { s.motionOver h ⟨m, none⟩ with entries := entries, link := link } := by
  obtain ⟨link, finished, _⟩ := finish_quiet { s.motionOver h ⟨m, none⟩ with agenda := ⟨absentConds h, []⟩ }
    (absentConds h) [] [] rfl (quietReports_of_absent _ _ (absentConds_absent h)) (fun _ hy => nomatch hy)
    (Nat.le_of_ble_eq_true rfl)
  rw [owing_nil, ← idle] at finished
  exact ⟨_, link, (congrArg (fun u : State => u.settle.transmit) (motionDone_eq s h m clear idle)).trans finished⟩

/-! ### The end of a step in which a motion fails (R144, R176, R179) -/

/-- What may be reported after the fault of a motion: nothing, or the level of the hoist's DRIVE_FAULT (R176). -/
inductive Trailing (h : Hoist) : List FaultReport → Prop
  | nothing : Trailing h []
  | level (b : Bool) : Trailing h [.cond .driveFault (some h) b]

theorem Trailing.ofHoist {h : Hoist} {more : List FaultReport} (t : Trailing h more) :
    more.all FaultReport.ofHoist = true := by
  cases t <;> rfl

/-- The level of a DRIVE_FAULT leaves its value and latches nothing. -/
theorem Trailing.settles {h : Hoist} {more : List FaultReport} (t : Trailing h more) (n : Nat) (s : State)
    (a : s.agenda = ⟨more, []⟩) :
    settleFor (n + 1) s = { s with entries := keepReports s.entries more, agenda := Agenda.empty } := by
  cases t with
  | nothing =>
    rw [settleFor_of_empty _ _ a]
    cases s
    cases a
    rfl
  | level b =>
    rw [settleFor_report n s _ [] [] a, takeReport_driveFault, settleFor_of_empty _ _ rfl]
    rfl

/-- The machine once a hoist's two conditions have been reported absent, with what is still to be reported. -/
def State.condsTold (s : State) (h : Hoist) (more : List FaultReport) : State :=
  { s with entries := keepReports s.entries (absentConds h), agenda := ⟨more, []⟩ }

theorem condsTold_alone (s : State) (h : Hoist) (more : List FaultReport) (k : FaultKind) (alone : s.latchesAlone k) :
    (s.condsTold h more).latchesAlone k := by
  obtain ⟨clear, low⟩ := alone
  obtain ⟨present, before⟩ := keepReports_present s.entries (absentConds h) k.ix rfl
  exact ⟨(congrArg FaultEntry.state before).trans clear, low⟩

/-- A fault that a CLEAR entry takes alone, reported after two absent conditions, latches for its hoist (R179). -/
theorem settle_failure (s : State) (k : FaultKind) (h : Hoist) (more : List FaultReport) (other : k ≠ .drivePowerLoss)
    (installed : s.installed h = true) (alone : s.latchesAlone k) (trailing : Trailing h more)
    (a : s.agenda = ⟨absentConds h ++ .occur k (some h) :: more, []⟩) : ∃ entries beacon link,
    s.settle.transmit = { s with entries := entries, beaconT := beacon, link := link, agenda := Agenda.empty } ∧
      State.latchedOnce { s with entries := entries } k (some h) := by
  have alone' := condsTold_alone s h more k alone
  have taken : (s.condsTold h more).takeReport (.occur k (some h)) = (s.condsTold h more).struck k (some h) :=
    occurrence_alone (s.condsTold h more) k h installed alone'
  have settled : s.settle = { (s.condsTold h more).struck k (some h) with
      entries := keepReports ((s.condsTold h more).struck k (some h)).entries more, agenda := Agenda.empty } := by
    have bound : Config.agendaBound = 196 + 1 + 1 + (absentConds h).length := rfl
    unfold State.settle
    rw [bound, settleFor_prefix _ s (absentConds h) (.occur k (some h) :: more) [] a
      (quietReports_of_absent _ _ (absentConds_absent h)), settleFor_report _ _ _ more [] rfl]
    exact (congrArg (settleFor (196 + 1)) taken).trans (trailing.settles 196 _ rfl)
  obtain ⟨present, after⟩ := keepReports_present ((s.condsTold h more).struck k (some h)).entries more k.ix
    trailing.ofHoist
  rw [struck_entry] at after
  refine ⟨_, ((s.condsTold h more).struck k (some h)).beaconT, s.settle.transmit.link,
    (transmit_only_link _).trans ?_, struckEntry_latchedOnce (s.condsTold h more) _ k h other installed alone'.1 present
    after⟩
  rw [settled]
  rfl

/-- The step in which a motion fails: its report is in transit and its fault is latched for the hoist. -/
theorem motionFails_ends (s u : State) (h : Hoist) (m : Moved) (cause : FailCause) (k : FaultKind)
    (more : List FaultReport) (idle : s.agenda = Agenda.empty) (other : k ≠ .drivePowerLoss)
    (installed : s.installed h = true) (alone : s.latchesAlone k) (trailing : Trailing h more)
    (e : u = { s.motionOver h ⟨m, some cause⟩ with agenda := ⟨absentConds h ++ .occur k (some h) :: more, []⟩ }) :
    ∃ entries beacon link, u.settle.transmit =
      { s.motionOver h ⟨m, some cause⟩ with entries := entries, beaconT := beacon, link := link } ∧
      State.latchedOnce { s with entries := entries } k (some h) := by
  subst e
  obtain ⟨entries, beacon, link, finished, latched⟩ := settle_failure
    { s.motionOver h ⟨m, some cause⟩ with agenda := ⟨absentConds h ++ .occur k (some h) :: more, []⟩ } k h more other
    installed alone trailing rfl
  refine ⟨entries, beacon, link, ?_, latched⟩
  rw [finished, ← idle]
  rfl

/-! ### The STEP pulse (R143, R148) -/

/-- A drive a pulse has moved by one (R143). -/
def DriveIf.counted (d : DriveIf) : DriveIf := { d with count := d.stepped }

theorem exec_stepPulse (s : State) (h : Hoist) :
    exec (.stepPulse h) s = .next (s.whileRunning fun s => s.pulse h) := rfl

section
variable (s : State) (h : Hoist) (m : Motion) (runs : (s.drives[h]'h.2).motion = some m)
include runs

/-- No pulse goes out without READY, with the brake on, or in a state outside R143. -/
theorem pulse_withheld (barred : (s.inputs[h]'h.2).ready = false ∨ (s.drives[h]'h.2).brakeRel = false ∨
    (s.ctxs[h]'h.2).state.steps = false) : s.pulse h = s := by
  unfold State.pulse
  dsimp only
  rw [runs]
  rcases barred with unready | braked | still
  · rw [unready]; rfl
  · rw [braked, Bool.and_false]; rfl
  · rw [still]; exact ite_self s

theorem pulse_of_motion (ready : (s.inputs[h]'h.2).ready = true) (released : (s.drives[h]'h.2).brakeRel = true)
    (steps : (s.ctxs[h]'h.2).state.steps = true) : s.pulse h = s.pulseMotion h m := by
  unfold State.pulse
  dsimp only
  rw [runs, ready, released, steps]
  rfl

end

section
variable (s : State) (h : Hoist) (m : Motion)

/-- A pulse of a MOVE that does not reach its target moves the count alone. -/
theorem pulseMotion_move (target : Nat) (move : m.kind = .move target) (away : (s.drives[h]'h.2).stepped ≠ target) :
    s.pulseMotion h m = s.modDrive h DriveIf.counted := by
  unfold State.pulseMotion
  rw [move]
  exact if_neg away

/-- The pulse that brings a MOVE to its target ends it. -/
theorem pulseMotion_reached (target : Nat) (move : m.kind = .move target)
    (there : (s.drives[h]'h.2).stepped = target) :
    s.pulseMotion h m = (s.modDrive h DriveIf.counted).motionDone h .move := by
  unfold State.pulseMotion
  rw [move]
  exact if_pos there

/-- A pulse of a RECAL within its limit raises the travel alone. -/
theorem pulseMotion_recal (limit : Nat) (recal : m.kind = .recal limit)
    (within : (s.drives[h]'h.2).travel + 1 < limit) :
    s.pulseMotion h m = s.modDrive h fun d => { d with travel := d.travel + 1 } := by
  unfold State.pulseMotion
  rw [recal]
  exact if_neg (Nat.not_le.2 within)

end

/-- A pulse that only changes the drive. -/
theorem stepPulse_drives (s : State) (h : Hoist) (f : DriveIf → DriveIf) (live : s.ready)
    (e : s.pulse h = s.modDrive h f) : ∃ link, exec (.stepPulse h) s = .next { s.modDrive h f with link := link } := by
  obtain ⟨link, step, _⟩ := whileRunning_idle s (s.modDrive h f) (fun s => s.pulse h) live e live.2
  exact ⟨link, (exec_stepPulse s h).trans step⟩

theorem stepPulse_withheld (s : State) (h : Hoist) (m : Motion) (live : s.ready)
    (runs : (s.drives[h]'h.2).motion = some m) (barred : (s.inputs[h]'h.2).ready = false ∨
      (s.drives[h]'h.2).brakeRel = false ∨ (s.ctxs[h]'h.2).state.steps = false) :
    ∃ t, exec (.stepPulse h) s = .next t ∧ t = { s with link := t.link } := by
  obtain ⟨link, step, _⟩ := whileRunning_idle s s (fun s => s.pulse h) live (pulse_withheld s h m runs barred) live.2
  exact ⟨_, (exec_stepPulse s h).trans step, rfl⟩

/-- A pulse that ends a motion reached. -/
theorem stepPulse_reaches (s u : State) (h : Hoist) (m : Moved) (live : s.ready) (clear : u.stationClear h)
    (e : s.pulse h = u.motionDone h m) (idle : u.agenda = Agenda.empty) : ∃ entries link,
    exec (.stepPulse h) s = .next { u.motionOver h ⟨m, none⟩ with entries := entries, link := link } := by
  obtain ⟨entries, link, ended⟩ := motionDone_ends u h m clear idle
  refine ⟨entries, link, congrArg Host.Outcome.next ((whileRunning_of_ready s _ live).trans ?_)⟩
  rw [e, ended]

/-! ### The ready-wait timer at zero (R145, R153) -/

/-- What the ready-wait timer at zero makes of the machine. -/
def State.readyOver (h : Hoist) (s : State) : State := if (s.drives[h]'h.2).readyT.isSome then s.readyExpires h else s

theorem exec_readyTimeout (s : State) (h : Hoist) :
    exec (.readyTimeout h) s = .next (s.whileRunning (State.readyOver h)) := rfl

section
variable (s : State) (h : Hoist) (due : (s.drives[h]'h.2).readyT.isSome = true)
include due

theorem readyOver_motion (m : Motion) (runs : (s.drives[h]'h.2).motion = some m) :
    s.readyOver h = s.motionFails h m.kind.moved .readyTimeout .driveFault := by
  unfold State.readyOver State.readyExpires
  rw [if_pos due, runs]

theorem readyOver_burst (b : Burst) (still : (s.drives[h]'h.2).motion = none)
    (bursts : (s.drives[h]'h.2).burst = some b) : s.readyOver h = s.modDrive h fun d => d.endBurst .readyTimeout := by
  unfold State.readyOver State.readyExpires
  rw [if_pos due, still, bursts]

end

/-- The ready-wait timer fails a motion, its position kept, and latches DRIVE_FAULT for the hoist (R145). -/
theorem readyTimeout_fails (s : State) (h : Hoist) (m : Motion) (live : s.ready)
    (due : (s.drives[h]'h.2).readyT.isSome = true) (runs : (s.drives[h]'h.2).motion = some m)
    (clear : s.stationClear h) (installed : s.installed h = true) (alone : s.latchesAlone .driveFault) :
    ∃ t, exec (.readyTimeout h) s = .next t ∧
      t = { s with drives := t.drives, mail := t.mail, entries := t.entries, beaconT := t.beaconT, link := t.link } ∧
      t.drives[h]'h.2 = (s.drives[h]'h.2).braked ∧
      t.mail[h]'h.2 = (s.mail[h]'h.2).reported ⟨m.kind.moved, some .readyTimeout⟩ ∧
      t.latchedOnce .driveFault (some h) := by
  obtain ⟨entries, beacon, link, ended, latched⟩ := motionFails_ends s (s.readyOver h) h m.kind.moved .readyTimeout
    .driveFault [] live.2 (by decide) installed alone .nothing
    ((readyOver_motion s h due m runs).trans (motionFails_eq s h _ _ _ clear live.2))
  have finished := (whileRunning_of_ready s (State.readyOver h) live).trans ended
  exact ⟨_, (exec_readyTimeout s h).trans (congrArg Host.Outcome.next finished), rfl,
    motionOver_drive s h ⟨m.kind.moved, some .readyTimeout⟩, motionOver_mail s h _, latched⟩

/-- Settles O41: a pulse by what withholds it and by the motion it serves, the timer's end as a failed motion or
an ended burst. -/
theorem pulsesAndReadyTimeout : Obligations.PulsesAndReadyTimeout := by
  unfold Obligations.PulsesAndReadyTimeout
  refine ⟨fun s h m live runs clear => ⟨stepPulse_withheld s h m live runs, fun ready released steps =>
    ⟨fun target count move counted => ⟨fun away => ?_, fun there => ?_⟩, fun limit recal within => ?_⟩⟩,
    fun s h live due => ⟨fun m runs clear installed unlatched low => ?_, fun b still bursts => ?_⟩⟩
  · subst counted
    obtain ⟨link, step⟩ := stepPulse_drives s h _ live ((pulse_of_motion s h m runs ready released steps).trans
      (pulseMotion_move s h m target move away))
    exact ⟨_, step, rfl, hoist_set_same _ h _, fun i ne => hoist_set_ne _ h i _ ne⟩
  · subst counted
    obtain ⟨entries, link, step⟩ := stepPulse_reaches s (s.modDrive h DriveIf.counted) h .move live clear
      ((pulse_of_motion s h m runs ready released steps).trans (pulseMotion_reached s h m target move there)) live.2
    refine ⟨_, step, rfl, motionOver_modDrive s h ⟨.move, none⟩ DriveIf.counted,
      motionOver_mail (s.modDrive h DriveIf.counted) h _, fun i ne => ?_⟩
    obtain ⟨drive, mail⟩ := motionOver_others (s.modDrive h DriveIf.counted) h ⟨.move, none⟩ i ne
    exact ⟨drive.trans (modDrive_other s h i _ ne), mail⟩
  · obtain ⟨link, step⟩ := stepPulse_drives s h _ live ((pulse_of_motion s h m runs ready released steps).trans
      (pulseMotion_recal s h m limit recal within))
    exact ⟨_, step, rfl, hoist_set_same _ h _⟩
  · obtain ⟨t, step, only, drive, mail, unclear, counted, involved⟩ := readyTimeout_fails s h m live due runs clear
      installed ⟨unlatched, low⟩
    exact ⟨t, step, only, drive, mail, unclear, (involved h).trans (decide_eq_true rfl), counted⟩
  · obtain ⟨link, step, _⟩ := whileRunning_idle s _ (State.readyOver h) live (readyOver_burst s h due b still bursts)
      live.2
    exact ⟨_, (exec_readyTimeout s h).trans step, rfl, (hoist_set_same _ h _).trans (endBurst_of_burst _ _ b bursts)⟩

/-! ### What a change of an input asks of a drive (R145 to R149) -/

/-- A drive at its top, where TOP is believed (R147). -/
def DriveIf.atTop (d : DriveIf) : DriveIf := { d with count := 0 }

/-- A drive whose position TOP has made known (R147, R148). -/
def DriveIf.homed (d : DriveIf) : DriveIf := { d with count := 0, known := true }

/-- A drive whose position is unknown (R146). -/
def DriveIf.lost (d : DriveIf) : DriveIf := { d with known := false }

/-- A drive on the next down stroke of a SHAKE, begun at its top (R149). -/
def DriveIf.shakenDown (rate left amplitude : Nat) (d : DriveIf) : DriveIf :=
  { d with count := 0, dir := false,
           motion := some ⟨.shake left amplitude true (min Config.maxPosition amplitude), rate⟩ }

section
variable (s : State) (h : Hoist) (m : Motion) (runs : (s.drives[h]'h.2).motion = some m)
include runs

theorem topPresent_of_motion : s.topPresent h = s.topRule h := by
  unfold State.topPresent
  rw [runs]

theorem driveFaulted_of_motion : s.driveFaulted h =
    (s.modDrive h DriveIf.lost).motionFails h m.kind.moved .driveFault .driveFault := by
  unfold State.driveFaulted
  rw [runs]
  rfl

theorem running_of_motion : (s.drives[h]'h.2).running = true := by
  unfold DriveIf.running
  rw [runs]
  rfl

end

section
variable (s : State) (h : Hoist) (still : (s.drives[h]'h.2).motion = none) (quiet : (s.drives[h]'h.2).burst = none)
include still quiet

theorem running_of_still : (s.drives[h]'h.2).running = false := by
  unfold DriveIf.running
  rw [still, quiet]
  rfl

theorem topPresent_still : s.topPresent h = s := by
  unfold State.topPresent
  rw [still, quiet]

theorem driveFaulted_still : s.driveFaulted h = s := by
  unfold State.driveFaulted
  rw [still, quiet]

end

section
variable (s : State) (h : Hoist) (rate : Nat)

/-- TOP ends a RECAL (R148). -/
theorem topPresent_recal (limit : Nat) (runs : (s.drives[h]'h.2).motion = some ⟨.recal limit, rate⟩) :
    s.topPresent h = (s.modDrive h DriveIf.homed).motionDone h .recal := by
  rw [topPresent_of_motion s h _ runs]
  unfold State.topRule
  dsimp only
  rw [runs]
  rfl

/-- TOP within its window ends an upward MOVE (R147). -/
theorem topPresent_up (target : Nat) (runs : (s.drives[h]'h.2).motion = some ⟨.move target, rate⟩)
    (near : (s.drives[h]'h.2).count ≤ 20) (up : (s.drives[h]'h.2).dir = true) :
    s.topPresent h = (s.modDrive h DriveIf.atTop).motionDone h .move := by
  rw [topPresent_of_motion s h _ runs]
  unfold State.topRule
  dsimp only
  rw [runs]
  exact (if_pos near).trans (if_pos up)

/-- TOP within its window has no effect on a downward MOVE (R147). -/
theorem topPresent_down (target : Nat) (runs : (s.drives[h]'h.2).motion = some ⟨.move target, rate⟩)
    (near : (s.drives[h]'h.2).count ≤ 20) (down : (s.drives[h]'h.2).dir = false) : s.topPresent h = s := by
  rw [topPresent_of_motion s h _ runs]
  unfold State.topRule
  dsimp only
  rw [runs]
  exact (if_pos near).trans (if_neg (ne_true_of_eq_false down))

/-- TOP within its window has no effect on a down stroke (R147, R149). -/
theorem topPresent_stroke_down (left amplitude target : Nat)
    (runs : (s.drives[h]'h.2).motion = some ⟨.shake left amplitude true target, rate⟩)
    (near : (s.drives[h]'h.2).count ≤ 20) : s.topPresent h = s := by
  rw [topPresent_of_motion s h _ runs]
  unfold State.topRule
  dsimp only
  rw [runs]
  exact if_pos near

/-- TOP within its window ends an up stroke (R147, R149). -/
theorem topPresent_stroke_up (left amplitude target : Nat)
    (runs : (s.drives[h]'h.2).motion = some ⟨.shake left amplitude false target, rate⟩)
    (near : (s.drives[h]'h.2).count ≤ 20) :
    s.topPresent h = (s.modDrive h DriveIf.atTop).endUp h rate left amplitude := by
  rw [topPresent_of_motion s h _ runs]
  unfold State.topRule
  dsimp only
  rw [runs]
  exact if_pos near

/-- The up stroke of the last cycle ends the SHAKE. -/
theorem endUp_last (left amplitude : Nat) (last : left ≤ 1) : s.endUp h rate left amplitude = s.motionDone h .shake :=
  if_pos last

/-- At the top the next cycle starts at once: TOP in its window has no effect on the down stroke. -/
theorem endUp_next (left amplitude : Nat) (more : 1 < left) :
    (s.modDrive h DriveIf.atTop).endUp h rate left amplitude =
      s.modDrive h (DriveIf.shakenDown rate (left - 1) amplitude) := by
  have top : ((s.modDrive h DriveIf.atTop).drives[h]'h.2).count = 0 := congrArg DriveIf.count (modDrive_drive s h _)
  have near : (((s.modDrive h DriveIf.atTop).inputs[h]'h.2).top &&
      decide (Config.topWindow < ((s.modDrive h DriveIf.atTop).drives[h]'h.2).count)) = false := by
    rw [top]
    exact Bool.and_false _
  refine (if_neg (Nat.not_le.2 more)).trans ((if_neg (ne_true_of_eq_false near)).trans ?_)
  rw [modDrive_modDrive]
  refine congrArg (s.modDrive h) (funext fun d => ?_)
  simp only [DriveIf.atTop, DriveIf.shakenDown, Nat.zero_add]

end

/-- TOP above its window fails every motion but a RECAL (R147). -/
theorem topPresent_above (s : State) (h : Hoist) (m : Motion) (runs : (s.drives[h]'h.2).motion = some m)
    (other : ∀ limit, m.kind ≠ .recal limit) (above : 20 < (s.drives[h]'h.2).count) : s.topPresent h =
      (s.modDrive h DriveIf.homed).motionFails h m.kind.moved .positionError .positionError := by
  obtain ⟨kind, rate⟩ := m
  rw [topPresent_of_motion s h _ runs]
  unfold State.topRule
  dsimp only
  rw [runs]
  cases kind with
  | recal limit => exact absurd rfl (other limit)
  | move target => exact if_neg (Nat.not_le.2 above)
  | shake left amplitude down target => exact if_neg (Nat.not_le.2 above)

/-! ### The step of an input's change, by what it asks of the drive -/

/-- The change of a line leaves the other lines of its station. -/
theorem lined_clear (s : State) (h : Hoist) (line : InputLine) (level : Bool) (clear : s.stationClear h)
    (other : line ≠ .aligned ∧ line ≠ .areaClear) : (s.lined h line level).stationClear h := by
  unfold State.stationClear at clear ⊢
  rw [lined_inputs]
  obtain ⟨aligned, area⟩ := other
  cases line with
  | aligned => exact absurd rfl aligned
  | areaClear => exact absurd rfl area
  | _ => exact clear

section
variable (s u : State) (h : Hoist) (line : InputLine) (level : Bool) (live : s.ready)
  (changes : line.of (s.inputs[h]'h.2) ≠ level)
include live changes

/-- A change that leaves nothing to do. -/
theorem change_idle (e : line.acts h level (s.lined h line level) = u) (idle : u.agenda = Agenda.empty) : ∃ link,
    exec (line.change h level) s = .next { u with link := link } := by
  refine ⟨u.transmit.link, (change_next s h line level live changes).trans (congrArg Host.Outcome.next ?_)⟩
  rw [e, settle_of_empty u idle]
  exact transmit_only_link u

/-- A change that ends a motion reached. -/
theorem change_reaches (m : Moved) (e : line.acts h level (s.lined h line level) = u.motionDone h m)
    (clear : u.stationClear h) (idle : u.agenda = Agenda.empty) : ∃ entries link,
    exec (line.change h level) s = .next { u.motionOver h ⟨m, none⟩ with entries := entries, link := link } := by
  obtain ⟨entries, link, ended⟩ := motionDone_ends u h m clear idle
  refine ⟨entries, link, (change_next s h line level live changes).trans (congrArg Host.Outcome.next ?_)⟩
  rw [e, ended]

/-- A change that fails a motion. -/
theorem change_fails (m : Moved) (cause : FailCause) (k : FaultKind) (more : List FaultReport)
    (e : line.acts h level (s.lined h line level) =
      { u.motionOver h ⟨m, some cause⟩ with agenda := ⟨absentConds h ++ .occur k (some h) :: more, []⟩ })
    (idle : u.agenda = Agenda.empty) (other : k ≠ .drivePowerLoss) (installed : u.installed h = true)
    (alone : u.latchesAlone k) (trailing : Trailing h more) : ∃ entries beacon link,
    exec (line.change h level) s = .next
      { u.motionOver h ⟨m, some cause⟩ with entries := entries, beaconT := beacon, link := link } ∧
    State.latchedOnce { u with entries := entries } k (some h) := by
  obtain ⟨entries, beacon, link, ended, latched⟩ := motionFails_ends u _ h m cause k more idle other installed alone
    trailing e
  exact ⟨entries, beacon, link, (change_next s h line level live changes).trans (congrArg Host.Outcome.next ended),
    latched⟩

end

/-! ### READY (R145) -/

/-- READY lost or back while a motion runs loads or stops the ready-wait timer. -/
theorem readyChange_times (s : State) (h : Hoist) (m : Motion) (level : Bool) (live : s.ready)
    (runs : (s.drives[h]'h.2).motion = some m) (changes : (s.inputs[h]'h.2).ready ≠ level) :
    ∃ t, exec (.readyChange h level) s = .next t ∧
      t = { s with inputs := t.inputs, drives := t.drives, link := t.link } ∧
      t.drives[h]'h.2 = { s.drives[h]'h.2 with readyT := if level then none else some s.kept.drive.readyTimeout } ∧
      (t.inputs[h]'h.2).ready = level := by
  have acts : InputLine.ready.acts h level (s.lined h .ready level) = (s.lined h .ready level).modDrive h
      fun d => { d with readyT := if level then none else some s.kept.drive.readyTimeout } := by
    refine (if_pos (running_of_motion (s.lined h .ready level) h m runs)).trans ?_
    cases level <;> rfl
  obtain ⟨link, step⟩ := change_idle s _ h .ready level live changes acts live.2
  exact ⟨_, step, rfl, hoist_set_same _ h _, congrArg StationInputs.ready (lined_inputs s h .ready level)⟩

/-! ### TOP (R147 to R149) -/

section
variable (s : State) (h : Hoist) (live : s.ready) (absent : (s.inputs[h]'h.2).top = false)
include live absent

/-- TOP ends a motion reached, the drive as `f` leaves it. -/
theorem topChange_reaches (f : DriveIf → DriveIf) (m : Moved) (clear : s.stationClear h)
    (e : (s.lined h .top true).topPresent h = ((s.lined h .top true).modDrive h f).motionDone h m) :
    ∃ t, exec (.topChange h true) s = .next t ∧
      t = { s with inputs := t.inputs, drives := t.drives, mail := t.mail, entries := t.entries, link := t.link } ∧
      t.drives[h]'h.2 = (f (s.drives[h]'h.2)).braked ∧ t.mail[h]'h.2 = (s.mail[h]'h.2).reported ⟨m, none⟩ ∧
      (t.inputs[h]'h.2).top = true := by
  obtain ⟨entries, link, step⟩ := change_reaches s ((s.lined h .top true).modDrive h f) h .top true live
    (ne_true_of_eq_false absent) m e (lined_clear s h .top true clear (by decide)) live.2
  exact ⟨_, step, rfl, motionOver_modDrive (s.lined h .top true) h ⟨m, none⟩ f,
    motionOver_mail ((s.lined h .top true).modDrive h f) h _,
    congrArg StationInputs.top (lined_inputs s h .top true)⟩

/-- TOP that asks nothing of the blocks, or changes the drive alone. -/
theorem topChange_idle (u : State) (e : (s.lined h .top true).topPresent h = u) (idle : u.agenda = Agenda.empty) :
    ∃ link, exec (.topChange h true) s = .next { u with link := link } :=
  change_idle s u h .top true live (ne_true_of_eq_false absent) e idle

/-- TOP above its window fails the motion and latches POSITION_ERROR (R147). -/
theorem topChange_fails (m : Motion) (runs : (s.drives[h]'h.2).motion = some m)
    (other : ∀ limit, m.kind ≠ .recal limit) (above : 20 < (s.drives[h]'h.2).count) (clear : s.stationClear h)
    (installed : s.installed h = true) (alone : s.latchesAlone .positionError) :
    ∃ t, exec (.topChange h true) s = .next t ∧ t.drives[h]'h.2 = (s.drives[h]'h.2).homed.braked ∧
      t.mail[h]'h.2 = (s.mail[h]'h.2).reported ⟨m.kind.moved, some .positionError⟩ ∧
      t.latchedOnce .positionError (some h) ∧ t.ctxs = s.ctxs ∧ t.kept = s.kept := by
  have clear' := lined_clear s h .top true clear (by decide)
  obtain ⟨entries, beacon, link, step, latched⟩ := change_fails s ((s.lined h .top true).modDrive h DriveIf.homed) h
    .top true live (ne_true_of_eq_false absent) m.kind.moved .positionError .positionError []
    ((topPresent_above (s.lined h .top true) h m runs other above).trans
      (motionFails_eq ((s.lined h .top true).modDrive h DriveIf.homed) h _ _ _ clear' live.2))
    live.2 (by decide) installed alone .nothing
  exact ⟨_, step, motionOver_modDrive (s.lined h .top true) h ⟨m.kind.moved, some .positionError⟩ DriveIf.homed,
    motionOver_mail ((s.lined h .top true).modDrive h DriveIf.homed) h _, latched, rfl, rfl⟩

end

/-! ### DRIVE_FAULT (R146, R176) -/

section
variable (s : State) (h : Hoist) (live : s.ready) (absent : (s.inputs[h]'h.2).driveFault = false)
include live absent

/-- DRIVE_FAULT fails the motion with the position unknown and latches for the hoist. -/
theorem driveFaultChange_fails (m : Motion) (runs : (s.drives[h]'h.2).motion = some m) (clear : s.stationClear h)
    (installed : s.installed h = true) (alone : s.latchesAlone .driveFault) :
    ∃ t, exec (.driveFaultChange h true) s = .next t ∧ t.drives[h]'h.2 = (s.drives[h]'h.2).lost.braked ∧
      t.mail[h]'h.2 = (s.mail[h]'h.2).reported ⟨m.kind.moved, some .driveFault⟩ ∧
      t.latchedOnce .driveFault (some h) ∧ t.ctxs = s.ctxs ∧ t.kept = s.kept := by
  have clear' := lined_clear s h .driveFault true clear (by decide)
  have failed := (driveFaulted_of_motion (s.lined h .driveFault true) h m runs).trans
    (motionFails_eq ((s.lined h .driveFault true).modDrive h DriveIf.lost) h _ _ _ clear' live.2)
  have acts := congrArg (fun u : State => u.report (.cond .driveFault (some h) true)) failed
  obtain ⟨entries, beacon, link, step, latched⟩ := change_fails s
    ((s.lined h .driveFault true).modDrive h DriveIf.lost) h .driveFault true live (ne_true_of_eq_false absent)
    m.kind.moved .driveFault .driveFault [.cond .driveFault (some h) true] acts live.2 (by decide) installed alone
    (.level true)
  exact ⟨_, step, motionOver_modDrive (s.lined h .driveFault true) h ⟨m.kind.moved, some .driveFault⟩ DriveIf.lost,
    motionOver_mail ((s.lined h .driveFault true).modDrive h DriveIf.lost) h _, latched, rfl, rfl⟩

/-- Without a motion or burst DRIVE_FAULT is only reported, and latches nothing. -/
theorem driveFaultChange_still (still : (s.drives[h]'h.2).motion = none) (quiet : (s.drives[h]'h.2).burst = none) :
    ∃ t, exec (.driveFaultChange h true) s = .next t ∧
      t = { s with inputs := t.inputs, entries := t.entries, link := t.link } ∧
      t.entries[FaultKind.driveFault.ix]'FaultKind.driveFault.ix.2 =
        { s.entries[FaultKind.driveFault.ix]'FaultKind.driveFault.ix.2 with
          present := (s.entries[FaultKind.driveFault.ix]'FaultKind.driveFault.ix.2).present.set h true } := by
  have acts : InputLine.driveFault.acts h true (s.lined h .driveFault true) =
      { s.lined h .driveFault true with agenda := ⟨[.cond .driveFault (some h) true], []⟩ } := by
    refine (congrArg (fun u : State => u.report (.cond .driveFault (some h) true))
      (driveFaulted_still (s.lined h .driveFault true) h still quiet)).trans ?_
    have idle : (s.lined h .driveFault true).agenda = Agenda.empty := live.2
    unfold State.report
    rw [idle]
    rfl
  have settled := (Trailing.level (h := h) true).settles 199
    { s.lined h .driveFault true with agenda := ⟨[.cond .driveFault (some h) true], []⟩ } rfl
  have step := change_next s h .driveFault true live (ne_true_of_eq_false absent)
  rw [acts] at step
  refine ⟨_, step.trans (congrArg Host.Outcome.next ((congrArg State.transmit settled).trans (transmit_only_link _))),
    ?_, Vector.getElem_set_self _⟩
  rw [← live.2]
  rfl

end

/-- Settles O42: each change by the drive it finds, a motion by its kind and direction. -/
theorem driveInputsActed : Obligations.DriveInputsActed := by
  unfold Obligations.DriveInputsActed
  refine fun s h live => ⟨fun m runs ready => ?_, fun m runs unready => ?_, fun limit rate runs absent clear => ?_,
    fun absent clear => ⟨fun target rate runs near up => ?_, fun left amplitude target rate runs near =>
      ⟨fun last => ?_, fun more => ?_⟩, fun down near => ?_, fun m runs other above installed unlatched low => ?_⟩,
    fun m runs absent clear installed unlatched low => ?_,
    fun still quiet => ⟨fun unready => ?_, fun absent => ?_, fun absent => ?_⟩⟩
  · exact readyChange_times s h m false live runs fun e => Bool.false_ne_true (e.symm.trans ready)
  · exact readyChange_times s h m true live runs (ne_true_of_eq_false unready)
  · exact topChange_reaches s h live absent DriveIf.homed .recal clear
      (topPresent_recal (s.lined h .top true) h rate limit runs)
  · obtain ⟨t, step, only, drive, mail, _⟩ := topChange_reaches s h live absent DriveIf.atTop .move clear
      (topPresent_up (s.lined h .top true) h rate target runs near up)
    exact ⟨t, step, only, drive, mail⟩
  · obtain ⟨t, step, only, drive, mail, _⟩ := topChange_reaches s h live absent DriveIf.atTop .shake clear
      ((topPresent_stroke_up (s.lined h .top true) h rate left amplitude target runs near).trans
        (endUp_last ((s.lined h .top true).modDrive h DriveIf.atTop) h rate left amplitude last))
    exact ⟨t, step, only, drive, mail⟩
  · obtain ⟨link, step⟩ := topChange_idle s h live absent _
      ((topPresent_stroke_up (s.lined h .top true) h rate left amplitude target runs near).trans
        (endUp_next (s.lined h .top true) h rate left amplitude more)) live.2
    exact ⟨_, step, rfl, hoist_set_same _ h _⟩
  · have spared : (s.lined h .top true).topPresent h = s.lined h .top true := by
      rcases down with ⟨target, rate, runs, down⟩ | ⟨left, amplitude, target, rate, runs⟩
      · exact topPresent_down (s.lined h .top true) h rate target runs near down
      · exact topPresent_stroke_down (s.lined h .top true) h rate left amplitude target runs near
    obtain ⟨link, step⟩ := topChange_idle s h live absent _ spared live.2
    exact ⟨_, step, rfl, congrArg StationInputs.top (lined_inputs s h .top true)⟩
  · obtain ⟨t, step, drive, mail, ⟨unclear, _, involved⟩, ctxs, kept⟩ := topChange_fails s h live absent m runs other
      above clear installed ⟨unlatched, low⟩
    exact ⟨t, step, drive, mail, unclear, (involved h).trans (decide_eq_true rfl), ctxs, kept⟩
  · obtain ⟨t, step, drive, mail, ⟨unclear, _, involved⟩, ctxs, kept⟩ := driveFaultChange_fails s h live absent m runs
      clear installed ⟨unlatched, low⟩
    exact ⟨t, step, drive, mail, unclear, (involved h).trans (decide_eq_true rfl), ctxs, kept⟩
  · obtain ⟨link, step⟩ := change_idle s (s.lined h .ready true) h .ready true live (ne_true_of_eq_false unready)
      (if_neg (ne_true_of_eq_false (running_of_still (s.lined h .ready true) h still quiet))) live.2
    exact ⟨_, step, rfl⟩
  · obtain ⟨link, step⟩ := topChange_idle s h live absent _
      (topPresent_still (s.lined h .top true) h still quiet) live.2
    exact ⟨_, step, rfl⟩
  · exact driveFaultChange_still s h live absent still quiet

end Sys2Proof.Machine
end

section
/-! The Feeder Line: the end of its steps, and a feed asked for and sent (R161, R162). -/

namespace Sys2Proof.Machine

/-! ### The end of a step of the line -/

/-- A row that leaves nothing to do. -/
theorem row_idle {s u : State} (c : Instr) {f : State → State} (row : exec c s = .next (s.whileRunning f))
    (live : s.ready) (e : f s = u) (idle : u.agenda = Agenda.empty) :
    ∃ link, exec c s = .next { u with link := link } ∧ Sent u.link [] link := by
  rw [row]
  exact whileRunning_idle s u f live e idle

/-- A row that leaves only take attempts, each of which comes to nothing. -/
theorem row_resting {s u : State} (c : Instr) {f : State → State} {takes : List Follow}
    (row : exec c s = .next (s.whileRunning f)) (live : s.ready) (e : f s = u) (due : u.agenda = ⟨[], takes⟩)
    (rests : ∀ y ∈ takes, y.resting u) (few : takes.length ≤ 4) :
    ∃ link, exec c s = .next { u with link := link, agenda := s.agenda } := by
  obtain ⟨link, finished, _⟩ := finish_quiet u [] takes [] due trivial rests (by rw [List.length_nil]; omega)
  rw [owing_nil] at finished
  refine ⟨link, row.trans (congrArg Host.Outcome.next ((whileRunning_of_ready s f live).trans ?_))⟩
  rw [e, finished, live.2]
  rfl

/-- A step with replies to give and nothing else to do: they join those owed, and the held place stays (R194). -/
theorem finish_owing (u : State) (rs : List Reply) (idle : u.agenda = Agenda.empty) : ∃ link,
    (u.owing rs).settle.transmit = { u with link := link } ∧ link.owed = u.link.owed ++ rs ∧
      link.held = u.link.held := by
  have settled : (u.owing rs).settle = u.owing rs := settle_of_empty _ idle
  obtain ⟨link, sent, joined⟩ := transmit_sent u rs
  refine ⟨link, by rw [settled, sent], joined.owed, ?_⟩
  have held : (u.owing rs).transmit.link.held = u.link.held := transmit_held _
  rwa [sent] at held

/-- A row that answers and leaves nothing else to do. -/
theorem row_owing {s u : State} (c : Instr) {f : State → State} {rs : List Reply}
    (row : exec c s = .next (s.whileRunning f)) (live : s.ready) (e : f s = u.owing rs)
    (idle : u.agenda = Agenda.empty) : ∃ link, exec c s = .next { u with link := link } ∧
      link.owed = u.link.owed ++ rs ∧ link.held = u.link.held := by
  obtain ⟨link, finished, joined⟩ := finish_owing u rs idle
  refine ⟨link, row.trans (congrArg Host.Outcome.next ((whileRunning_of_ready s f live).trans ?_)), joined⟩
  rw [e, finished]

/-- A step that ends with an occurrence that names no hoist and that a CLEAR entry takes alone, and with take attempts
that come to nothing. -/
theorem finish_unnamed_resting (s : State) (k : FaultKind) (other : k ≠ .drivePowerLoss) (alone : s.latchesAlone k)
    (takes : List Follow) (a : s.agenda = ⟨[.occur k none], takes⟩) (rests : ∀ y ∈ takes, y.resting s)
    (few : takes.length ≤ 4) : ∃ link entries beacon,
    s.settle.transmit = { s with entries := entries, beaconT := beacon, link := link, agenda := Agenda.empty } ∧
      State.latchedOnce { s with entries := entries } k none := by
  obtain ⟨clear, spare⟩ := alone
  have taken : State.occurrence { s with agenda := ⟨[], takes⟩ } k none =
      State.struck { s with agenda := ⟨[], takes⟩ } k none :=
    occurrence_unnamed { s with agenda := ⟨[], takes⟩ } k other
      (spare.imp (fun low stop => absurd low (by rw [show s.reactionOf k = .stopAll from stop]; decide)) .inl)
  have rests' : ∀ y ∈ takes, y.resting (State.struck { s with agenda := ⟨[], takes⟩ } k none) := by
    intro y due
    have here := rests y due
    cases y with
    | take h => exact here
    | rehang h => exact here
  obtain ⟨link, finished, _⟩ := finish_report s _ [] (.occur k none) [] [] takes takes a trivial taken rfl trivial
    rests' (by simp only [List.length_nil]; omega)
  exact ⟨link, _, _, finished, struck_unnamed { s with agenda := ⟨[], takes⟩ } k other clear⟩

/-! ### The admission of a feed (R161) -/

/-- The checks of R161 in their order. -/
theorem feedCheck_eq (s : State) : s.feedCheck =
    if s.bench = true then some .notPermitted
    else if s.feeder.state ≠ .idle ∨ s.feeder.relay.isSome = true then some .busy
    else if s.kept.bookOpen = false then some .bookClosed
    else if s.canReserve 1 = false then some .bookFull
    else none := by
  simp only [State.feedCheck, Bool.not_eq_true']

theorem feedCheck_passes (s : State) (benchless : s.bench = false) (idle : s.feeder.state = .idle)
    (unrelayed : s.feeder.relay = none) (isOpen : s.kept.bookOpen = true) (room : s.canReserve 1 = true) :
    s.feedCheck = none := by
  simp [feedCheck_eq, benchless, idle, unrelayed, isOpen, room]

theorem feedCheck_fails (s : State) (fails : s.bench = true ∨ s.feeder.state ≠ .idle ∨ s.feeder.relay.isSome = true ∨
    s.kept.bookOpen = false ∨ s.canReserve 1 = false) : s.feedCheck.isNone = false := by
  rw [feedCheck_eq]
  split_ifs with bench busy closed full
  · rfl
  · rfl
  · rfl
  · rfl
  · tauto

/-- What the owner of FEED answers. -/
def State.feedAnswer (s : State) (n : Nat) : Answer :=
  if within n 1 20 then s.feedCheck.elim ((s.startFeed .host n).okay [fN 4 s.kept.nextSeq]) s.refuse
  else s.refuse .badValue

theorem exec_feed (s : State) (tag n : Nat) :
    exec (.feed tag n) s = .next (s.request .feed tag fun s => s.feedAnswer n) := by
  refine congrArg (fun f => Host.Outcome.next (s.request .feed tag f)) (funext fun u => ?_)
  unfold State.feedAnswer
  cases u.feedCheck <;> rfl

theorem within_ingots (n : Nat) : within n 1 20 = true ↔ ¬(n = 0 ∨ 20 < n) := by
  unfold within
  rw [decide_eq_true_eq]
  omega

theorem feed_outside (s : State) (l : s.listening) (tag n : Nat) (outside : n = 0 ∨ 20 < n) :
    exec (.feed tag n) s = .next (s.replied .feed tag .badValue) :=
  (exec_feed s tag n).trans (request_answered s l .feed tag _ .badValue []
    (if_neg fun inside => (within_ingots n).1 inside outside))

theorem feed_refused (s : State) (l : s.listening) (tag n : Nat) (r : Result) (inside : ¬(n = 0 ∨ 20 < n))
    (refused : s.feedCheck = some r) : exec (.feed tag n) s = .next (s.replied .feed tag r) := by
  refine (exec_feed s tag n).trans (request_answered s l .feed tag _ r [] ((if_pos ((within_ingots n).2 inside)).trans ?_))
  have found : s.unbuilt.feedCheck = some r := refused
  rw [found]
  rfl

/-! ### The start of a feed (R162) -/

/-- The line on entry to REQUESTED. -/
def FeederLine.requesting (f : FeederLine) (source : FeedSource) (n : Nat) : FeederLine :=
  { f with state := .requested, source := some source, asked := some n, timer := none, resv := 1,
           tx := f.tx ++ [.dispense n] }

theorem startFeed_only (s : State) (source : FeedSource) (n : Nat) : ∃ full m, s.startFeed source n =
    { s with feeder := s.feeder.requesting source n, reserved := s.reserved + 1, nearlyFull := full,
             link := { s.link with marks := m } } := by
  obtain ⟨full, m, granted⟩ := grantReserve_only s 1
  unfold State.startFeed
  rw [granted, mark_eq]
  exact ⟨full, _, rfl⟩

theorem feed_starts (s : State) (l : s.listening) (tag n : Nat) (inside : ¬(n = 0 ∨ 20 < n))
    (passes : s.feedCheck = none) : ∃ t, exec (.feed tag n) s = .next t ∧
      Replies s t .feed tag .ok [fN 4 s.kept.nextSeq] ∧
      t = { s with feeder := t.feeder, reserved := s.reserved + 1, nearlyFull := t.nearlyFull, link := t.link } ∧
      t.feeder = s.feeder.requesting .host n := by
  obtain ⟨full, m, started⟩ := startFeed_only s.unbuilt .host n
  have found : s.unbuilt.feedCheck = none := passes
  have answer : s.unbuilt.feedAnswer n = (s.unbuilt.startFeed .host n).okay [fN 4 s.kept.nextSeq] := by
    unfold State.feedAnswer
    rw [if_pos ((within_ingots n).2 inside), found]
    rfl
  rw [started] at answer
  obtain ⟨link, taken, owed⟩ := request_idle s l .feed tag (fun s => s.feedAnswer n) _ .ok
    [fN 4 s.kept.nextSeq] answer l.1.2
  exact ⟨_, (exec_feed s tag n).trans taken, owed, rfl, rfl⟩

/-- An auto-feed request that passes its checks starts a feed. -/
theorem autoFeedRequest_starts (s : State) (n : Nat) (rest : List Nat) (live : s.ready)
    (oldest : s.autoRequests = n :: rest) (auto : s.kept.feed.auto = true) (passes : s.feedCheck = none) :
    ∃ full link, exec .autoFeedRequest s = .next
      { s with feeder := s.feeder.requesting .auto n, reserved := s.reserved + 1, nearlyFull := full,
               autoRequests := rest, link := link } := by
  obtain ⟨full, m, started⟩ := startFeed_only { s with autoRequests := rest } .auto n
  have found : State.feedCheck { s with autoRequests := rest } = none := passes
  obtain ⟨link, step, _⟩ := row_idle (u := { s with
      feeder := s.feeder.requesting .auto n, reserved := s.reserved + 1, nearlyFull := full, autoRequests := rest,
      link := { s.link with marks := m } }) .autoFeedRequest rfl live (by
    dsimp only
    rw [oldest]
    dsimp only
    rw [found, auto]
    exact started) live.2
  exact ⟨full, link, step⟩

/-- An auto-feed request that fails a check leaves the transit, and nothing else changes. -/
theorem autoFeedRequest_drops (s : State) (n : Nat) (rest : List Nat) (live : s.ready)
    (oldest : s.autoRequests = n :: rest) (fails : (s.kept.feed.auto && s.feedCheck.isNone) = false) :
    ∃ link, exec .autoFeedRequest s = .next { s with autoRequests := rest, link := link } := by
  obtain ⟨link, step, _⟩ := row_idle (u := { s with autoRequests := rest }) .autoFeedRequest rfl live (by
    dsimp only
    rw [oldest]
    exact if_neg (ne_true_of_eq_false fails)) live.2
  exact ⟨link, step⟩

/-! ### The last byte of a frame on FD_TX (R162, R170) -/

theorem any_isDispense (tx : List FeederTx) : tx.any FeederTx.isDispense = true ↔ ∃ n, FeederTx.dispense n ∈ tx := by
  rw [List.any_eq_true]
  constructor
  · rintro ⟨x, inside, dispenses⟩
    cases x with
    | dispense n => exact ⟨n, inside⟩
    | relayed k p => cases dispenses
  · rintro ⟨n, inside⟩
    exact ⟨_, inside, rfl⟩

/-- The last byte of a DISPENSE loads the feeder timer in REQUESTED, where no later DISPENSE waits. -/
theorem dispenseSent_sends (s : State) (n : Nat) (rest : List FeederTx) (live : s.ready)
    (first : s.feeder.tx = .dispense n :: rest) : ∃ link, exec .dispenseSent s = .next
      { s with
        feeder := { s.feeder with
          tx := rest,
          timer := if s.feeder.state = .requested && !rest.any FeederTx.isDispense
            then some s.kept.feed.numbers.timeout else s.feeder.timer },
        link := link } := by
  obtain ⟨link, step, _⟩ := row_idle (u := { s with feeder := { s.feeder with
      tx := rest,
      timer := if s.feeder.state = .requested && !rest.any FeederTx.isDispense
        then some s.kept.feed.numbers.timeout else s.feeder.timer } }) .dispenseSent rfl live (by
    dsimp only
    rw [first]
    by_cases loads : (s.feeder.state = .requested && !rest.any FeederTx.isDispense) = true
    · rw [if_pos loads]
      exact if_pos loads
    · rw [if_neg loads]
      exact if_neg loads) live.2
  exact ⟨link, step⟩

/-- Settles O47: FEED by the first check that fails, an auto-feed request likewise, and the end of a DISPENSE by the
frames behind it. -/
theorem feedStarts : Obligations.FeedStarts := by
  unfold Obligations.FeedStarts
  refine fun s tag n l => ⟨?_, fun m rest oldest benchless idle unrelayed isOpen room auto => ?_,
    fun m rest oldest fails => ?_, fun m rest first => ?_⟩
  · split_ifs with outside bench busy closed full
    · exact feed_outside s l tag n outside
    · exact feed_refused s l tag n _ outside (by rw [feedCheck_eq, if_pos bench])
    · exact feed_refused s l tag n _ outside (by rw [feedCheck_eq, if_neg bench, if_pos busy])
    · exact feed_refused s l tag n _ outside (by rw [feedCheck_eq, if_neg bench, if_neg busy, if_pos closed])
    · exact feed_refused s l tag n _ outside
        (by rw [feedCheck_eq, if_neg bench, if_neg busy, if_neg closed, if_pos full])
    · exact feed_starts s l tag n outside
        (by rw [feedCheck_eq, if_neg bench, if_neg busy, if_neg closed, if_neg full])
  · obtain ⟨full, link, step⟩ := autoFeedRequest_starts s m rest l.1 oldest auto
      (feedCheck_passes s benchless idle unrelayed isOpen room)
    exact ⟨_, step, rfl, rfl⟩
  · have dropped : (s.kept.feed.auto && s.feedCheck.isNone) = false := by
      rcases fails with off | fails
      · rw [off, Bool.false_and]
      · rw [feedCheck_fails s fails, Bool.and_false]
    obtain ⟨link, step⟩ := autoFeedRequest_drops s m rest l.1 oldest dropped
    exact ⟨_, step, rfl⟩
  · obtain ⟨link, step⟩ := dispenseSent_sends s m rest l.1 first
    refine ⟨_, step, rfl, fun waits last => ?_, fun spared => ?_⟩
    · have alone : rest.any FeederTx.isDispense = false :=
        Bool.eq_false_iff.2 fun more => ((any_isDispense rest).1 more).elim last
      simp [waits, alone]
    · rcases spared with answered | later
      · simp [answered]
      · simp [(any_isDispense rest).2 later]

end Sys2Proof.Machine
end

section
/-! The frames received from the feeder: taken by the state of the line, counted where it does not take them, and the
bytes that make none (R159, R163 to R168). -/

namespace Sys2Proof.Machine

/-! ### A frame received (R159) -/

theorem exec_frameRow (s : State) (kind : Nat) (payload : List Byte) :
    exec (frameRow kind payload) s = .next (s.whileRunning fun s => s.feederFrame kind payload) := by
  unfold frameRow
  split <;> rfl

theorem malformed_iff (kind : Nat) (payload : List Byte) : malformed kind payload = true ↔ ¬frameFits kind payload := by
  unfold malformed frameFits kAccept kDecline kDrop kDone
  split_ifs with accept one drop
  · subst accept
    simp
  · rcases one with rfl | rfl <;> simp
  · subst drop
    rcases payload with _ | ⟨b, _ | ⟨c, rest⟩⟩
    · simp
    · simp [within, Nat.one_le_iff_ne_zero, or_iff_not_imp_left]
    · simp
  · rw [not_or] at one
    obtain ⟨decline, done⟩ := one
    simp [accept, decline, done, drop]

/-- The line with a whole frame received: the receiver empty, a malformed frame counted. -/
def FeederLine.framed (f : FeederLine) (kind : Nat) (payload : List Byte) : FeederLine :=
  { f with rx := [], malformed := if frameFits kind payload then f.malformed else bump16 f.malformed }

/-- The state in which the line takes a whole frame. -/
def State.framed (s : State) (kind : Nat) (payload : List Byte) : State :=
  s.modFeeder fun f => f.framed kind payload

theorem framed_eq (s : State) (kind : Nat) (payload : List Byte) : (s.modFeeder fun f => { f with
    rx := [], malformed := if malformed kind payload = true then bump16 f.malformed else f.malformed }) =
      s.framed kind payload := by
  refine congrArg s.modFeeder (funext fun f => ?_)
  unfold FeederLine.framed
  by_cases fits : frameFits kind payload
  · rw [if_pos fits, if_neg fun bad => (malformed_iff kind payload).1 bad fits]
  · rw [if_neg fits, if_pos ((malformed_iff kind payload).2 fits)]

section
variable (s : State) (kind : Nat) (payload : List Byte)

/-- A frame received while a relay is outstanding is its answer (R170). -/
theorem feederFrame_relayed (r : Relay) (outstanding : s.feeder.relay = some r) :
    s.feederFrame kind payload = (s.framed kind payload).relayAnswered r kind payload := by
  have there : (s.framed kind payload).feeder.relay = some r := outstanding
  unfold State.feederFrame
  dsimp only
  rw [framed_eq, there]

variable (unrelayed : s.feeder.relay = none)
include unrelayed

theorem feederFrame_atRest (rests : s.feeder.state = .idle ∨ s.feeder.state = .settle) :
    s.feederFrame kind payload = (s.framed kind payload).frameAtRest kind := by
  have none_there : (s.framed kind payload).feeder.relay = none := unrelayed
  have same : (s.framed kind payload).feeder.state = s.feeder.state := rfl
  unfold State.feederFrame
  dsimp only
  rw [framed_eq, none_there, same]
  rcases rests with e | e <;> rw [e]

theorem feederFrame_requested (asked : s.feeder.state = .requested) :
    s.feederFrame kind payload = (s.framed kind payload).frameRequested kind payload := by
  have none_there : (s.framed kind payload).feeder.relay = none := unrelayed
  have same : (s.framed kind payload).feeder.state = .requested := asked
  unfold State.feederFrame
  dsimp only
  rw [framed_eq, none_there, same]

theorem feederFrame_feeding (feeding : s.feeder.state = .feeding) :
    s.feederFrame kind payload = (s.framed kind payload).frameFeeding kind payload := by
  have none_there : (s.framed kind payload).feeder.relay = none := unrelayed
  have same : (s.framed kind payload).feeder.state = .feeding := feeding
  unfold State.feederFrame
  dsimp only
  rw [framed_eq, none_there, same]

end

/-! ### A frame that the state does not take, and a malformed one (R159, R168) -/

/-- The feeder timer after a frame that is not acted on: reloaded in FEEDING (R164). -/
def State.timerAfterFrame (s : State) : Option Nat :=
  if s.feeder.state = .feeding then some s.kept.feed.numbers.timeout else s.feeder.timer

theorem timerAfterFrame_other (s : State) (away : s.feeder.state ≠ .feeding) : s.timerAfterFrame = s.feeder.timer :=
  if_neg away

theorem timerAfterFrame_feeding (s : State) (feeding : s.feeder.state = .feeding) :
    s.timerAfterFrame = some s.kept.feed.numbers.timeout := if_pos feeding

/-- The line's state does not take the kind (R168). -/
abbrev FeedState.untaken (f : FeedState) (kind : Nat) : Prop :=
  f = .idle ∨ f = .settle ∨ (f = .requested ∧ kind ≠ 2 ∧ kind ≠ 3) ∨ (f = .feeding ∧ kind ≠ 4 ∧ kind ≠ 5)

/-- The line's state takes the kind (R163 to R165). -/
abbrev FeedState.taken (f : FeedState) (kind : Nat) : Prop :=
  (f = .requested ∧ (kind = 2 ∨ kind = 3)) ∨ (f = .feeding ∧ (kind = 4 ∨ kind = 5))

/-- A frame that is not taken marks the FEEDER notice (R168). -/
abbrev FeedState.alerts (f : FeedState) (kind : Nat) : Prop :=
  (f = .idle ∨ f = .settle) ∧ (kind = 2 ∨ kind = 4 ∨ kind = 5)

/-- The state after a frame that is not taken, before its notice is marked. -/
def State.untaking (s : State) (kind : Nat) (payload : List Byte) : State :=
  { s with feeder := { s.feeder.framed kind payload with
    unexpected := bump16 s.feeder.unexpected, timer := s.timerAfterFrame } }

/-- The state after a malformed frame of a kind that is taken. -/
def State.misreading (s : State) : State :=
  { s with feeder := { s.feeder with
    rx := [], malformed := bump16 s.feeder.malformed, timer := s.timerAfterFrame } }

section
variable (s : State) (kind : Nat) (payload : List Byte) (unrelayed : s.feeder.relay = none)
include unrelayed

theorem feederFrame_untaken (untaken : s.feeder.state.untaken kind) : s.feederFrame kind payload =
    (s.untaking kind payload).markIf (decide (s.feeder.state.alerts kind)) .feeder := by
  have atRest (rests : s.feeder.state = .idle ∨ s.feeder.state = .settle) : s.feederFrame kind payload =
      (s.untaking kind payload).markIf (decide (s.feeder.state.alerts kind)) .feeder := by
    have away : s.feeder.state ≠ .feeding := by rcases rests with e | e <;> rw [e] <;> decide
    have alerts : decide (s.feeder.state.alerts kind) = (kind == kAccept || kind == kDrop || kind == kDone) := by
      simp [FeedState.alerts, rests, kAccept, kDrop, kDone, Bool.or_assoc, beq_eq_decide]
    rw [feederFrame_atRest s kind payload unrelayed rests, alerts, State.untaking, timerAfterFrame_other s away]
    rfl
  rcases untaken with idle | settle | ⟨asked, accept, decline⟩ | ⟨feeding, drop, done⟩
  · exact atRest (.inl idle)
  · exact atRest (.inr settle)
  · have silent : decide (s.feeder.state.alerts kind) = false := by simp [FeedState.alerts, asked]
    rw [feederFrame_requested s kind payload unrelayed asked, silent, State.untaking,
      timerAfterFrame_other s (by rw [asked]; decide)]
    exact (if_neg accept).trans (if_neg decline)
  · have silent : decide (s.feeder.state.alerts kind) = false := by simp [FeedState.alerts, feeding]
    rw [feederFrame_feeding s kind payload unrelayed feeding, silent, State.untaking, timerAfterFrame_feeding s feeding]
    exact (if_neg drop).trans (if_neg done)

theorem feederFrame_malformed (taken : s.feeder.state.taken kind) (bad : ¬frameFits kind payload) :
    s.feederFrame kind payload = s.misreading := by
  have ill : malformed kind payload = true := (malformed_iff kind payload).2 bad
  have framed : s.feeder.framed kind payload = { s.feeder with rx := [], malformed := bump16 s.feeder.malformed } := by
    unfold FeederLine.framed
    rw [if_neg bad]
  rcases taken with ⟨asked, kinds⟩ | ⟨feeding, kinds⟩
  · have counted : s.framed kind payload = s.misreading := by
      unfold State.misreading
      rw [timerAfterFrame_other s (by rw [asked]; decide)]
      exact congrArg (fun f => { s with feeder := f }) framed
    rw [feederFrame_requested s kind payload unrelayed asked, counted, State.frameRequested, ill]
    rcases kinds with rfl | rfl <;> rfl
  · have counted : (s.framed kind payload).loadFeeder = s.misreading := by
      unfold State.misreading
      rw [timerAfterFrame_feeding s feeding]
      exact congrArg (fun f : FeederLine =>
        { s with feeder := { f with timer := some s.kept.feed.numbers.timeout } }) framed
    rw [feederFrame_feeding s kind payload unrelayed feeding, State.frameFeeding, counted, ill]
    rcases kinds with rfl | rfl <;> rfl

end

theorem frame_refused (s : State) (kind : Nat) (payload : List Byte) (live : s.ready)
    (unrelayed : s.feeder.relay = none) (untaken : s.feeder.state.untaken kind) : ∃ link,
    exec (frameRow kind payload) s = .next { s.untaking kind payload with link := link } ∧
      NoticeMarked s { s.untaking kind payload with link := link } .feeder
        (decide (s.feeder.state.alerts kind)) := by
  obtain ⟨link, step, sent⟩ := row_idle _ (exec_frameRow s kind payload) live
    ((feederFrame_untaken s kind payload unrelayed untaken).trans (markIf_eq _ _ _)) live.2
  exact ⟨link, step, noticeMarked_of_sent s { s.untaking kind payload with link := link } .feeder _
    { s.link with marks := noted s.kept.notices (decide (s.feeder.state.alerts kind)) .feeder s.link.marks }
    (noted_same _ _ _ _) rfl rfl sent⟩

/-! ### Bytes that make no frame (R159) -/

/-- A byte that goes on with a frame only adds to the frame being received. -/
theorem feederByte_builds (s : State) (b : Byte) (rx : List Byte)
    (built : receive Config.feederStart 2 s.feeder.rx b = (rx, .nothing)) :
    s.feederByte b = s.modFeeder fun f => { f with rx := rx } := by
  unfold State.feederByte
  rw [built]

/-- The start byte and a kind leave a frame being received. -/
theorem feederBytes_header (s : State) (kind : Byte) (empty : s.feeder.rx = []) :
    [0xC5, kind].foldl State.feederByte s = s.modFeeder fun f => { f with rx := [0xC5, kind] } := by
  have started : s.feederByte 0xC5 = s.modFeeder fun f => { f with rx := [0xC5] } :=
    feederByte_builds s 0xC5 [0xC5] (by rw [empty]; rfl)
  rw [List.foldl_cons, List.foldl_cons, List.foldl_nil, started]
  exact feederByte_builds (s.modFeeder fun f => { f with rx := [0xC5] }) kind [0xC5, kind] rfl

/-- The state with one line error more. -/
def State.lineErred (s : State) : State :=
  { s with feeder := { s.feeder with lineErrors := bump16 s.feeder.lineErrors } }

/-- A frame begun in an empty receiver and given up leaves only its line error. -/
theorem lineErred_of_emptied (s : State) (empty : s.feeder.rx = []) : (s.modFeeder fun f =>
    { f with rx := [], lineErrors := bump16 f.lineErrors }) = s.lineErred := by
  have same : ({ s.feeder with rx := [] } : FeederLine) = s.feeder := by rw [← empty]
  exact congrArg (fun f : FeederLine => { s with feeder := { f with lineErrors := bump16 f.lineErrors } }) same

/-- A length above 240 gives the frame up. -/
theorem feederBytes_overLength (s : State) (kind len : Byte) (empty : s.feeder.rx = []) (long : 240 < len.toNat) :
    [0xC5, kind, len].foldl State.feederByte s = s.lineErred := by
  have refused : receive Config.feederStart 2 [0xC5, kind] len = ([], .overLength) :=
    if_pos (decide_eq_true (p := Config.maxPayload < len.toNat) long)
  rw [← lineErred_of_emptied s empty]
  refine (congrArg (State.feederByte · len) (feederBytes_header s kind empty)).trans ?_
  unfold State.feederByte
  rw [modFeeder_feeder, refused]
  rfl

/-- A gap gives the frame being received up. -/
theorem feederBytes_gap (s : State) (kind : Byte) (empty : s.feeder.rx = []) :
    ([0xC5, kind].foldl State.feederByte s).modFeeder FeederLine.gap = s.lineErred := by
  rw [feederBytes_header s kind empty, ← lineErred_of_emptied s empty]
  rfl

/-- Settles O49: a frame by whether its kind is taken and fits, bytes by where the frame they begin is given up. -/
theorem feederFramesRefused : Obligations.FeederFramesRefused := by
  unfold Obligations.FeederFramesRefused
  refine fun s live unrelayed => ⟨fun kind payload untaken => ?_, fun kind payload taken bad => ?_,
    fun empty kind len long => ?_, fun empty kind => ?_⟩
  · obtain ⟨link, step, marked⟩ := frame_refused s kind payload live unrelayed untaken
    exact ⟨_, step, rfl, rfl, marked⟩
  · obtain ⟨link, step, _⟩ := row_idle _ (exec_frameRow s kind payload) live
      (feederFrame_malformed s kind payload unrelayed taken bad) live.2
    exact ⟨_, step, rfl, rfl⟩
  · obtain ⟨link, step, _⟩ := row_idle (.feederFrameDiscarded [0xC5, kind, len]) rfl live
      (feederBytes_overLength s kind len empty long) live.2
    exact ⟨_, step, rfl, rfl⟩
  · obtain ⟨link, step, _⟩ := row_idle (.feederFrameGap [0xC5, kind]) rfl live (feederBytes_gap s kind empty) live.2
    exact ⟨_, step, rfl, rfl⟩

end Sys2Proof.Machine
end

section
/-! A feed from its ACCEPT or DECLINE to its end (R163 to R167): what the book holds of it, and the frames and timers that
end it. -/

namespace Sys2Proof.Machine

/-! ### The entry of a feed in the book (R71, R72) -/

/-- The one PROVISIONAL entry of a kind and number is changed in its place. -/
theorem revise_at (r : Retained) (k : EntryKind) (f : Entry → Entry) (pre post : List Entry) (e : Entry)
    (journal : r.journal = pre ++ e :: post) (first : ∀ x ∈ pre, x.seq ≠ e.seq) (kind : e.kind = k)
    (provisional : e.final = false) : r.revise k e.seq f = { r with
      journal := pre ++ f e :: post, inventory := r.inventory + ((f e).amount - e.amount),
      totals := (r.revise k e.seq f).totals } := by
  have found := reviseFirst_at (fun x : Entry => x.seq == e.seq && !x.final && x.kind == k) f pre post e
    (fun x hx => by rw [beq_false_of_ne (first x hx)]; rfl) (by rw [kind, provisional, beq_self_eq_true]; simp)
  unfold Retained.revise
  rw [journal, found]
  rfl

/-- The ADDITION entry of a feed as it is raised (R71). -/
def Entry.raised (count : Nat) (amount : Int) (e : Entry) : Entry := { e with ingots := some count, amount := amount }

/-- The ADDITION entry of a feed as it is finalised (R72). -/
def Entry.closed (now : Nat) (total : Option Nat) (disagree unconfirmed : Bool) (e : Entry) : Entry :=
  { e with final := true, finalised := some now, feederTotal := total,
           flags := { e.flags with countDisagree := disagree, unconfirmed := unconfirmed } }

/-- What is retained after the entry of a feed has been finalised. -/
def Retained.feedClosed (r : Retained) (seq : Nat) (total : Option Nat) (disagree unconfirmed : Bool) : Retained :=
  r.revise .addition seq (Entry.closed r.runtime total disagree unconfirmed)

theorem feedClosed_at (r : Retained) (total : Option Nat) (disagree unconfirmed : Bool) (pre post : List Entry)
    (e : Entry) (journal : r.journal = pre ++ e :: post) (first : ∀ x ∈ pre, x.seq ≠ e.seq) (kind : e.kind = .addition)
    (provisional : e.final = false) :
    (r.feedClosed e.seq total disagree unconfirmed).journal =
        pre ++ e.closed r.runtime total disagree unconfirmed :: post ∧
      (r.feedClosed e.seq total disagree unconfirmed).inventory = r.inventory := by
  have revised := revise_at r .addition (Entry.closed r.runtime total disagree unconfirmed) pre post e journal first kind
    provisional
  refine ⟨congrArg Retained.journal revised, (congrArg Retained.inventory revised).trans ?_⟩
  show r.inventory + (e.amount - e.amount) = r.inventory
  rw [Int.sub_self, Int.add_zero]

/-! ### The end of a feed (R163, R165 to R167) -/

/-- The line with its feed ended. -/
def FeederLine.over (f : FeederLine) (next : FeedState) (outcome : FeedOutcome) (booked : Nat)
    (total : Option Nat) : FeederLine :=
  { f with state := next, source := none, asked := none, entry := none, mass := none, count := none, timer := none,
           resv := 0, last := some ⟨outcome, f.asked.getD 0, booked, total⟩ }

theorem endFeed_only (s : State) (next : FeedState) (outcome : FeedOutcome) (booked : Nat) (total : Option Nat) :
    ∃ m, s.endFeed next outcome booked total =
      { s with feeder := s.feeder.over next outcome booked total, link := { s.link with marks := m } } :=
  mark_only (s.modFeeder fun f => f.over next outcome booked total) .feeder

/-- A declined feed returns its reservation, with the take attempts of that (R66, R163). -/
theorem feedDeclined_only (s : State) (reason : Nat) : ∃ full m, s.feedDeclined reason =
    { s with feeder := s.feeder.over .idle (.declined reason) 0 none, reserved := s.reserved - 1, nearlyFull := full,
             link := { s.link with marks := m },
             agenda := ⟨s.agenda.reports, s.agenda.follow ++ s.takesAfterReturn 1⟩ } := by
  obtain ⟨m, ended⟩ := endFeed_only s .idle (.declined reason) 0 none
  unfold State.feedDeclined
  rw [ended]
  obtain ⟨full, m', returned⟩ := returnReserve_only { s with
    feeder := s.feeder.over .idle (.declined reason) 0 none, link := { s.link with marks := m } } 1
  exact ⟨full, m', returned⟩

/-- An unanswered feed reports FEEDER_SILENT and returns its reservation (R66, R167). -/
theorem feedUnanswered_only (s : State) : ∃ full m, s.feedUnanswered =
    { s with feeder := s.feeder.over .idle .noAnswer 0 none, reserved := s.reserved - 1, nearlyFull := full,
             link := { s.link with marks := m },
             agenda := ⟨s.agenda.reports ++ [.occur .feederSilent none],
               s.agenda.follow ++ s.takesAfterReturn 1⟩ } := by
  obtain ⟨m, ended⟩ := endFeed_only s .idle .noAnswer 0 none
  unfold State.feedUnanswered
  rw [ended]
  obtain ⟨full, m', returned⟩ := returnReserve_only (State.report { s with
    feeder := s.feeder.over .idle .noAnswer 0 none, link := { s.link with marks := m } } (.occur .feederSilent none)) 1
  exact ⟨full, m', returned⟩

/-- The line in SETTLE, its timer loaded (R166). -/
def FeederLine.settling (f : FeederLine) (settle : Nat) : FeederLine :=
  { f with state := .settle, settleT := some (settle * 10) }

theorem enterSettle_loads (s : State) (settles : 0 < s.kept.feed.numbers.settle) :
    s.enterSettle = { s with feeder := s.feeder.settling s.kept.feed.numbers.settle } :=
  if_neg (Nat.ne_of_gt settles)

/-- The end of a feed in FEEDING: the entry finalised, then SETTLE. -/
theorem finaliseAddition_ended (s : State) (outcome : FeedOutcome) (held seq : Nat) (total : Option Nat)
    (disagree unconfirmed : Bool) : ∃ m,
    (s.finaliseAddition seq total disagree unconfirmed).endFeed .settle outcome held total =
      { s with kept := s.kept.feedClosed seq total disagree unconfirmed,
               feeder := s.feeder.over .settle outcome held total, link := { s.link with marks := m } } := by
  obtain ⟨m, marked⟩ := markIf_only (s.modKept fun r => r.feedClosed seq total disagree unconfirmed)
    (s.kept.hasProvisional .addition seq) .book
  have finalised : s.finaliseAddition seq total disagree unconfirmed =
      { s with kept := s.kept.feedClosed seq total disagree unconfirmed, link := { s.link with marks := m } } := marked
  rw [finalised]
  exact endFeed_only _ _ _ _ _

/-- A valid DONE finalises the entry with the total received, and SETTLE begins (R165). -/
theorem feedDone_only (s : State) (held seq total : Nat) (counted : s.feeder.count = some held)
    (entered : s.feeder.entry = some seq) (settles : 0 < s.kept.feed.numbers.settle) : ∃ m, s.feedDone total =
    { s with kept := s.kept.feedClosed seq (some total) (total != held) false,
             feeder := (s.feeder.over .settle .done held (some total)).settling s.kept.feed.numbers.settle,
             link := { s.link with marks := m } } := by
  obtain ⟨m, ended⟩ := finaliseAddition_ended s .done held seq (some total) (total != held) false
  unfold State.feedDone
  rw [counted, entered]
  dsimp only [Option.getD_some]
  rw [ended]
  exact ⟨m, enterSettle_loads _ settles⟩

/-- A feed gone quiet in FEEDING is finalised UNCONFIRMED, and FEEDER_SILENT is reported (R167). -/
theorem feedUnconfirmed_only (s : State) (held seq : Nat) (counted : s.feeder.count = some held)
    (entered : s.feeder.entry = some seq) (settles : 0 < s.kept.feed.numbers.settle) : ∃ m, s.feedUnconfirmed =
    { s with kept := s.kept.feedClosed seq none false true,
             feeder := (s.feeder.over .settle .unconfirmed held none).settling s.kept.feed.numbers.settle,
             link := { s.link with marks := m },
             agenda := ⟨s.agenda.reports ++ [.occur .feederSilent none], s.agenda.follow⟩ } := by
  obtain ⟨m, ended⟩ := finaliseAddition_ended s .unconfirmed held seq none false true
  unfold State.feedUnconfirmed
  rw [counted, entered]
  dsimp only [Option.getD_some]
  rw [ended]
  exact ⟨m, enterSettle_loads (State.report _ _) settles⟩

/-! ### Frames that fit their row (R163 to R165) -/

/-- The state with no frame being received. -/
def State.emptied (s : State) : State := { s with feeder := { s.feeder with rx := [] } }

/-- The state after a frame in FEEDING, before it is acted on (R164). -/
def State.heard (s : State) : State :=
  { s with feeder := { s.feeder with rx := [], timer := some s.kept.feed.numbers.timeout } }

theorem framed_of_fits (s : State) (kind : Nat) (payload : List Byte) (fits : frameFits kind payload) :
    s.framed kind payload = s.emptied := by
  have whole : s.feeder.framed kind payload = { s.feeder with rx := [] } := by
    unfold FeederLine.framed
    rw [if_pos fits]
  exact congrArg (fun f => { s with feeder := f }) whole

theorem malformed_of_fits (kind : Nat) (payload : List Byte) (fits : frameFits kind payload) :
    malformed kind payload = false :=
  Bool.eq_false_iff.2 fun bad => (malformed_iff kind payload).1 bad fits

section
variable (s : State) (unrelayed : s.feeder.relay = none)
include unrelayed

theorem feederFrame_accept (asked : s.feeder.state = .requested) : s.feederFrame 2 [] = s.emptied.feedAccepted := by
  rw [feederFrame_requested s 2 [] unrelayed asked, framed_of_fits s 2 [] (by decide)]
  rfl

theorem feederFrame_decline (b : Byte) (asked : s.feeder.state = .requested) :
    s.feederFrame 3 [b] = s.emptied.feedDeclined b.toNat := by
  rw [feederFrame_requested s 3 [b] unrelayed asked, framed_of_fits s 3 [b] (by simp [frameFits])]
  rfl

theorem feederFrame_drop (b : Byte) (feeding : s.feeder.state = .feeding) (low : 1 ≤ b.toNat) (high : b.toNat ≤ 20) :
    s.feederFrame 4 [b] = s.heard.feedDrop b.toNat := by
  have fits : frameFits 4 [b] := by simp [frameFits, low, high]
  rw [feederFrame_feeding s 4 [b] unrelayed feeding, framed_of_fits s 4 [b] fits, State.frameFeeding,
    malformed_of_fits 4 [b] fits]
  rfl

theorem feederFrame_done (b : Byte) (feeding : s.feeder.state = .feeding) :
    s.feederFrame 5 [b] = s.heard.feedDone b.toNat := by
  rw [feederFrame_feeding s 5 [b] unrelayed feeding, framed_of_fits s 5 [b] (by simp [frameFits])]
  rfl

end

/-! ### ACCEPT and DECLINE in REQUESTED (R163) -/

/-- The line on entry to FEEDING. -/
def FeederLine.accepted (f : FeederLine) (seq mass timeout : Nat) : FeederLine :=
  { f with state := .feeding, entry := some seq, mass := some mass, count := some 0, resv := 0, timer := some timeout }

/-- What is retained after the entry of a feed has been written. -/
def Retained.feedOpened (r : Retained) : Retained :=
  r.write { Entry.blank .addition r.runtime 0 with ingots := some 0 }

/-- The Level Unit frozen. -/
def LevelUnit.freezing (l : LevelUnit) (now : Nat) : LevelUnit :=
  { l with frozen := true, lastFreeze := some now, fifos := Vector.replicate 4 [] }

theorem feedAccepted_eq (s : State) : s.feedAccepted =
    { s with kept := s.kept.feedOpened, reserved := s.reserved - 1,
             feeder := s.feeder.accepted s.kept.nextSeq s.kept.feed.numbers.ingotMass s.kept.feed.numbers.timeout,
             lu := s.lu.freezing s.kept.runtime } := rfl

theorem accept_feeds (s : State) (live : s.ready) (unrelayed : s.feeder.relay = none)
    (asked : s.feeder.state = .requested) : ∃ link, exec (.accept []) s = .next
      { s with
        kept := s.kept.feedOpened, reserved := s.reserved - 1,
        feeder := s.emptied.feeder.accepted s.kept.nextSeq s.kept.feed.numbers.ingotMass s.kept.feed.numbers.timeout,
        lu := s.lu.freezing s.kept.runtime, link := link } := by
  obtain ⟨link, step, _⟩ := row_idle _ (exec_frameRow s 2 []) live
    ((feederFrame_accept s unrelayed asked).trans (feedAccepted_eq s.emptied)) live.2
  exact ⟨link, step⟩

theorem decline_returns (s : State) (b : Byte) (live : s.ready) (unrelayed : s.feeder.relay = none)
    (asked : s.feeder.state = .requested) (q : s.noneQueued) : ∃ full link, exec (.decline [b]) s = .next
      { s with feeder := s.emptied.feeder.over .idle (.declined b.toNat) 0 none, reserved := s.reserved - 1,
               nearlyFull := full, link := link } := by
  obtain ⟨full, m, declined⟩ := feedDeclined_only s.emptied b.toNat
  have idle : s.emptied.agenda = Agenda.empty := live.2
  rw [idle] at declined
  obtain ⟨link, step⟩ := row_resting _ (exec_frameRow s 3 [b]) live
    ((feederFrame_decline s unrelayed b asked).trans declined) rfl (takes_rest s.emptied _ q 1)
    (takesAfterReturn_length s.emptied 1)
  exact ⟨full, link, step⟩

/-! ### DROP and DONE in FEEDING (R164, R165) -/

section
variable (s : State) (held k : Nat) (counted : s.feeder.count = some held)
include counted

theorem feedDrop_known (seen : k ≤ held) : s.feedDrop k = s := by
  unfold State.feedDrop
  rw [counted]
  cases s.feeder.entry with
  | none => rfl
  | some seq => cases s.feeder.mass with
    | none => rfl
    | some mass => exact if_neg (Nat.not_lt.2 seen)

theorem feedDrop_raises (seq mass : Nat) (entered : s.feeder.entry = some seq) (weighed : s.feeder.mass = some mass)
    (more : held < k) : s.feedDrop k =
      { s with feeder := { s.feeder with count := some k },
               kept := s.kept.revise .addition seq (Entry.raised k ((k * mass : Nat) : Int)) } := by
  unfold State.feedDrop
  rw [counted, entered, weighed]
  exact if_pos more

end

/-- Settles O48: the four frames, a DROP by whether it is higher than the count held. -/
theorem feederFramesBooked : Obligations.FeederFramesBooked := by
  unfold Obligations.FeederFramesBooked
  refine fun s live unrelayed => ⟨fun asked => ?_, fun b asked q => ?_,
    fun b held mass seq feeding low high counted weighed entered => ⟨fun seen => ?_,
      fun more pre e post journal first own kind provisional => ?_⟩,
    fun b held seq pre post e feeding counted entered journal first own kind provisional settles => ?_⟩
  · obtain ⟨link, step⟩ := accept_feeds s live unrelayed asked
    refine ⟨_, step, rfl, rfl, rfl, rfl, rfl, rfl, rfl, Int.add_zero _, ⟨_, rfl, rfl, rfl, rfl, rfl, rfl⟩, rfl⟩
  · obtain ⟨full, link, step⟩ := decline_returns s b live unrelayed asked q
    exact ⟨_, step, rfl, rfl, rfl, rfl, rfl⟩
  · obtain ⟨link, step, _⟩ := row_idle _ (exec_frameRow s 4 [b]) live
      ((feederFrame_drop s unrelayed b feeding low high).trans (feedDrop_known s.heard held b.toNat counted seen)) live.2
    exact ⟨_, step, rfl, rfl⟩
  · subst own
    obtain ⟨link, step, _⟩ := row_idle _ (exec_frameRow s 4 [b]) live
      ((feederFrame_drop s unrelayed b feeding low high).trans
        (feedDrop_raises s.heard held b.toNat counted e.seq mass entered weighed more)) live.2
    have revised := revise_at s.kept .addition (Entry.raised b.toNat ((b.toNat * mass : Nat) : Int)) pre post e journal
      first kind provisional
    exact ⟨_, step, rfl, rfl, congrArg Retained.journal revised, congrArg Retained.inventory revised, rfl⟩
  · subst own
    obtain ⟨m, done⟩ := feedDone_only s.heard held e.seq b.toNat counted entered settles
    obtain ⟨link, step, _⟩ := row_idle _ (exec_frameRow s 5 [b]) live
      ((feederFrame_done s unrelayed b feeding).trans done) live.2
    obtain ⟨closed, balanced⟩ := feedClosed_at s.kept (some b.toNat) (b.toNat != held) false pre post e journal first
      kind provisional
    exact ⟨_, step, rfl, rfl, rfl, rfl, rfl, balanced, closed⟩

end Sys2Proof.Machine
end

section
/-! The feeder timer and the settle timer of the Feeder Line (R166, R167, R174). -/

namespace Sys2Proof.Machine

/-- A row that leaves an occurrence that names no hoist and that a CLEAR entry takes alone, and take attempts that come
to nothing. -/
theorem row_unnamed {s u : State} (c : Instr) {f : State → State} (k : FaultKind) {takes : List Follow}
    (row : exec c s = .next (s.whileRunning f)) (live : s.ready) (e : f s = u) (other : k ≠ .drivePowerLoss)
    (alone : u.latchesAlone k) (due : u.agenda = ⟨[.occur k none], takes⟩) (rests : ∀ y ∈ takes, y.resting u)
    (few : takes.length ≤ 4) : ∃ link entries beacon,
    exec c s = .next { u with entries := entries, beaconT := beacon, link := link, agenda := s.agenda } ∧
      State.latchedOnce { u with entries := entries } k none := by
  obtain ⟨link, entries, beacon, finished, latched⟩ := finish_unnamed_resting u k other alone takes due rests few
  refine ⟨link, entries, beacon, row.trans (congrArg Host.Outcome.next ((whileRunning_of_ready s f live).trans ?_)),
    latched⟩
  rw [e, finished, live.2]

/-! ### The feeder timer at zero (R167, R174) -/

/-- What the feeder timer's expiry does. -/
def State.feederTimerEnds (s : State) : State :=
  if s.feeder.timer = some 0 then
    if s.feeder.state = .requested then s.feedUnanswered
    else if s.feeder.state = .feeding then s.feedUnconfirmed else s
  else s

theorem exec_feederTimerExpiry (s : State) :
    exec .feederTimerExpiry s = .next (s.whileRunning State.feederTimerEnds) := by
  refine congrArg (fun f => Host.Outcome.next (s.whileRunning f)) (funext fun u => ?_)
  unfold State.feederTimerEnds
  cases u.feeder.state <;> rfl

theorem feederTimerEnds_requested (s : State) (atZero : s.feeder.timer = some 0)
    (asked : s.feeder.state = .requested) : s.feederTimerEnds = s.feedUnanswered :=
  (if_pos atZero).trans (if_pos asked)

theorem feederTimerEnds_feeding (s : State) (atZero : s.feeder.timer = some 0)
    (feeding : s.feeder.state = .feeding) : s.feederTimerEnds = s.feedUnconfirmed :=
  (if_pos atZero).trans ((if_neg (by rw [feeding]; decide)).trans (if_pos feeding))

theorem feederTimer_unanswered (s : State) (live : s.ready) (asked : s.feeder.state = .requested)
    (atZero : s.feeder.timer = some 0) (q : s.noneQueued) (alone : s.latchesAlone .feederSilent) :
    ∃ full link entries beacon, exec .feederTimerExpiry s = .next
      { s with feeder := s.feeder.over .idle .noAnswer 0 none, reserved := s.reserved - 1, nearlyFull := full,
               entries := entries, beaconT := beacon, link := link } ∧
      State.latchedOnce { s with entries := entries } .feederSilent none := by
  obtain ⟨full, m, unanswered⟩ := feedUnanswered_only s
  rw [show s.agenda = Agenda.empty from live.2] at unanswered
  obtain ⟨link, entries, beacon, step, latched⟩ := row_unnamed _ .feederSilent (exec_feederTimerExpiry s) live
    ((feederTimerEnds_requested s atZero asked).trans unanswered) (by decide) alone rfl (takes_rest s _ q 1)
    (takesAfterReturn_length s 1)
  exact ⟨full, link, entries, beacon, step, latched⟩

theorem feederTimer_unconfirmed (s : State) (held seq : Nat) (live : s.ready) (feeding : s.feeder.state = .feeding)
    (atZero : s.feeder.timer = some 0) (counted : s.feeder.count = some held) (entered : s.feeder.entry = some seq)
    (settles : 0 < s.kept.feed.numbers.settle) (alone : s.latchesAlone .feederSilent) :
    ∃ link entries beacon, exec .feederTimerExpiry s = .next
      { s with kept := s.kept.feedClosed seq none false true,
               feeder := (s.feeder.over .settle .unconfirmed held none).settling s.kept.feed.numbers.settle,
               entries := entries, beaconT := beacon, link := link } ∧
      State.latchedOnce { s with entries := entries } .feederSilent none := by
  obtain ⟨m, unconfirmed⟩ := feedUnconfirmed_only s held seq counted entered settles
  rw [show s.agenda = Agenda.empty from live.2] at unconfirmed
  obtain ⟨link, entries, beacon, step, latched⟩ := row_unnamed _ .feederSilent (exec_feederTimerExpiry s) live
    ((feederTimerEnds_feeding s atZero feeding).trans unconfirmed) (by decide) alone rfl (fun _ hy => nomatch hy)
    (Nat.zero_le 4)
  exact ⟨link, entries, beacon, step, latched⟩

/-! ### The settle timer (R166) -/

theorem unfreeze_lu (s : State) : s.unfreeze = { s with lu := s.unfreeze.lu } ∧ s.unfreeze.lu.frozen = false ∧
    s.unfreeze.lu.fifos = s.lu.fifos ∧ s.unfreeze.lu.ring = s.lu.ring := by
  unfold State.unfreeze
  split
  · exact ⟨rfl, rfl, rfl, rfl⟩
  · rename_i thawed
    exact ⟨rfl, Bool.eq_false_iff.2 thawed, rfl, rfl⟩

/-- Settles O50: the feeder timer by the state of the line, the settle timer by the Level Unit it finds. -/
theorem feederTimersEnd : Obligations.FeederTimersEnd := by
  unfold Obligations.FeederTimersEnd
  refine fun s live => ⟨fun asked atZero q clear spare => ?_,
    fun held seq pre post e feeding atZero counted entered journal first own kind provisional settles clear spare => ?_,
    fun away => ?_, fun settle => ?_⟩
  · obtain ⟨full, link, entries, beacon, step, latched, _, involved⟩ :=
      feederTimer_unanswered s live asked atZero q ⟨clear, spare⟩
    exact ⟨_, step, rfl, rfl, rfl, rfl, rfl, rfl, latched, fun i => (involved i).trans (decide_eq_false nofun)⟩
  · subst own
    obtain ⟨link, entries, beacon, step, latched, _⟩ :=
      feederTimer_unconfirmed s held e.seq live feeding atZero counted entered settles ⟨clear, spare⟩
    obtain ⟨closed, balanced⟩ := feedClosed_at s.kept none false true pre post e journal first kind provisional
    exact ⟨_, step, rfl, rfl, rfl, balanced, closed, latched⟩
  · obtain ⟨link, step, _⟩ := row_idle _ (exec_feederTimerExpiry s) live (if_neg away) live.2
    exact ⟨_, step, rfl⟩
  · obtain ⟨only, frozen, fifos, ring⟩ := unfreeze_lu (s.modFeeder fun f => { f with state := .idle, settleT := none })
    obtain ⟨link, step, _⟩ := row_idle .settleTimerExpiry rfl live ((if_pos settle).trans only) live.2
    exact ⟨_, step, rfl, frozen, fifos, ring⟩

end Sys2Proof.Machine
end

section
/-! FEEDER_RELAY: its admission, its frame sent, its answer handed back and its timeout (R169, R170, R193, R194). -/

namespace Sys2Proof.Machine

/-! ### Admission (R169) -/

/-- The checks of R169 in their order. -/
theorem relayCheck_eq (s : State) (kind : Nat) : s.relayCheck kind =
    if s.kept.feed.relay = false then some .notPermitted
    else if kind = 1 then some .relayRefused
    else if s.feeder.state = .requested ∨ s.feeder.state = .feeding ∨ s.feeder.relay.isSome = true then some .busy
    else none := by
  simp only [State.relayCheck, FeedState.inFlight, Bool.not_eq_true', Bool.or_eq_true, beq_iff_eq, or_assoc]

/-- What the Feeder Line does with a FEEDER_RELAY (R169, R170). -/
def State.relayAsked (tag kind : Nat) (payload : List Byte) (s : State) : State :=
  (s.relayCheck kind).elim (s.startRelay tag kind payload)
    fun r => s.addReply ReqKind.feederRelay.code tag r []

theorem exec_feederRelay (s : State) (tag kind : Nat) (payload : List Byte) (l : s.listening) :
    exec (.feederRelay tag kind payload) s = .next (s.unbuilt.relayAsked tag kind payload).settle.transmit := by
  have full : s.unbuilt.linkFull = false := l.2
  have taken : exec (.feederRelay tag kind payload) s = .next (s.received (State.relayAsked tag kind payload)) := by
    refine congrArg (fun f => Host.Outcome.next (s.received f)) (funext fun u => ?_)
    unfold State.relayAsked
    cases u.relayCheck kind <;> rfl
  rw [taken]
  refine congrArg Host.Outcome.next ((whileRunning_of_ready s _ l.1).trans ?_)
  exact congrArg (fun u : State => u.settle.transmit) (if_neg (ne_true_of_eq_false full))

theorem feederRelay_refused (s : State) (l : s.listening) (tag kind : Nat) (payload : List Byte) (r : Result)
    (refused : s.relayCheck kind = some r) :
    exec (.feederRelay tag kind payload) s = .next (s.replied .feederRelay tag r) := by
  have answered : s.unbuilt.relayAsked tag kind payload = s.unbuilt.addReply ReqKind.feederRelay.code tag r [] := by
    unfold State.relayAsked
    rw [show s.unbuilt.relayCheck kind = some r from refused]
    rfl
  have idle : (s.unbuilt.addReply ReqKind.feederRelay.code tag r []).agenda = Agenda.empty := l.1.2
  rw [exec_feederRelay s tag kind payload l, answered, settle_of_empty _ idle, addReply_transmit s.unbuilt _ _ _ _ rfl]
  exact congrArg Host.Outcome.next (replied_rx s .feederRelay tag r [])

theorem feederRelay_admitted (s : State) (l : s.listening) (tag kind : Nat) (payload : List Byte)
    (passes : s.relayCheck kind = none) : ∃ link, exec (.feederRelay tag kind payload) s = .next
      { s with feeder := { s.feeder with relay := some ⟨tag, none⟩, tx := s.feeder.tx ++ [.relayed kind payload] },
               link := link } ∧ link.held = true ∧ link.owed = s.link.owed := by
  have admitted : s.unbuilt.relayAsked tag kind payload = s.unbuilt.startRelay tag kind payload := by
    unfold State.relayAsked
    rw [show s.unbuilt.relayCheck kind = none from passes]
    rfl
  obtain ⟨link, finished, owed, held⟩ := finish_owing (s.unbuilt.startRelay tag kind payload) [] l.1.2
  rw [owing_nil] at finished
  rw [List.append_nil] at owed
  refine ⟨link, ?_, held, owed⟩
  rw [exec_feederRelay s tag kind payload l, admitted, finished]
  rfl

/-! ### The frame sent, its answer and its timeout (R170) -/

theorem all_isDispense (tx : List FeederTx) :
    tx.all FeederTx.isDispense = true ↔ ∀ k p, FeederTx.relayed k p ∉ tx := by
  rw [List.all_eq_true]
  constructor
  · intro dispenses k p inside
    exact absurd (dispenses _ inside) Bool.false_ne_true
  · intro none_relayed x inside
    cases x with
    | dispense n => rfl
    | relayed k p => exact absurd inside (none_relayed k p)

/-- The last byte of a relayed frame loads the hold timer, where no later one waits. -/
theorem relayFrameSent_sends (s : State) (k : Nat) (p : List Byte) (rest : List FeederTx) (live : s.ready)
    (first : s.feeder.tx = .relayed k p :: rest) : ∃ link, exec .relayFrameSent s = .next
      { s with
        feeder := { s.feeder with
          tx := rest,
          relay := if rest.all FeederTx.isDispense
            then s.feeder.relay.map fun r => { r with hold := some s.kept.feed.numbers.hold } else s.feeder.relay },
        link := link } := by
  obtain ⟨link, step, _⟩ := row_idle (u := { s with feeder := { s.feeder with
      tx := rest,
      relay := if rest.all FeederTx.isDispense
        then s.feeder.relay.map fun r => { r with hold := some s.kept.feed.numbers.hold } else s.feeder.relay } })
    .relayFrameSent rfl live (by
    dsimp only
    rw [first]
    rfl) live.2
  exact ⟨link, step⟩

/-- The state with its relay ended and the held place given up. -/
def State.unrelayed (s : State) : State :=
  { s with feeder := { s.feeder with relay := none }, link := { s.link with held := false } }

/-- The first frame received is handed back, its payload cut to 237 bytes. -/
theorem feederOtherFrame_answers (s : State) (kind : Nat) (payload : List Byte) (r : Relay) (live : s.ready)
    (outstanding : s.feeder.relay = some r) : ∃ link, exec (.feederOtherFrame kind payload) s = .next
      { (s.framed kind payload).unrelayed with link := link } ∧
      link.owed = s.link.owed ++ [replyTo .feederRelay r.tag .ok
        ([fN 1 kind, fN 1 payload.length] ++ fBytes (payload.take 237))] ∧ link.held = false := by
  obtain ⟨link, step, owed, held⟩ := row_owing (.feederOtherFrame kind payload) rfl live
    (u := (s.framed kind payload).unrelayed) (feederFrame_relayed s kind payload r outstanding) live.2
  exact ⟨link, step, owed, held⟩

theorem relayHoldExpiry_times (s : State) (r : Relay) (n : Nat) (live : s.ready)
    (outstanding : s.feeder.relay = some r) (running : r.hold = some n) : ∃ link,
    exec .relayHoldExpiry s = .next { s.unrelayed with link := link } ∧
      link.owed = s.link.owed ++ [replyTo .feederRelay r.tag .timeout []] ∧ link.held = false := by
  have loaded : r.hold.isSome = true := by rw [running]; rfl
  obtain ⟨link, step, owed, held⟩ := row_owing (u := s.unrelayed) (rs := [replyTo .feederRelay r.tag .timeout []])
    .relayHoldExpiry rfl live (by
    rw [outstanding]
    exact if_pos loaded) live.2
  exact ⟨link, step, owed, held⟩

/-- Settles O51: the request by the first check that fails, the frame by those behind it, the end by the frame or the
timer that comes first. -/
theorem relayRuns : Obligations.RelayRuns := by
  unfold Obligations.RelayRuns
  refine fun s tag kind payload => ⟨fun l => ?_, fun k p rest live first => ?_, fun r live outstanding => ?_,
    fun r n live outstanding running => ?_⟩
  · split_ifs with off dispenses busy
    · exact feederRelay_refused s l tag kind payload _ (by rw [relayCheck_eq, if_pos off])
    · exact feederRelay_refused s l tag kind payload _ (by rw [relayCheck_eq, if_neg off, if_pos dispenses])
    · exact feederRelay_refused s l tag kind payload _
        (by rw [relayCheck_eq, if_neg off, if_neg dispenses, if_pos busy])
    · obtain ⟨link, step, held, owed⟩ := feederRelay_admitted s l tag kind payload
        (by rw [relayCheck_eq, if_neg off, if_neg dispenses, if_neg busy])
      exact ⟨_, step, rfl, rfl, held, owed⟩
  · obtain ⟨link, step⟩ := relayFrameSent_sends s k p rest live first
    refine ⟨_, step, rfl, fun r outstanding last => ?_, fun spared => ?_⟩
    · simp [outstanding, (all_isDispense rest).2 last]
    · rcases spared with ended | ⟨k', p', later⟩
      · simp [ended]
      · have waits : rest.all FeederTx.isDispense = false :=
          Bool.eq_false_iff.2 fun alone => (all_isDispense rest).1 alone k' p' later
        simp [waits]
  · obtain ⟨link, step, owed, held⟩ := feederOtherFrame_answers s kind payload r live outstanding
    exact ⟨_, step, rfl, rfl, rfl, rfl, held, owed⟩
  · obtain ⟨link, step, owed, held⟩ := relayHoldExpiry_times s r n live outstanding running
    exact ⟨_, step, rfl, held, owed⟩

end Sys2Proof.Machine
end

section
/-! The end of the INHIBIT: the take attempts of R9 and the remembered REHANG_DONEs worked off, none of them coming to
anything, or one of them beginning a pass (R8, R10, R26, R37, R177). -/

namespace Sys2Proof.Machine

set_option Elab.async false

/-! ### When the INHIBIT is in force (R177) -/

theorem mem_faultKinds (k : FaultKind) : k ∈ faultKinds := by
  cases k <;> decide

theorem Reaction.inhibits_iff (r : Reaction) : r.inhibits = true ↔ r = .inhibit ∨ r = .stopAll := by
  simp only [Reaction.inhibits, Bool.or_eq_true, beq_iff_eq]

theorem inhibit_iff (s : State) : s.inhibit = true ↔ ∃ k, s.imposes k := by
  unfold State.inhibit
  simp only [List.any_eq_true, Bool.and_eq_true, beq_iff_eq, Reaction.inhibits_iff]
  exact ⟨fun ⟨k, _, imposes⟩ => ⟨k, imposes⟩, fun ⟨k, imposes⟩ => ⟨k, mem_faultKinds k, imposes⟩⟩

theorem inhibit_off (s : State) (spared : ∀ k, ¬s.imposes k) : s.inhibit = false :=
  Bool.eq_false_iff.2 fun on => by
    obtain ⟨k, imposes⟩ := (inhibit_iff s).1 on
    exact spared k imposes

/-- The INHIBIT is told by the entries' states and the kinds' settings. -/
theorem inhibit_congr (s t : State)
    (states : ∀ k : FaultKind, (t.entries[k.ix]'k.ix.2).state = (s.entries[k.ix]'k.ix.2).state)
    (faults : t.kept.faults = s.kept.faults) : t.inhibit = s.inhibit := by
  unfold State.inhibit State.reactionOf
  rw [faults]
  refine congrArg faultKinds.any (funext fun k => ?_)
  exact congrArg (fun x => (x == EntryState.active) && _) (states k)

/-! ### A follow-up carried out (R8, R37) -/

/-- What a follow-up does. -/
def Follow.act (s : State) : Follow → State
  | .take h => s.attemptTake h
  | .rehang h => s.rehangGo h

/-- A follow-up that comes to nothing: no order is taken, or no REHANG_DONE is remembered. -/
def Follow.spent (s : State) : Follow → Prop
  | .take h => Follow.resting s (.take h)
  | .rehang h => ¬s.remembers h

theorem act_spent (s : State) (x : Follow) (rests : x.spent s) : x.act s = s := by
  cases x with
  | take h => exact attemptTake_resting s h rests
  | rehang h =>
    refine rehangGo_rests s h ?_
    rcases not_and_or.1 rests with away | forgotten
    · exact .inl away
    · exact .inr (.inl (Bool.eq_false_iff.2 forgotten))

/-- The oldest follow-up is carried out once no report is left. -/
theorem settleFor_follow (n : Nat) (s : State) (x : Follow) (rest : List Follow) (a : s.agenda = ⟨[], x :: rest⟩) :
    settleFor (n + 1) s = settleFor n (x.act { s with agenda := ⟨[], rest⟩ }) := by
  have todo : s.agenda ≠ Agenda.empty := by rw [a]; exact fun e => nomatch e
  have one : s.settleOne = x.act { s with agenda := ⟨[], rest⟩ } := by
    unfold State.settleOne
    rw [a]
    cases x <;> rfl
  rw [settleFor, if_neg todo, one]

/-- Follow-ups ahead of others that come to nothing leave the others. -/
theorem settleFor_spent (n : Nat) (s : State) (pre post : List Follow) (a : s.agenda = ⟨[], pre ++ post⟩)
    (rests : ∀ x ∈ pre, x.spent s) : settleFor (n + pre.length) s = settleFor n { s with agenda := ⟨[], post⟩ } := by
  induction pre generalizing s with
  | nil =>
    have same : s.agenda = ⟨[], post⟩ := a
    rw [← same]
    rfl
  | cons x pre ih =>
    have unmoved (y : Follow) (rest : y.spent s) : y.spent { s with agenda := ⟨[], pre ++ post⟩ } := by
      cases y <;> exact rest
    rw [List.length_cons, ← Nat.add_assoc, settleFor_follow _ s x (pre ++ post) a,
      act_spent _ x (unmoved x (rests x (List.mem_cons_self ..)))]
    exact ih _ rfl fun y hy => unmoved y (rests y (List.mem_cons_of_mem _ hy))

theorem settle_spent (s : State) (follow : List Follow) (a : s.agenda = ⟨[], follow⟩) (rests : ∀ x ∈ follow, x.spent s)
    (few : follow.length ≤ 8) : s.settle = { s with agenda := Agenda.empty } := by
  have bound : Config.agendaBound = 200 - follow.length + follow.length := by
    have e : Config.agendaBound = 200 := rfl
    omega
  unfold State.settle
  rw [bound, settleFor_spent _ s follow [] (by rw [List.append_nil]; exact a) rests]
  exact settleFor_of_empty _ _ rfl

/-- One follow-up leaves the machine `u`, its conditions reported absent; those before it and after it come to nothing. -/
theorem settle_acts (s u : State) (pre post : List Follow) (x : Follow) (h : Hoist)
    (a : s.agenda = ⟨[], pre ++ x :: post⟩) (before : ∀ y ∈ pre, y.spent s)
    (e : x.act { s with agenda := ⟨[], post⟩ } = u) (left : u.agenda = ⟨absentConds h, post⟩)
    (after : ∀ y ∈ post, y.spent u) (few : (pre ++ x :: post).length ≤ 8) :
    s.settle = { u with entries := keepReports u.entries (absentConds h), agenda := Agenda.empty } := by
  rw [List.length_append, List.length_cons] at few
  have bound : Config.agendaBound =
      197 - pre.length - post.length + post.length + (absentConds h).length + 1 + pre.length := by
    have e : Config.agendaBound = 200 := rfl
    have two : (absentConds h).length = 2 := rfl
    omega
  have reported : u.agenda = ⟨absentConds h ++ [], post⟩ := left
  unfold State.settle
  rw [bound, settleFor_spent _ s pre (x :: post) a before, settleFor_follow _ _ x post rfl, e,
    settleFor_prefix _ u (absentConds h) [] post reported (quietReports_of_absent _ _ (absentConds_absent h)),
    settleFor_spent _ _ post [] (by rw [List.append_nil]) fun y hy => by cases y <;> exact after _ hy]
  exact settleFor_of_empty _ _ rfl

/-! ### What follow-ups and absent conditions leave alone -/

/-- From `s` to `t` no entry and no setting has changed, and where every report was of an absent condition every one still
is. -/
structure Calm (s t : State) : Prop where
  entries : t.entries = s.entries
  kept : t.kept = s.kept
  absent : s.agenda.reports.all FaultReport.absent = true → t.agenda.reports.all FaultReport.absent = true

theorem Calm.refl (s : State) : Calm s s := ⟨rfl, rfl, id⟩

theorem Calm.trans {a b c : State} (x : Calm a b) (y : Calm b c) : Calm a c :=
  ⟨y.entries.trans x.entries, y.kept.trans x.kept, y.absent ∘ x.absent⟩

theorem stage_calm (s : State) (h : Hoist) (o : Order) (p : Pass) (n : Nat) : Calm s (s.stage h o p n) := by
  obtain ⟨_, _, _, _, _, staged, _⟩ := stage_only s h o p n
  rw [staged]
  refine ⟨rfl, rfl, fun absent => ?_⟩
  rw [List.all_append, absent]
  rfl

theorem grantReserve_calm (s : State) (n : Nat) : Calm s (s.grantReserve n) := by
  obtain ⟨_, _, reserved⟩ := grantReserve_only s n
  rw [reserved]
  exact ⟨rfl, rfl, id⟩

theorem attemptTake_calm (s : State) (h : Hoist) : Calm s (s.attemptTake h) := by
  unfold State.attemptTake
  split
  · split
    · exact (grantReserve_calm s _).trans (stage_calm _ h _ .one _)
    · exact .refl s
  · exact .refl s

theorem rehangGo_calm (s : State) (h : Hoist) : Calm s (s.rehangGo h) := by
  unfold State.rehangGo
  split
  · split
    · exact stage_calm s h _ .two _
    · exact .refl s
  · exact .refl s

theorem act_calm (s : State) (x : Follow) : Calm s (x.act s) := by
  cases x with
  | take h => exact attemptTake_calm s h
  | rehang h => exact rehangGo_calm s h

theorem setEntry_state (entries : Vector FaultEntry 14) (k : FaultKind) (e : FaultEntry) (j : FaultKind)
    (same : e.state = (entries[k.ix]'k.ix.2).state) :
    ((entries.set k.ix e)[j.ix]'j.ix.2).state = (entries[j.ix]'j.ix.2).state := by
  by_cases own : j = k
  · subst own
    exact (congrArg FaultEntry.state (Vector.getElem_set_self j.ix.isLt)).trans same
  · exact congrArg FaultEntry.state
      (Vector.getElem_set_ne k.ix.isLt j.ix.isLt fun e => FaultKind.ix_ne own (Fin.ext e.symm))

/-- Follow-ups and absent conditions, however many begin a pass, leave every entry's state and every setting (R176). -/
theorem settleFor_states (n : Nat) (s : State) (absent : s.agenda.reports.all FaultReport.absent = true) :
    (∀ k : FaultKind, ((settleFor n s).entries[k.ix]'k.ix.2).state = (s.entries[k.ix]'k.ix.2).state) ∧
      (settleFor n s).kept = s.kept := by
  induction n generalizing s with
  | zero => exact ⟨fun _ => rfl, rfl⟩
  | succ n ih =>
    cases agenda : s.agenda with | mk reports follow =>
    rw [agenda] at absent
    match reports, follow with
    | [], [] =>
      rw [settleFor_of_empty _ s agenda]
      exact ⟨fun _ => rfl, rfl⟩
    | [], x :: rest =>
      have calm := act_calm { s with agenda := ⟨[], rest⟩ } x
      obtain ⟨states, kept⟩ := ih _ (calm.absent rfl)
      rw [settleFor_follow n s x rest agenda]
      exact ⟨fun k => (states k).trans (by rw [calm.entries]), kept.trans calm.kept⟩
    | .occur _ _ :: _, _ => cases absent
    | .cond k h present :: rs, rest =>
      obtain ⟨off, later⟩ := Bool.and_eq_true_iff.1 absent
      have gone : present = false := by simpa only [FaultReport.absent, Bool.not_eq_true'] using off
      rw [settleFor_report n s _ rs _ agenda, takeReport_quiet { s with agenda := ⟨rs, rest⟩ } k h present
        fun on => absurd (gone.symm.trans on) Bool.false_ne_true]
      obtain ⟨states, kept⟩ := ih { s with
        agenda := ⟨rs, rest⟩, entries := s.entries.set k.ix ((s.entries[k.ix]'k.ix.2).keepValue h present) } later
      exact ⟨fun j => (states j).trans (setEntry_state s.entries k _ j (keepValue_state _ h present)), kept⟩

/-! ### The end of the INHIBIT (R177) -/

/-- Everything that waits for the end of the INHIBIT: each installed hoist's take attempt, then each one's REHANG_DONE. -/
def State.awaited (s : State) : List Follow := s.installedHoists.map .take ++ s.installedHoists.map .rehang

theorem awaited_length (s : State) : s.awaited.length ≤ 8 := by
  have four : s.installedHoists.length ≤ 4 := (List.length_filter_le _ _).trans (by decide)
  simp only [State.awaited, List.length_append, List.length_map]
  omega

/-- An INHIBIT that was in force and is not now leaves all that waited for its end. -/
theorem inhibitEnd_ends (s : State) (idle : s.agenda = Agenda.empty) (free : s.inhibit = false) :
    s.inhibitEnd true = { s with agenda := ⟨[], s.awaited⟩ } := by
  unfold State.inhibitEnd
  rw [free, takeAll_eq, foldl_followUp, idle]
  simp only [Agenda.empty, List.nil_append, Bool.not_false, Bool.and_self, if_true, State.awaited]

/-- An INHIBIT that was not in force, or still is, does not end. -/
theorem inhibitEnd_stays (s : State) (before : Bool) (stays : before = false ∨ s.inhibit = true) :
    s.inhibitEnd before = s := by
  refine if_neg fun ends => ?_
  obtain ⟨was, ended⟩ := Bool.and_eq_true_iff.1 ends
  rcases stays with off | on
  · rw [off] at was; cases was
  · rw [on] at ended; cases ended

/-- The machine at the end of the INHIBIT, all that waited for it still to be done. -/
def State.released (s : State) : State := { s with agenda := ⟨[], s.awaited⟩ }

theorem released_states (s : State) (k : FaultKind) :
    (s.released.settle.entries[k.ix]'k.ix.2).state = (s.entries[k.ix]'k.ix.2).state :=
  (settleFor_states _ s.released rfl).1 k

theorem released_inhibit (s : State) : s.released.settle.inhibit = s.inhibit :=
  inhibit_congr s _ (released_states s) (congrArg Retained.faults (settleFor_states _ s.released rfl).2)

/-- Where no order waits and no REHANG_DONE is remembered, nothing follows. -/
theorem released_rests (s : State) (idle : s.agenda = Agenda.empty) (none_waits : s.noneQueued)
    (forgotten : ∀ i, ¬s.remembers i) : s.released.settle = s := by
  rw [settle_spent s.released s.awaited rfl (fun x hx => ?_) (awaited_length s)]
  · show { s with agenda := Agenda.empty } = s
    rw [← idle]
  · rcases List.mem_append.1 hx with hx | hx
    · obtain ⟨i, _, rfl⟩ := List.mem_map.1 hx
      exact .inl (offered_of_noneQueued s.released i none_waits)
    · obtain ⟨i, _, rfl⟩ := List.mem_map.1 hx
      exact forgotten i

/-! ### One pass that begins (R8, R10, R26, R37) -/

/-- From `s` to `u` a pass of a hoist has begun in STAGED, with reservations of its own and in all as given. -/
structure PassBegun (s u : State) (h : Hoist) (o : Order) (p : Pass) (resv reserved : Nat) : Prop where
  ctx : u.ctxs[h]'h.2 = { (s.ctxs[h]'h.2).beginPass ⟨o.slot, o.tag⟩ p resv with claim := some s.nextSerial }
  reserved : u.reserved = reserved
  claim : ClaimArrives s u (s.claimOf h o p)
  others : ∀ i : Hoist, i ≠ h → u.ctxs[i]'i.2 = s.ctxs[i]'i.2 ∧ u.drives[i]'i.2 = s.drives[i]'i.2
  orders : ∀ x ∈ u.orders, x.state = .queued → x ∈ s.orders
  agenda : u.agenda = ⟨s.agenda.reports ++ absentConds h, s.agenda.follow⟩

/-- An order in a pass is QUEUED no longer, and the other orders are as they were. -/
theorem queued_of_begun (l : List Order) (slot : Nat) (p : Pass) (x : Order)
    (found : x ∈ l.map fun y => if y.slot = slot then { y with state := .active, pass := some p } else y)
    (queued : x.state = .queued) : x ∈ l := by
  obtain ⟨y, hy, e⟩ := List.mem_map.1 found
  split at e
  · rw [← e] at queued; cases queued
  · exact e ▸ hy

theorem rehangGo_begun (s : State) (h : Hoist) (o : Order) (remembers : s.remembers h) (free : s.inhibit = false)
    (own : s.orderOf h = some o) : PassBegun s (s.rehangGo h) h o .two (s.ctxs[h]'h.2).resv s.reserved := by
  obtain ⟨rehang, remembered⟩ := remembers
  rw [rehangGo_stages s h o own rehang remembered free]
  obtain ⟨drives, _, _, _, _, staged, arrives, others, _⟩ := stage_only s h o .two (s.ctxs[h]'h.2).resv
  generalize s.stage h o .two (s.ctxs[h]'h.2).resv = u at staged arrives
  refine ⟨?_, ?_, arrives, fun i ne => ⟨?_, ?_⟩, ?_, ?_⟩
  all_goals rw [staged]
  · exact hoist_set_same _ h _
  · exact hoist_set_ne _ h i _ ne
  · exact (others i ne).1
  · exact fun x => queued_of_begun s.orders o.slot .two x

theorem attemptTake_begun (s : State) (h : Hoist) (o : Order) (offered : s.offered h = some o)
    (installed : s.installed h = true) (parked : (s.ctxs[h]'h.2).state = .parked)
    (run : (s.ctxs[h]'h.2).runEnable = true) (known : (s.drives[h]'h.2).known = true) (free : s.inhibit = false)
    (unbenched : s.bench = false) (room : s.canReserve o.passCount = true) :
    PassBegun s (s.attemptTake h) h o .one o.passCount (s.reserved + o.passCount) := by
  rw [attemptTake_taken s h o offered installed parked run known free unbenched room]
  obtain ⟨drives, _, _, _, _, _, staged, arrives, others, _⟩ := grantedStage_only s h o o.passCount
  generalize (s.grantReserve o.passCount).stage h o .one o.passCount = u at staged arrives
  refine ⟨?_, ?_, arrives, fun i ne => ⟨?_, ?_⟩, ?_, ?_⟩
  all_goals rw [staged]
  · exact hoist_set_same _ h _
  · exact hoist_set_ne _ h i _ ne
  · exact (others i ne).1
  · exact fun x => queued_of_begun s.orders o.slot .one x

/-- No order waits for a hoist where all that wait name another. -/
theorem offered_other (s : State) (h i : Hoist) (only : ∀ x ∈ s.orders, x.state = .queued → x.hoist = h) (other : i ≠ h) :
    s.offered i = none := by
  refine List.find?_eq_none.2 fun x hx waits => ?_
  obtain ⟨queued, named⟩ := Bool.and_eq_true_iff.1 waits
  exact other ((beq_iff_eq.1 named).symm.trans (only x hx (beq_iff_eq.1 queued)))

/-- With one hoist's pass begun nothing more follows: its dip context is STAGED, and no other hoist has anything to do. -/
theorem PassBegun.spent {s u : State} {h : Hoist} {o : Order} {p : Pass} {resv reserved : Nat}
    (begun : PassBegun s u h o p resv reserved) (only : ∀ x ∈ s.orders, x.state = .queued → x.hoist = h)
    (alone : ∀ i, i ≠ h → ¬s.remembers i) (y : Follow) : y.spent u := by
  have staged : (u.ctxs[h]'h.2).state = .staged := by rw [begun.ctx]; rfl
  cases y with
  | take i =>
    by_cases own : i = h
    · refine .inr ?_
      rw [own, staged]
      decide
    · exact .inl (offered_other u h i (fun x hx queued => only x (begun.orders x hx queued) queued) own)
  | rehang i =>
    rintro ⟨rehang, remembered⟩
    by_cases own : i = h
    · rw [own] at rehang
      exact absurd (staged.symm.trans rehang) (by decide)
    · have same := (begun.others i own).1
      exact alone i own ⟨(congrArg DipCtx.state same).symm.trans rehang,
        (congrArg DipCtx.rehangKept same).symm.trans remembered⟩

/-- The first of what waited for the end of the INHIBIT to begin a pass is the only one. -/
theorem released_begins (s : State) (pre post : List Follow) (x : Follow) (h : Hoist) (o : Order) (p : Pass)
    (resv reserved : Nat) (split : s.awaited = pre ++ x :: post) (before : ∀ y ∈ pre, y.spent s)
    (begun : PassBegun { s with agenda := ⟨[], post⟩ } (x.act { s with agenda := ⟨[], post⟩ }) h o p resv reserved)
    (only : ∀ x ∈ s.orders, x.state = .queued → x.hoist = h) (alone : ∀ i, i ≠ h → ¬s.remembers i) : ∃ u entries,
    s.released.settle = { u with entries := entries, agenda := Agenda.empty } ∧
      PassBegun { s with agenda := ⟨[], post⟩ } u h o p resv reserved :=
  ⟨_, _, settle_acts s.released _ pre post x h (by rw [← split]; rfl)
    (fun y hy => by cases y <;> exact before _ hy) rfl begun.agenda (fun y _ => begun.spent only alone y)
    (split ▸ awaited_length s), begun⟩

/-- An installed hoist among the installed ones, at its first place. -/
theorem installed_split (s : State) (h : Hoist) (installed : s.installed h = true) : ∃ pre post,
    s.installedHoists = pre ++ h :: post ∧ h ∉ pre :=
  List.eq_append_cons_of_mem (List.mem_filter.2 ⟨mem_hoists h, installed⟩)

theorem released_rehangs (s : State) (h : Hoist) (o : Order) (free : s.inhibit = false) (none_waits : s.noneQueued)
    (remembers : s.remembers h) (alone : ∀ i, i ≠ h → ¬s.remembers i) (installed : s.installed h = true)
    (own : s.orderOf h = some o) : ∃ u entries post,
    s.released.settle = { u with entries := entries, agenda := Agenda.empty } ∧
      PassBegun { s with agenda := ⟨[], post⟩ } u h o .two (s.ctxs[h]'h.2).resv s.reserved := by
  obtain ⟨pre, post, split, fresh⟩ := installed_split s h installed
  have awaited : s.awaited =
      (s.installedHoists.map .take ++ pre.map .rehang) ++ .rehang h :: post.map .rehang := by
    unfold State.awaited
    rw [List.append_assoc, congrArg (List.map Follow.rehang) split, List.map_append, List.map_cons]
  have before : ∀ y ∈ s.installedHoists.map Follow.take ++ pre.map Follow.rehang, y.spent s := by
    intro y hy
    rcases List.mem_append.1 hy with hy | hy
    · obtain ⟨i, _, rfl⟩ := List.mem_map.1 hy
      exact .inl (offered_of_noneQueued s i none_waits)
    · obtain ⟨i, here, rfl⟩ := List.mem_map.1 hy
      exact alone i fun e => fresh (e ▸ here)
  obtain ⟨u, entries, settled, begun⟩ := released_begins s _ _ (.rehang h) h o .two _ _ awaited before
    (rehangGo_begun { s with agenda := ⟨[], post.map .rehang⟩ } h o remembers free own)
    (fun x hx queued => absurd queued (none_waits x hx)) alone
  exact ⟨u, entries, _, settled, begun⟩

theorem released_takes (s : State) (h : Hoist) (o : Order) (free : s.inhibit = false)
    (only : ∀ x ∈ s.orders, x.state = .queued → x.hoist = h) (forgotten : ∀ i, ¬s.remembers i)
    (offered : s.offered h = some o) (installed : s.installed h = true) (parked : (s.ctxs[h]'h.2).state = .parked)
    (run : (s.ctxs[h]'h.2).runEnable = true) (known : (s.drives[h]'h.2).known = true) (unbenched : s.bench = false)
    (room : s.canReserve o.passCount = true) : ∃ u entries post,
    s.released.settle = { u with entries := entries, agenda := Agenda.empty } ∧
      PassBegun { s with agenda := ⟨[], post⟩ } u h o .one o.passCount (s.reserved + o.passCount) := by
  obtain ⟨pre, post, split, fresh⟩ := installed_split s h installed
  have awaited : s.awaited =
      pre.map .take ++ .take h :: (post.map .take ++ s.installedHoists.map .rehang) := by
    unfold State.awaited
    rw [congrArg (List.map Follow.take) split, List.map_append, List.map_cons, List.append_assoc, List.cons_append]
  have before : ∀ y ∈ pre.map Follow.take, y.spent s := by
    intro y hy
    obtain ⟨i, here, rfl⟩ := List.mem_map.1 hy
    exact .inl (offered_other s h i only fun e => fresh (e ▸ here))
  obtain ⟨u, entries, settled, begun⟩ := released_begins s _ _ (.take h) h o .one _ _ awaited before
    (attemptTake_begun { s with agenda := ⟨[], post.map .take ++ s.installedHoists.map .rehang⟩ } h o offered installed
      parked run known free unbenched room)
    only fun i _ => forgotten i
  exact ⟨u, entries, _, settled, begun⟩

/-- The end of the INHIBIT, with all that follows it worked off (R9, R177). -/
theorem released_inhibitEnded (s : State) (link : Link) (idle : s.agenda = Agenda.empty) (free : s.inhibit = false) :
    InhibitEnded s { s.released.settle with link := link } := by
  refine ⟨?_, fun none_waits forgotten => ?_, fun h o none_waits remembers alone installed own => ?_,
    fun h o only forgotten offered installed parked run known unbenched room => ?_⟩
  · exact (released_inhibit s).trans free
  · rw [released_rests s idle none_waits forgotten]
    exact ⟨rfl, rfl, rfl, rfl, rfl, rfl⟩
  · obtain ⟨u, entries, post, settled, begun⟩ := released_rehangs s h o free none_waits remembers alone installed own
    rw [settled]
    exact ⟨congrArg DipCtx.state begun.ctx, congrArg DipCtx.pass begun.ctx,
      (congrArg DipCtx.resv begun.ctx).trans rfl, begun.reserved, begun.claim, begun.others⟩
  · obtain ⟨u, entries, post, settled, begun⟩ := released_takes s h o free only forgotten offered installed parked run
      known unbenched room
    rw [settled]
    exact ⟨congrArg DipCtx.state begun.ctx, congrArg DipCtx.order begun.ctx, congrArg DipCtx.pass begun.ctx,
      (congrArg DipCtx.resv begun.ctx).trans rfl, begun.reserved, begun.claim, begun.others⟩

/-- The end of the INHIBIT asks nothing of the fault entries, their settings or the link's marks. -/
theorem InhibitEnded.of_faults {s t : State} {entries : Vector FaultEntry 14} {faults : Vector FaultSet 14}
    {link : Link} (straps : link.straps = s.link.straps)
    (ended : InhibitEnded { s with entries := entries, kept := { s.kept with faults := faults }, link := link } t) :
    InhibitEnded s t := by
  unfold InhibitEnded State.installed at ended ⊢
  rw [← straps]
  exact ended

end Sys2Proof.Machine
end

section
/-! FAULT_ACK judged in order, and the clearing of an entry (R177, R182). -/

namespace Sys2Proof.Machine

set_option Elab.async false

/-! ### The order in which FAULT_ACK is judged (R182) -/

theorem faultKind?_none (n : Nat) (out : n = 0 ∨ 14 < n) : faultKind? n = none :=
  dif_neg fun ⟨_, _⟩ => by omega

theorem faultAck_unknown (s : State) (l : s.listening) (tag n : Nat) (out : n = 0 ∨ 14 < n) :
    exec (.faultAck tag n) s = .next (s.replied .faultAck tag .badValue) := by
  refine request_answered s l .faultAck tag _ _ _ ?_
  rw [faultKind?_none n out]
  rfl

/-- The answer of FAULT_ACK for a kind. -/
def State.ackAnswer (s : State) (k : FaultKind) : Answer :=
  if !(s.entries[k.ix]'k.ix.2).latched then s.refuse .wrongState
  else if k.isCondition && s.condPresent k then s.refuse .stillPresent
  else (s.acknowledge k).okay (s.entryFields k)

theorem exec_faultAck (s : State) (tag : Nat) (k : FaultKind) :
    exec (.faultAck tag k.number) s = .next (s.request .faultAck tag fun s => s.ackAnswer k) := by
  show execFaultAck tag k.number s = _
  unfold execFaultAck
  rw [faultKind?_number]
  rfl

theorem ackAnswer_clear (s : State) (k : FaultKind) (clear : (s.entries[k.ix]'k.ix.2).state = .clear) :
    s.ackAnswer k = s.refuse .wrongState :=
  if_pos (by rw [FaultEntry.latched, clear]; rfl)

theorem ackAnswer_present (s : State) (k : FaultKind) (latched : (s.entries[k.ix]'k.ix.2).state ≠ .clear)
    (condition : k.isCondition = true) (present : s.condPresent k = true) :
    s.ackAnswer k = s.refuse .stillPresent := by
  have open_ : (s.entries[k.ix]'k.ix.2).latched = true := bne_iff_ne.2 latched
  unfold State.ackAnswer
  rw [open_, condition, present]
  rfl

theorem ackAnswer_passes (s : State) (k : FaultKind) (latched : (s.entries[k.ix]'k.ix.2).state ≠ .clear)
    (gone : k.isCondition = false ∨ s.condPresent k = false) :
    s.ackAnswer k = (s.acknowledge k).okay (s.entryFields k) := by
  have open_ : (s.entries[k.ix]'k.ix.2).latched = true := bne_iff_ne.2 latched
  have passes : (k.isCondition && s.condPresent k) = false := Bool.and_eq_false_iff.2 gone
  unfold State.ackAnswer
  rw [open_, passes]
  rfl

/-! ### The entry cleared (R182) -/

/-- The machine with the entry of a kind cleared and the FAULT mark set, before an end of the INHIBIT. -/
def State.cleared (s : State) (k : FaultKind) : State :=
  { s with entries := s.entries.set k.ix (s.entries[k.ix]'k.ix.2).clear,
           link := { s.link with marks := noted s.kept.notices (s.reactionOf k).notifies .fault s.link.marks } }

theorem acknowledge_eq (s : State) (k : FaultKind) : s.acknowledge k = (s.cleared k).inhibitEnd s.inhibit := by
  unfold State.acknowledge
  dsimp only
  rw [markIf_eq]
  rfl

theorem cleared_entry (s : State) (k : FaultKind) :
    (s.cleared k).entries[k.ix]'k.ix.2 = (s.entries[k.ix]'k.ix.2).clear := Vector.getElem_set_self k.ix.isLt

theorem cleared_other (s : State) (k j : FaultKind) (other : j ≠ k) :
    (s.cleared k).entries[j.ix]'j.ix.2 = s.entries[j.ix]'j.ix.2 :=
  Vector.getElem_set_ne k.ix.isLt j.ix.isLt fun e => FaultKind.ix_ne other (Fin.ext e.symm)

/-- A cleared entry imposes nothing, and the others what they did. -/
theorem cleared_imposes (s : State) (k j : FaultKind) : (s.cleared k).imposes j ↔ j ≠ k ∧ s.imposes j := by
  by_cases own : j = k
  · subst own
    refine ⟨fun ⟨active, _⟩ => ?_, fun ⟨n, _⟩ => absurd rfl n⟩
    have clear : ((s.cleared j).entries[j.ix]'j.ix.2).state = .clear := by rw [cleared_entry]; rfl
    exact absurd (clear.symm.trans active) (by decide)
  · have same := cleared_other s k j own
    refine ⟨fun ⟨active, imposes⟩ => ⟨own, (congrArg FaultEntry.state same).symm.trans active, imposes⟩,
      fun ⟨_, active, imposes⟩ => ⟨(congrArg FaultEntry.state same).trans active, imposes⟩⟩

theorem cleared_inhibit_stays (s : State) (k : FaultKind) (stays : s.inhibit = false ∨ ∃ j, j ≠ k ∧ s.imposes j) :
    s.inhibit = false ∨ (s.cleared k).inhibit = true :=
  stays.imp_right fun ⟨j, imposes⟩ => (inhibit_iff _).2 ⟨j, (cleared_imposes s k j).2 imposes⟩

theorem cleared_inhibit_ends (s : State) (k : FaultKind) (last : ∀ j, j ≠ k → ¬s.imposes j) :
    (s.cleared k).inhibit = false :=
  inhibit_off _ fun j imposes =>
    have ⟨other, still⟩ := (cleared_imposes s k j).1 imposes
    last j other still

/-! ### FAULT_ACK that passes (R182) -/

theorem faultAck_clears (s : State) (l : s.listening) (tag : Nat) (k : FaultKind)
    (latched : (s.entries[k.ix]'k.ix.2).state ≠ .clear) (gone : k.isCondition = false ∨ s.condPresent k = false)
    (stays : s.inhibit = false ∨ ∃ j, j ≠ k ∧ s.imposes j) : ∃ link,
    exec (.faultAck tag k.number) s = .next { s.cleared k with link := link } ∧
      link.owed = s.link.owed ++ [replyTo .faultAck tag .ok (s.entryFields k)] := by
  have acknowledged : s.unbuilt.acknowledge k = s.unbuilt.cleared k :=
    (acknowledge_eq s.unbuilt k).trans (inhibitEnd_stays _ _ (cleared_inhibit_stays s.unbuilt k stays))
  have answer : s.unbuilt.ackAnswer k = ⟨s.unbuilt.cleared k, .ok, s.entryFields k⟩ := by
    rw [ackAnswer_passes s.unbuilt k latched gone, acknowledged]
    rfl
  obtain ⟨link, taken, owed⟩ := request_idle s l .faultAck tag (fun s => s.ackAnswer k) _ .ok _ answer l.1.2
  exact ⟨link, (exec_faultAck s tag k).trans taken, owed⟩

theorem faultAck_releases (s : State) (l : s.listening) (tag : Nat) (k : FaultKind)
    (latched : (s.entries[k.ix]'k.ix.2).state ≠ .clear) (gone : k.isCondition = false ∨ s.condPresent k = false)
    (imposes : s.imposes k) (last : ∀ j, j ≠ k → ¬s.imposes j) : ∃ link,
    exec (.faultAck tag k.number) s = .next { (s.unbuilt.cleared k).released.settle with link := link } ∧
      link.owed = s.link.owed ++ [replyTo .faultAck tag .ok (s.entryFields k)] := by
  have before : s.unbuilt.inhibit = true := (inhibit_iff _).2 ⟨k, imposes⟩
  have acknowledged : s.unbuilt.acknowledge k = (s.unbuilt.cleared k).released := by
    rw [acknowledge_eq, before]
    exact inhibitEnd_ends _ l.1.2 (cleared_inhibit_ends s.unbuilt k last)
  have answer : s.unbuilt.ackAnswer k = ⟨(s.unbuilt.cleared k).released, .ok, s.entryFields k⟩ := by
    rw [ackAnswer_passes s.unbuilt k latched gone, acknowledged]
    rfl
  obtain ⟨link, taken, owed⟩ := request_settled s l .faultAck tag (fun s => s.ackAnswer k) _ .ok _ answer
  exact ⟨link, (exec_faultAck s tag k).trans taken, owed⟩

/-- Settles O52: the request by the first check that fails; the clearing of the entry, and the end of the INHIBIT where it
was the last to impose it. -/
theorem faultAcknowledged : Obligations.FaultAcknowledged := by
  unfold Obligations.FaultAcknowledged
  refine fun s tag n l => ⟨faultAck_unknown s l tag n, fun k number => ?_⟩
  subst number
  refine ⟨fun clear => ?_, fun latched condition present => ?_, fun latched gone stays => ?_,
    fun latched gone imposes last => ?_⟩
  · exact (exec_faultAck s tag k).trans (request_answered s l .faultAck tag _ _ _ (ackAnswer_clear s.unbuilt k clear))
  · exact (exec_faultAck s tag k).trans
      (request_answered s l .faultAck tag _ _ _ (ackAnswer_present s.unbuilt k latched condition present))
  · obtain ⟨link, step, owed⟩ := faultAck_clears s l tag k latched gone stays
    exact ⟨_, step, rfl, owed, cleared_entry s k, cleared_other s k⟩
  · obtain ⟨link, step, owed⟩ := faultAck_releases s l tag k latched gone imposes last
    have free := cleared_inhibit_ends s.unbuilt k last
    have clear : ((s.unbuilt.cleared k).entries[k.ix]'k.ix.2).state = .clear := by rw [cleared_entry]; rfl
    exact ⟨_, step, owed, (released_states (s.unbuilt.cleared k) k).trans clear,
      (released_inhibitEnded (s.unbuilt.cleared k) link l.1.2 free).of_faults (faults := s.kept.faults) rfl⟩

end Sys2Proof.Machine
end

section
/-! FAULT_SETUP judged in order, and what new settings of a kind bring (R177, R183, R184). -/

namespace Sys2Proof.Machine

set_option Elab.async false

/-! ### The order in which FAULT_SETUP is judged (R183) -/

theorem faultSetup_unknown (s : State) (l : s.listening) (tag n r d f : Nat) (out : 14 < n) :
    exec (.faultSetup tag n (.settings r d f)) s = .next (s.replied .faultSetup tag .badValue) := by
  refine request_answered s l .faultSetup tag _ _ _ ?_
  have named : n ≠ 0 := by omega
  rw [if_neg named, faultKind?_none n (.inr out)]
  rfl

theorem faultSetup_beacon (s : State) (l : s.listening) (tag t : Nat) :
    exec (.faultSetup tag 0 (.beaconMin t)) s = .next (if 10 ≤ t ∧ t ≤ 600 then
        { s with kept := { s.kept with beaconMin := t } }.replied .faultSetup tag .ok
      else s.replied .faultSetup tag .badValue) := by
  have answered := setup_answered s l .faultSetup tag { s.kept with beaconMin := t } (within t 10 600)
    (fun s => s.setBeacon (.beaconMin t)) rfl
  simp only [within, decide_eq_true_eq] at answered
  exact congrArg Host.Outcome.next answered

theorem exec_faultSetup (s : State) (tag : Nat) (k : FaultKind) (body : FaultSetupBody) :
    exec (.faultSetup tag k.number body) s = .next (s.request .faultSetup tag fun s => s.setKind k body) := by
  show execFaultSetup tag k.number body s = _
  have named : k.number ≠ 0 := Nat.succ_ne_zero _
  unfold execFaultSetup
  simp only [if_neg named, faultKind?_number]

theorem reaction?_code (q : Reaction) : reaction? q.code = some q := by
  cases q <;> rfl

theorem reaction?_none (r : Nat) (out : 5 < r) : reaction? r = none := by
  match r with
  | 0 | 1 | 2 | 3 | 4 | 5 => exact absurd out (by decide)
  | _ + 6 => rfl

theorem code_le_stopAll (r : Reaction) : r.code ≤ Reaction.stopAll.code := by
  cases r <;> decide

/-- The settings carried, where each lies within its range. -/
theorem faultSet?_code (q : Reaction) (d f : Nat) (delay : d ≤ 600) (flag : f ≤ 1) :
    faultSet? q.code d f = some ⟨q, d, decide (f = 1)⟩ := by
  have ranged : (within d 0 600 && yesNo f) = true := by
    simp only [yesNo, within, Nat.zero_le, true_and, delay, flag, decide_true, Bool.and_self]
  unfold faultSet?
  rw [reaction?_code, ranged]
  rfl

theorem faultSet?_none (r d f : Nat) (out : 5 < r ∨ 600 < d ∨ 1 < f) : faultSet? r d f = none := by
  unfold faultSet?
  split
  · rename_i q named
    refine if_neg fun ranged => ?_
    simp only [yesNo, within, Nat.zero_le, true_and, Bool.and_eq_true, decide_eq_true_eq] at ranged
    rcases out with high | high | high
    · rw [reaction?_none r high] at named; cases named
    · omega
    · omega
  · rfl

/-- The settings that the two fixed kinds refuse (R183, step 3). -/
abbrev FaultKind.bars (k : FaultKind) (q : Reaction) (d : Nat) : Prop :=
  k = .drivePowerLoss ∧ (q ≠ .stopAll ∨ d ≠ 0) ∨ k = .retainedLost ∧ (q ≠ .notify ∨ d ≠ 0)

theorem allows_iff (k : FaultKind) (q : Reaction) (d : Nat) (b : Bool) : k.allows ⟨q, d, b⟩ = true ↔ ¬k.bars q d := by
  cases k <;> simp [FaultKind.allows, FaultKind.fixedReaction?, FaultKind.bars]

theorem faultSetup_ranged (s : State) (l : s.listening) (tag r d f : Nat) (k : FaultKind)
    (out : 5 < r ∨ 600 < d ∨ 1 < f) :
    exec (.faultSetup tag k.number (.settings r d f)) s = .next (s.replied .faultSetup tag .badValue) := by
  refine (exec_faultSetup s tag k _).trans (request_answered s l .faultSetup tag _ _ _ ?_)
  unfold State.setKind
  simp only [faultSet?_none r d f out]
  rfl

/-- The answer to settings within their ranges. -/
theorem setKind_code (s : State) (k : FaultKind) (q : Reaction) (d f : Nat) (delay : d ≤ 600) (flag : f ≤ 1) :
    s.setKind k (.settings q.code d f) =
      if k.allows ⟨q, d, decide (f = 1)⟩ then (s.setFault k ⟨q, d, decide (f = 1)⟩).okay else s.refuse .notPermitted := by
  unfold State.setKind
  simp only [faultSet?_code q d f delay flag]

theorem faultSetup_barred (s : State) (l : s.listening) (tag d f : Nat) (k : FaultKind) (q : Reaction) (delay : d ≤ 600)
    (flag : f ≤ 1) (bars : k.bars q d) :
    exec (.faultSetup tag k.number (.settings q.code d f)) s = .next (s.replied .faultSetup tag .notPermitted) := by
  refine (exec_faultSetup s tag k _).trans (request_answered s l .faultSetup tag _ _ _ ?_)
  rw [setKind_code _ k q d f delay flag]
  exact if_neg fun allowed => (allows_iff k q d _).1 allowed bars

/-! ### New settings of a kind (R184) -/

/-- The machine with new settings of a kind, before they bring a reaction or an end of the INHIBIT. -/
def State.refaulted (s : State) (k : FaultKind) (f : FaultSet) : State :=
  { s with kept := { s.kept with faults := s.kept.faults.set k.ix f } }

theorem refaulted_own (s : State) (k : FaultKind) (f : FaultSet) : (s.refaulted k f).reactionOf k = f.reaction :=
  congrArg FaultSet.reaction (Vector.getElem_set_self k.ix.isLt)

theorem refaulted_other (s : State) (k j : FaultKind) (f : FaultSet) (other : j ≠ k) :
    (s.refaulted k f).reactionOf j = s.reactionOf j :=
  congrArg FaultSet.reaction
    (Vector.getElem_set_ne k.ix.isLt j.ix.isLt fun e => FaultKind.ix_ne other (Fin.ext e.symm))

/-- An ACTIVE entry imposes the INHIBIT by its new reaction, the others as before. -/
theorem refaulted_imposes_own (s : State) (k : FaultKind) (f : FaultSet) : (s.refaulted k f).imposes k ↔
    (s.entries[k.ix]'k.ix.2).state = .active ∧ (f.reaction = .inhibit ∨ f.reaction = .stopAll) := by
  unfold State.imposes
  rw [refaulted_own]
  rfl

theorem refaulted_imposes_other (s : State) (k j : FaultKind) (f : FaultSet) (other : j ≠ k) :
    (s.refaulted k f).imposes j ↔ s.imposes j := by
  unfold State.imposes
  rw [refaulted_other s k j f other]
  rfl

/-- The INHIBIT does not end where the entry did not impose it, imposes it still, or another does. -/
theorem refaulted_inhibit_stays (s : State) (k : FaultKind) (f : FaultSet)
    (stays : ¬s.imposes k ∨ (s.refaulted k f).imposes k ∨ ∃ j, j ≠ k ∧ s.imposes j) :
    s.inhibit = false ∨ (s.refaulted k f).inhibit = true := by
  rw [inhibit_iff]
  rcases stays with spared | still | ⟨j, other, imposes⟩
  · by_cases before : s.inhibit = true
    · obtain ⟨j, imposes⟩ := (inhibit_iff s).1 before
      have other : j ≠ k := fun e => spared (e ▸ imposes)
      exact .inr ⟨j, (refaulted_imposes_other s k j f other).2 imposes⟩
    · exact .inl (Bool.eq_false_iff.2 before)
  · exact .inr ⟨k, still⟩
  · exact .inr ⟨j, (refaulted_imposes_other s k j f other).2 imposes⟩

theorem refaulted_inhibit_ends (s : State) (k : FaultKind) (f : FaultSet)
    (eases : f.reaction ≠ .inhibit ∧ f.reaction ≠ .stopAll) (last : ∀ j, j ≠ k → ¬s.imposes j) :
    (s.refaulted k f).inhibit = false := by
  refine inhibit_off _ fun j imposes => ?_
  by_cases own : j = k
  · subst own
    obtain ⟨_, inhibit | stop⟩ := (refaulted_imposes_own s j f).1 imposes
    · exact eases.1 inhibit
    · exact eases.2 stop
  · exact last j own ((refaulted_imposes_other s k j f own).1 imposes)

/-- New settings of an ACTIVE entry with a more severe reaction apply it. -/
theorem setFault_raises (s : State) (k : FaultKind) (f : FaultSet) (active : (s.entries[k.ix]'k.ix.2).state = .active)
    (raises : (s.reactionOf k).code < f.reaction.code) : s.setFault k f =
      ((s.refaulted k f).applyReaction f.reaction (members (s.entries[k.ix]'k.ix.2).involved)).inhibitEnd s.inhibit :=
  congrArg (fun t : State => t.inhibitEnd s.inhibit) (if_pos ⟨active, raises⟩)

theorem setFault_eases (s : State) (k : FaultKind) (f : FaultSet)
    (eases : (s.entries[k.ix]'k.ix.2).state ≠ .active ∨ f.reaction.code ≤ (s.reactionOf k).code) :
    s.setFault k f = (s.refaulted k f).inhibitEnd s.inhibit :=
  congrArg (fun t : State => t.inhibitEnd s.inhibit)
    (if_neg fun ⟨active, raises⟩ => eases.elim (fun n => n active) (fun n => Nat.not_lt.2 n raises))

/-- Whatever new settings bring changes no settings and no replies further. -/
theorem setFault_steady (s : State) (k : FaultKind) (f : FaultSet) : Steady (s.refaulted k f) (s.setFault k f) :=
  Steady.trans (.ite (applyReaction_steady _ _ _) (.refl _)) (inhibitEnd_steady _ _)

/-- The settings in force are the new ones, whatever they bring. -/
theorem setFault_settle_faults (s : State) (k : FaultKind) (f : FaultSet) :
    (s.setFault k f).settle.kept.faults = s.kept.faults.set k.ix f :=
  ((setFault_steady s k f).trans (settle_steady _)).settings.2

/-! ### A more severe reaction (R177, R184) -/

/-- The machine with the FAULT mark of a reaction set, before the reaction reaches a dip context. -/
def State.warned (s : State) (r : Reaction) : State :=
  { s with link := { s.link with marks := noted s.kept.notices r.notifies .fault s.link.marks } }

/-- Where the new reaction is below HOLD, an INHIBIT in force is another entry's and stays, and only the mark follows. -/
theorem setFault_warns (s : State) (k : FaultKind) (f : FaultSet) (active : (s.entries[k.ix]'k.ix.2).state = .active)
    (raises : (s.reactionOf k).code < f.reaction.code) (low : f.reaction.code ≤ 2) :
    s.setFault k f = (s.refaulted k f).warned f.reaction := by
  have spared : ¬s.imposes k := by
    have milder : (s.reactionOf k).code < 2 := Nat.lt_of_lt_of_le raises low
    rintro ⟨_, e | e⟩
    all_goals
      rw [e] at milder
      exact absurd milder (by decide)
  rw [setFault_raises s k f active raises, applyReaction_none _ _ low, markIf_eq]
  exact inhibitEnd_stays _ _ (refaulted_inhibit_stays s k f (.inl spared))

/-- A HOLD reaches the dip context of the one involved hoist. -/
theorem setFault_holds (s : State) (k : FaultKind) (f : FaultSet) (h : Hoist)
    (active : (s.entries[k.ix]'k.ix.2).state = .active) (raises : (s.reactionOf k).code < f.reaction.code)
    (hold : f.reaction = .hold) (free : s.inhibit = false)
    (one : ∀ i : Fin 4, (s.entries[k.ix]'k.ix.2).involved[i]'i.2 = decide (i = h)) :
    s.setFault k f = ((s.refaulted k f).warned .hold).enterHeld h := by
  have applied : (s.refaulted k f).applyReaction .hold [h] = ((s.refaulted k f).warned .hold).enterHeld h := by
    unfold State.applyReaction
    dsimp only
    rw [markIf_eq]
    rfl
  rw [setFault_raises s k f active raises, inhibitEnd_stays _ _ (.inl free), hold, involved_one _ h one, members_of_one,
    applied]

/-- The reports of a hold leave the state of every entry. -/
theorem heldSite_entryState (s : State) (h : Hoist) (x : Site) (idle : x.agenda = Agenda.empty)
    (entries : Vector FaultEntry 14) (j : Fin 14) :
    ((keepReports entries (s.heldSite h x).agenda.reports)[j]'j.2).state = (entries[j]'j.2).state := by
  have own : (s.heldSite h x).agenda.reports.all FaultReport.ofHoist = true := by
    unfold State.heldSite
    rw [idle]
    simp only [Agenda.empty, List.nil_append, List.all_append, haltConds_ofHoist, conds_ofHoist, Bool.and_self]
  obtain ⟨present, e⟩ := keepReports_present entries _ j own
  exact (congrArg FaultEntry.state e).trans rfl

/-- The end of a step that has held one dip context. -/
theorem enterHeld_finishes (s : State) (h : Hoist) (rs : List Reply) (idle : s.agenda = Agenda.empty)
    (busy : (s.ctxs[h]'h.2).state ≠ .parked) (away : (s.ctxs[h]'h.2).state ≠ .held) (station : s.stationClear h)
    (limit : (s.ctxs[h]'h.2).inLimit) : ∃ link, ((s.enterHeld h).owing rs).settle.transmit =
      State.finished { s with wu := s.wu.without h } h (s.heldSite h (s.site h)) link ∧
      link.owed = s.link.owed ++ rs := by
  obtain ⟨link, finished, sent⟩ := finish_site { s with wu := s.wu.without h } h (s.heldSite h (s.site h)) rs idle
    (heldSite_quiet s _ h (s.site h) station idle)
  rw [enterHeld_eq s h busy away limit]
  exact ⟨link, finished, sent.owed⟩

/-! ### FAULT_SETUP that passes (R183, R184) -/

/-- The part takes a FAULT_SETUP of a kind that carries allowed settings. -/
structure Resets (s : State) (k : FaultKind) (f : FaultSet) (body : FaultSetupBody) : Prop where
  listening : s.listening
  answer : ∀ t : State, t.setKind k body = ⟨t.setFault k f, .ok, []⟩

theorem resets_of_allowed (s : State) (k : FaultKind) (q : Reaction) (d f : Nat) (l : s.listening) (delay : d ≤ 600)
    (flag : f ≤ 1) (allowed : ¬k.bars q d) : Resets s k ⟨q, d, decide (f = 1)⟩ (.settings q.code d f) := by
  refine ⟨l, fun t => ?_⟩
  rw [setKind_code t k q d f delay flag]
  exact if_pos ((allows_iff k q d _).2 allowed)

section
variable {s : State} {k : FaultKind} {f : FaultSet} {body : FaultSetupBody}

theorem Resets.step (g : Resets s k f body) (tag : Nat) : exec (.faultSetup tag k.number body) s =
    .next ((s.unbuilt.setFault k f).owing [replyTo .faultSetup tag .ok []]).settle.transmit := by
  rw [exec_faultSetup, request_of_listening s .faultSetup tag _ g.listening]
  exact congrArg (fun a : Answer => Host.Outcome.next
    (a.state.addReply ReqKind.faultSetup.code tag a.result a.fields).settle.transmit) (g.answer s.unbuilt)

theorem Resets.settles (g : Resets s k f body) (tag : Nat) : ∃ link,
    exec (.faultSetup tag k.number body) s = .next { (s.unbuilt.setFault k f).settle with link := link } ∧
    link.owed = s.link.owed ++ [replyTo .faultSetup tag .ok []] := by
  obtain ⟨link, taken, owed⟩ := request_settled s g.listening .faultSetup tag (fun s => s.setKind k body) _ .ok []
    (g.answer s.unbuilt)
  refine ⟨link, (exec_faultSetup s tag k body).trans taken, owed.trans ?_⟩
  rw [steady_owed (setFault_steady s.unbuilt k f)]
  rfl

/-- Settings that bring nothing further are their own state with the reply. -/
theorem Resets.rests (g : Resets s k f body) (tag : Nat)
    (eases : (s.entries[k.ix]'k.ix.2).state ≠ .active ∨ f.reaction.code ≤ (s.reactionOf k).code)
    (stays : s.inhibit = false ∨ (s.refaulted k f).inhibit = true) :
    exec (.faultSetup tag k.number body) s = .next ((s.refaulted k f).replied .faultSetup tag .ok) := by
  have rests : s.unbuilt.setFault k f = s.unbuilt.refaulted k f :=
    (setFault_eases s.unbuilt k f eases).trans (inhibitEnd_stays _ _ stays)
  have answer := g.answer s.unbuilt
  rw [rests] at answer
  exact (exec_faultSetup s tag k body).trans (congrArg Host.Outcome.next (setup_answered s g.listening .faultSetup tag
    { s.kept with faults := s.kept.faults.set k.ix f } true (fun s => s.setKind k body) answer))

theorem Resets.warns (g : Resets s k f body) (tag : Nat) (active : (s.entries[k.ix]'k.ix.2).state = .active)
    (raises : (s.reactionOf k).code < f.reaction.code) (low : f.reaction.code ≤ 2) : ∃ link,
    exec (.faultSetup tag k.number body) s = .next { s.refaulted k f with link := link } ∧
    link.owed = s.link.owed ++ [replyTo .faultSetup tag .ok []] := by
  obtain ⟨link, step, owed⟩ := g.settles tag
  rw [setFault_warns s.unbuilt k f active raises low,
    settle_of_empty ((s.unbuilt.refaulted k f).warned f.reaction) g.listening.1.2] at step
  exact ⟨link, step, owed⟩

/-- The dip context that a HOLD reaches is HELD where it stood, its motion cancelled. -/
theorem Resets.holds (g : Resets s k f body) (tag : Nat) (h : Hoist)
    (active : (s.entries[k.ix]'k.ix.2).state = .active) (raises : (s.reactionOf k).code < f.reaction.code)
    (hold : f.reaction = .hold) (free : s.inhibit = false)
    (one : ∀ i : Fin 4, (s.entries[k.ix]'k.ix.2).involved[i]'i.2 = decide (i = h))
    (busy : (s.ctxs[h]'h.2).state ≠ .parked) (away : (s.ctxs[h]'h.2).state ≠ .held) (station : s.stationClear h)
    (limit : (s.ctxs[h]'h.2).inLimit) : ∃ t, exec (.faultSetup tag k.number body) s = .next t ∧
      t.link.owed = s.link.owed ++ [replyTo .faultSetup tag .ok []] ∧ (t.ctxs[h]'h.2).state = .held ∧
      (t.ctxs[h]'h.2).heldFrom = some (s.ctxs[h]'h.2).state ∧ (t.drives[h]'h.2).motion = none ∧
      (t.entries[k.ix]'k.ix.2).state = .active ∧ t.orders = s.orders ∧
      ∀ i : Hoist, i ≠ h → t.ctxs[i]'i.2 = s.ctxs[i]'i.2 ∧ t.drives[i]'i.2 = s.drives[i]'i.2 := by
  obtain ⟨link, finished, owed⟩ := enterHeld_finishes ((s.unbuilt.refaulted k f).warned .hold) h
    [replyTo .faultSetup tag .ok []] g.listening.1.2 busy away station limit
  have step := g.step tag
  rw [setFault_holds s.unbuilt k f h active raises hold free one, finished] at step
  refine ⟨_, step, owed, ?_, ?_, ?_, (heldSite_entryState _ h _ g.listening.1.2 s.entries k.ix).trans active, rfl,
    finished_others _ h _ link⟩
  all_goals simp only [finished_ctx, finished_drive, State.heldSite, DipCtx.holding, DriveIf.permitted, halted_motion]
  rfl

/-- A less severe reaction of the last entry that imposed the INHIBIT ends it. -/
theorem Resets.releases (g : Resets s k f body) (tag : Nat) (imposes : s.imposes k) (last : ∀ j, j ≠ k → ¬s.imposes j)
    (eases : f.reaction.code ≤ (s.reactionOf k).code) (spares : f.reaction ≠ .inhibit ∧ f.reaction ≠ .stopAll) :
    ∃ t, exec (.faultSetup tag k.number body) s = .next t ∧
      t.link.owed = s.link.owed ++ [replyTo .faultSetup tag .ok []] ∧ InhibitEnded s t := by
  have before : s.unbuilt.inhibit = true := (inhibit_iff _).2 ⟨k, imposes⟩
  have free := refaulted_inhibit_ends s.unbuilt k f spares last
  have reset : s.unbuilt.setFault k f = (s.unbuilt.refaulted k f).released := by
    rw [setFault_eases s.unbuilt k f (.inr eases), before]
    exact inhibitEnd_ends _ g.listening.1.2 free
  obtain ⟨link, step, owed⟩ := g.settles tag
  rw [reset] at step
  exact ⟨_, step, owed, (released_inhibitEnded (s.unbuilt.refaulted k f) link g.listening.1.2 free).of_faults rfl⟩

end

/-- Settles O53: the request by the first check that fails; the new settings, and what they bring by the entry's state and
by the severity of the reactions. -/
theorem faultSettingsReplaced : Obligations.FaultSettingsReplaced := by
  unfold Obligations.FaultSettingsReplaced
  refine fun s tag n r d f l => ⟨faultSetup_unknown s l tag n r d f, faultSetup_beacon s l tag, fun k number => ?_⟩
  subst number
  refine ⟨faultSetup_ranged s l tag r d f k, fun q code delay flag => ?_⟩
  subst code
  refine ⟨faultSetup_barred s l tag d f k q delay flag, fun allowed => ?_⟩
  have g := resets_of_allowed s k q d f l delay flag allowed
  refine ⟨?_, fun quiet => ?_, fun active raises low => ?_,
    fun h active raises hold free one busy away station limit => ?_, fun imposes last eases spares => ?_⟩
  · obtain ⟨link, step, owed⟩ := g.settles tag
    exact ⟨_, step, owed, setFault_settle_faults s.unbuilt k _⟩
  · by_cases active : (s.entries[k.ix]'k.ix.2).state = .active
    · obtain ⟨eases, stays⟩ := quiet.resolve_left (not_not_intro active)
      refine g.rests tag (.inr eases) ?_
      rcases stays with free | inhibits | stops | another
      · exact .inl free
      · exact refaulted_inhibit_stays s k _ (.inr (.inl ((refaulted_imposes_own s k _).2 ⟨active, .inl inhibits⟩)))
      · exact refaulted_inhibit_stays s k _ (.inr (.inl ((refaulted_imposes_own s k _).2 ⟨active, .inr stops⟩)))
      · exact refaulted_inhibit_stays s k _ (.inr (.inr another))
    · have spared : ¬s.imposes k := fun ⟨imposes, _⟩ => active imposes
      exact g.rests tag (.inl active) (refaulted_inhibit_stays s k _ (.inl spared))
  · obtain ⟨link, step, owed⟩ := g.warns tag active raises low
    exact ⟨_, step, owed, rfl⟩
  · exact g.holds tag h active raises hold free one busy away station limit
  · refine g.releases tag imposes last (Nat.le_of_lt eases) ⟨spares, fun (stops : q = .stopAll) => ?_⟩
    rw [stops] at eases
    exact absurd eases (Nat.not_lt.2 (code_le_stopAll _))

end Sys2Proof.Machine
end
